-- ==== Sys2Proof/Word.lean ====
section
/-! DEFINITION. Word.lean: the byte, half word and word that frames are made of, and the plain
arithmetic of section 5.2 of 00_scope.md. -/

namespace Sys2Proof

/-- One byte of a frame (R172). -/
abbrev Byte := BitVec 8

/-- A two-byte field of a frame body. -/
abbrev Half := BitVec 16

/-- A four-byte field of a frame body. -/
abbrev Word := BitVec 32

/-- "Clamp a value to [A, B]": raise it to A if it is below A, lower it to B if it is above B. -/
def clamp (lo hi v : Nat) : Nat := min (max v lo) hi

/-- The smallest whole number at least a / b (R102). -/
def ceilDiv (a b : Nat) : Nat := (a + b - 1) / b

/-- A number as one byte. -/
def byteOf (n : Nat) : Byte := BitVec.ofNat 8 n

/-- Multi-byte fields are sent most significant byte first (R172). -/
def halfBytes (h : Half) : List Byte := [h.extractLsb' 8 8, h.extractLsb' 0 8]

/-- The four bytes of a word, most significant first (R172). -/
def wordBytes (w : Word) : List Byte :=
  [w.extractLsb' 24 8, w.extractLsb' 16 8, w.extractLsb' 8 8, w.extractLsb' 0 8]

/-- A two-byte field read back, most significant byte first. -/
def halfOf (a b : Byte) : Half := a ++ b

/-- A four-byte field read back, most significant byte first. -/
def wordOf (a b c d : Byte) : Word := a ++ b ++ c ++ d

end Sys2Proof
end

