-- ==== Sys2Proof/Config.lean ====
section
/-! DEFINITION. Config.lean: the constants the manual fixes. The manual leaves no result open, so
there is no free value here. -/

namespace Sys2Proof.Config

/-- Slots of the Request Board (R25). -/
def slotCount : Nat := 24

/-- The largest arrival sequence number (R27). -/
def maxSequence : Nat := 4294967295

/-- Entries the Condition List holds (R150). -/
def listCapacity : Nat := 16

/-- The largest overflow count (R149). -/
def maxOverflow : Nat := 65535

/-- The largest occurrence count of an entry (R149). -/
def maxOccurrence : Nat := 255

/-- Consecutive differing samples that change a debounced level (R52). -/
def debounceSamples : Nat := 20

/-- The recovery timer, in ms (R56). -/
def recoveryTime : Nat := 1000

/-- Loaded milliseconds of one wear step (R63). -/
def wearStepTime : Nat := 360000

/-- The largest wear accumulator (R64). -/
def maxWear : Nat := 65535

/-- The largest loaded tenth-hours counter (R64). -/
def maxTenths : Nat := 999999

/-- Wear steps between two marks of WEAR (R64). -/
def wearStepsPerMark : Nat := 10

/-- The largest measured gap (R60). -/
def maxGap : Nat := 3000

/-- The largest last move duration, in ms (R78). -/
def maxMoveDuration : Nat := 4294967294

/-- The highest priority LC may hold (R32). -/
def lcPriorityCap : Nat := 7

/-- Entries of a relief history (R136). -/
def reliefHistoryLength : Nat := 4

/-- The second count and the line clock wrap past 4,294,967,295 (R160, R161). -/
def secondSpan : Nat := 4294967296

/-- The span of the uptime in ms before the second count wraps (R160). -/
def uptimeSpan : Nat := 4294967296000

/-- The longest gap in ms between two bytes of one frame (R173). -/
def interByteLimit : Nat := 5

/-- The PWM period of a valve output, in ms (R70). -/
def valvePeriod : Nat := 5

/-- The PWM period of a rate output, in ms (R119). -/
def ratePeriod : Nat := 10

/-- The sync byte of a frame (R172). -/
def sync : Byte := 0xC5#8

end Sys2Proof.Config
end

