-- ==== Sys2Proof/Syntax.lean ====
section
/-! DEFINITION. Syntax.lean: the commands of the part, one constructor for each row of
spec/opcode_table.json, and the names their operands use. -/

namespace Sys2Proof

/-- The three request links (00 section 3). -/
inductive Link where
  | lc | op | sv
  deriving DecidableEq, Repr

/-- The four trains (00 section 2.1). -/
inductive Train where
  | t0 | t1 | t2 | t3
  deriving DecidableEq, Repr

/-- A train's number. -/
def Train.number : Train → Nat
  | .t0 => 0
  | .t1 => 1
  | .t2 => 2
  | .t3 => 3

/-- The trains in order of number. -/
def Train.all : List Train := [.t0, .t1, .t2, .t3]

/-- What a station is (R1). -/
inductive Role where
  | feeder | crusher
  deriving DecidableEq, Repr

/-- A station: station 2t is the feeder of train t and station 2t+1 its crusher (R1). -/
structure Station where
  train : Train
  role : Role
  deriving DecidableEq, Repr

/-- A station's number, 0 to 7 (R1). -/
def Station.number (st : Station) : Nat :=
  match st.role with
  | .feeder => 2 * st.train.number
  | .crusher => 2 * st.train.number + 1

/-- The station a number names; none above 7 (R178). -/
def Station.ofNumber : Nat → Option Station
  | 0 => some ⟨.t0, .feeder⟩
  | 1 => some ⟨.t0, .crusher⟩
  | 2 => some ⟨.t1, .feeder⟩
  | 3 => some ⟨.t1, .crusher⟩
  | 4 => some ⟨.t2, .feeder⟩
  | 5 => some ⟨.t2, .crusher⟩
  | 6 => some ⟨.t3, .feeder⟩
  | 7 => some ⟨.t3, .crusher⟩
  | _ => none

/-- The stations in order of number. -/
def Station.all : List Station :=
  [⟨.t0, .feeder⟩, ⟨.t0, .crusher⟩, ⟨.t1, .feeder⟩, ⟨.t1, .crusher⟩,
   ⟨.t2, .feeder⟩, ⟨.t2, .crusher⟩, ⟨.t3, .feeder⟩, ⟨.t3, .crusher⟩]

/-- One value for each train. -/
structure Quad (α : Type) where
  q0 : α
  q1 : α
  q2 : α
  q3 : α
  deriving DecidableEq, Repr

/-- The value of one train. -/
def Quad.get {α : Type} (q : Quad α) : Train → α
  | .t0 => q.q0
  | .t1 => q.q1
  | .t2 => q.q2
  | .t3 => q.q3

/-- The same values but for one train. -/
def Quad.set {α : Type} (q : Quad α) (t : Train) (v : α) : Quad α :=
  match t with
  | .t0 => { q with q0 := v }
  | .t1 => { q with q1 := v }
  | .t2 => { q with q2 := v }
  | .t3 => { q with q3 := v }

/-- The same value for every train. -/
def Quad.all {α : Type} (v : α) : Quad α := ⟨v, v, v, v⟩

/-- One value of each train, worked out from the train. -/
def Quad.make {α : Type} (f : Train → α) : Quad α := ⟨f .t0, f .t1, f .t2, f .t3⟩

/-- Each train's value changed by a function. -/
def Quad.map {α β : Type} (f : α → β) (q : Quad α) : Quad β := ⟨f q.q0, f q.q1, f q.q2, f q.q3⟩

/-- The ten debounced digital inputs; the E-stop loop is the eleventh and has steps of its own (R49). -/
inductive DigitalInput where
  | running (t : Train)
  | reliefSwitch (t : Train)
  | surgeConveyor
  | productConveyor
  deriving DecidableEq, Repr

/-- The raw levels found at one millisecond boundary, true for energized (R49, R52). -/
structure Samples where
  running : Quad Bool
  reliefSwitch : Quad Bool
  surgeConveyor : Bool
  productConveyor : Bool
  estopLoop : Bool
  deriving DecidableEq, Repr

/-- The sampled level of an input. -/
def Samples.level (x : Samples) : DigitalInput → Bool
  | .running t => x.running.get t
  | .reliefSwitch t => x.reliefSwitch.get t
  | .surgeConveyor => x.surgeConveyor
  | .productConveyor => x.productConveyor

/-- An analog loop at an arrival: below 4 mA, converted to a raw reading, or above 20 mA (R51; log 19). -/
inductive LoopReading where
  | below
  | raw (r : BitVec 12)
  | above
  deriving DecidableEq, Repr

/-- The commands, one for each row of spec/opcode_table.json. A request carries its link, the tag of its
frame and the fields of its body as the frame carries them (R179). -/
inductive Instr where
  | powerOn
  | restartStart
  | millisecondBoundary (samples : Samples)
  | secondBoundary
  | keepLapse (st : Station)
  | waitExpiry (slot : Fin 24)
  | digitalChange (input : DigitalInput)
  | estopAssert
  | estopRelease
  | positionArrival (t : Train) (reading : Option (BitVec 16))
  | recoveryExpiry (t : Train)
  | pressureArrival (t : Train) (loop : LoopReading)
  | powerArrival (t : Train) (loop : LoopReading)
  | surgeLevelArrival (loop : LoopReading)
  | overloadDelayExpiry (t : Train)
  | clearingExpiry (t : Train)
  | sampleExpiry (t : Train)
  | drainExpiry (t : Train)
  | deadTimeExpiry (t : Train)
  | moveTimerExpiry (t : Train)
  | jogTimeEnd (t : Train)
  | dwellExpiry
  | timeLimitExpiry
  | wearStep (t : Train)
  | updateExpiry (t : Train)
  | storeWriteComplete (success : Bool)
  | linkByteReceived (l : Link) (b : Byte)
  | interByteGap (l : Link)
  | replySent (l : Link)
  | setGap (l : Link) (tag station : Byte) (value : Half) (priority : Byte) (keep wait : Half)
  | setRate (l : Link) (tag station : Byte) (value : Half) (priority : Byte) (keep wait : Half)
  | withdraw (l : Link) (tag station : Byte)
  | setMode (l : Link) (tag station mode : Byte)
  | setParameter (l : Link) (tag set number : Byte) (value : Half)
  | jog (l : Link) (tag station direction : Byte) (duty duration : Half)
  | startZero (l : Link) (tag station : Byte)
  | abortZero (l : Link) (tag station : Byte)
  | acknowledge (l : Link) (tag code subject : Byte)
  | acknowledgeAll (l : Link) (tag : Byte)
  | saveProfile (l : Link) (tag : Byte)
  | restart (l : Link) (tag : Byte)
  | setClock (l : Link) (tag : Byte) (value : Word)
  | clearLock (l : Link) (tag : Byte)
  | readStation (l : Link) (tag station : Byte)
  | readWaiting (l : Link) (tag : Byte)
  | readConditions (l : Link) (tag : Byte)
  | readParameter (l : Link) (tag set number : Byte)
  | readZeroRecord (l : Link) (tag station : Byte)
  | readClock (l : Link) (tag : Byte)
  | lossOfPower
  deriving DecidableEq, Repr

end Sys2Proof
end

