-- ==== Sys2Proof/WellFormed.lean ====
section
/-! DEFINITION. WellFormed.lean: the field checks that the Link Interface makes on a request (R175 check 4,
with R30, R87, R153 and R178). A field that names no defined value makes the request FORMAT. Commands
that are not requests carry no field that could be ill-formed: their types hold the defined values alone. -/

namespace Sys2Proof

/-- The subject byte of ACKNOWLEDGE names a station, a link, a section or none (R178). -/
def subjectDefined (b : Byte) : Bool :=
  b.toNat ≤ 0x3F || (0x40 ≤ b.toNat && b.toNat ≤ 0x42) || (0x80 ≤ b.toNat && b.toNat ≤ 0x82) ||
    b.toNat = 0xFF

/-- Priority at most 15 and wait at most 3600 (R30). -/
def settingFieldsOk (priority : Byte) (wait : Half) : Bool := priority.toNat ≤ 15 && wait.toNat ≤ 3600

/-- The mode byte is RUN 0, MAINTENANCE 1 or OUT_OF_SERVICE 2 (R178). -/
def modeFieldOk (mode : Byte) : Bool := mode.toNat ≤ 2

/-- The direction is OPEN 1 or CLOSE 2 and the duration 1 to 10,000 ms (R87). -/
def jogFieldsOk (direction : Byte) (duration : Half) : Bool :=
  (direction.toNat = 1 || direction.toNat = 2) && 1 ≤ duration.toNat && duration.toNat ≤ 10000

/-- The code is 1 to 17 and the subject is a coded one (R153, R178). -/
def acknowledgeFieldsOk (code subject : Byte) : Bool :=
  1 ≤ code.toNat && code.toNat ≤ 17 && subjectDefined subject

/-- Every coded field of the command names a defined value (R175 check 4). -/
def wellFormed : Instr → Bool
  | .setGap _ _ _ _ priority _ wait => settingFieldsOk priority wait
  | .setRate _ _ _ _ priority _ wait => settingFieldsOk priority wait
  | .setMode _ _ _ mode => modeFieldOk mode
  | .jog _ _ _ direction _ duration => jogFieldsOk direction duration
  | .acknowledge _ _ code subject => acknowledgeFieldsOk code subject
  | .powerOn | .restartStart | .millisecondBoundary _ | .secondBoundary | .keepLapse _ | .waitExpiry _
  | .digitalChange _ | .estopAssert | .estopRelease | .positionArrival _ _ | .recoveryExpiry _
  | .pressureArrival _ _ | .powerArrival _ _ | .surgeLevelArrival _ | .overloadDelayExpiry _
  | .clearingExpiry _ | .sampleExpiry _ | .drainExpiry _ | .deadTimeExpiry _ | .moveTimerExpiry _
  | .jogTimeEnd _ | .dwellExpiry | .timeLimitExpiry | .wearStep _ | .updateExpiry _
  | .storeWriteComplete _ | .linkByteReceived _ _ | .interByteGap _ | .replySent _ | .withdraw _ _ _
  | .setParameter _ _ _ _ _ | .startZero _ _ _ | .abortZero _ _ _ | .acknowledgeAll _ _
  | .saveProfile _ _ | .restart _ _ | .setClock _ _ _ | .clearLock _ _ | .readStation _ _ _
  | .readWaiting _ _ | .readConditions _ _ | .readParameter _ _ _ _ | .readZeroRecord _ _ _
  | .readClock _ _ | .lossOfPower => true

end Sys2Proof
end

