-- ==== Sys2Proof/Decode.lean ====
section
/-! DEFINITION. Decode.lean: the table gives its rows no bits, so decodeTableWord reads none. Below it stand
the frames of the links (R172): their CRC, the request kinds and lengths of R174, the reading of a request
from a frame's kind and body (R179), and an encoder written from the same tables. -/

namespace Sys2Proof

/-- The command a word of the opcode table spells. No row of spec/opcode_table.json has bits, so no word
spells one. -/
def decodeTableWord (_nbits _w : Nat) : Option Instr := none

/-- The request kinds (R174). -/
inductive Kind where
  | setGap | setRate | withdraw | setMode | setParameter | jog | startZero | abortZero | acknowledge
  | acknowledgeAll | saveProfile | restart | setClock | clearLock | readStation | readWaiting
  | readConditions | readParameter | readZeroRecord | readClock
  deriving DecidableEq, Repr

/-- The code of a kind (R174). -/
def Kind.code : Kind → Byte
  | .setGap => 0x01#8
  | .setRate => 0x02#8
  | .withdraw => 0x03#8
  | .setMode => 0x04#8
  | .setParameter => 0x05#8
  | .jog => 0x06#8
  | .startZero => 0x07#8
  | .abortZero => 0x08#8
  | .acknowledge => 0x09#8
  | .acknowledgeAll => 0x0A#8
  | .saveProfile => 0x0B#8
  | .restart => 0x0C#8
  | .setClock => 0x0D#8
  | .clearLock => 0x0E#8
  | .readStation => 0x10#8
  | .readWaiting => 0x11#8
  | .readConditions => 0x12#8
  | .readParameter => 0x13#8
  | .readZeroRecord => 0x14#8
  | .readClock => 0x15#8

/-- The length of a request's body (R174). -/
def Kind.bodyLength : Kind → Nat
  | .setGap | .setRate => 8
  | .jog => 6
  | .setParameter | .setClock => 4
  | .setMode | .acknowledge | .readParameter => 2
  | .withdraw | .startZero | .abortZero | .readStation | .readZeroRecord => 1
  | .acknowledgeAll | .saveProfile | .restart | .clearLock | .readWaiting | .readConditions | .readClock => 0

/-- The kinds 10h to 15h are the reads (R174). -/
def Kind.isRead : Kind → Bool
  | .readStation | .readWaiting | .readConditions | .readParameter | .readZeroRecord | .readClock => true
  | .setGap | .setRate | .withdraw | .setMode | .setParameter | .jog | .startZero | .abortZero
  | .acknowledge | .acknowledgeAll | .saveProfile | .restart | .setClock | .clearLock => false

/-- Whether a link's role allows a kind (the table of R174). -/
def Kind.allowed (k : Kind) (l : Link) : Bool :=
  match k, l with
  | .setMode, .lc | .acknowledge, .lc | .acknowledgeAll, .lc => false
  | .setParameter, .sv | .jog, .sv | .startZero, .sv | .abortZero, .sv | .saveProfile, .sv | .restart, .sv => true
  | .setParameter, _ | .jog, _ | .startZero, _ | .abortZero, _ | .saveProfile, _ | .restart, _ => false
  | .setClock, .lc => true
  | .setClock, _ => false
  | _, _ => true

/-- One bit of the CRC: generator 1021h, most significant bit first (R172). -/
def crcShift (c : BitVec 16) : BitVec 16 := if c.msb then (c <<< 1) ^^^ 0x1021#16 else c <<< 1

/-- One byte of the CRC (R172). -/
def crcByte (c : BitVec 16) (b : Byte) : BitVec 16 :=
  let c := c ^^^ (b.setWidth 16 <<< 8)
  crcShift (crcShift (crcShift (crcShift (crcShift (crcShift (crcShift (crcShift c)))))))

/-- CRC-16 with starting value FFFFh, no reflection and no final inversion (R172). -/
def crc16 (bytes : List Byte) : BitVec 16 := bytes.foldl crcByte 0xFFFF#16

/-- Bytes 1 to n + 1 of a frame: length, tag, kind and body (R172). -/
def frameCore (tag kind : Byte) (body : List Byte) : List Byte :=
  byteOf (body.length + 2) :: tag :: kind :: body

/-- A whole frame: sync, length, tag, kind, body and the CRC over bytes 1 to n + 1 (R172). -/
def frameOf (tag kind : Byte) (body : List Byte) : List Byte :=
  Config.sync :: (frameCore tag kind body ++ halfBytes (crc16 (frameCore tag kind body)))

/-- The kinds in the order of their codes (R174). -/
def Kind.all : List Kind :=
  [.setGap, .setRate, .withdraw, .setMode, .setParameter, .jog, .startZero, .abortZero, .acknowledge,
   .acknowledgeAll, .saveProfile, .restart, .setClock, .clearLock, .readStation, .readWaiting,
   .readConditions, .readParameter, .readZeroRecord, .readClock]

/-- The kind a kind byte names; none where it is not in the table (R174). -/
def Kind.ofCode (b : Byte) : Option Kind := Kind.all.find? fun k => k.code = b

/-- The fields of a body, read for its kind (R179); none where its length is wrong for the kind (R174). No rule gives
the order of the two bytes of SET MODE: station first, then mode, is the model's choice (log 29). -/
def Kind.read (k : Kind) (l : Link) (tag : Byte) (body : List Byte) : Option Instr :=
  match k with
  | .setGap =>
    match body with
    | [st, v1, v0, p, k1, k0, w1, w0] =>
      some (.setGap l tag st (halfOf v1 v0) p (halfOf k1 k0) (halfOf w1 w0))
    | _ => none
  | .setRate =>
    match body with
    | [st, v1, v0, p, k1, k0, w1, w0] =>
      some (.setRate l tag st (halfOf v1 v0) p (halfOf k1 k0) (halfOf w1 w0))
    | _ => none
  | .jog =>
    match body with
    | [st, d, u1, u0, r1, r0] => some (.jog l tag st d (halfOf u1 u0) (halfOf r1 r0))
    | _ => none
  | .setParameter =>
    match body with
    | [set, n, v1, v0] => some (.setParameter l tag set n (halfOf v1 v0))
    | _ => none
  | .setClock =>
    match body with
    | [a, b, c, d] => some (.setClock l tag (wordOf a b c d))
    | _ => none
  | .setMode =>
    match body with
    | [st, m] => some (.setMode l tag st m)
    | _ => none
  | .acknowledge =>
    match body with
    | [c, sub] => some (.acknowledge l tag c sub)
    | _ => none
  | .readParameter =>
    match body with
    | [set, n] => some (.readParameter l tag set n)
    | _ => none
  | .withdraw =>
    match body with
    | [st] => some (.withdraw l tag st)
    | _ => none
  | .startZero =>
    match body with
    | [st] => some (.startZero l tag st)
    | _ => none
  | .abortZero =>
    match body with
    | [st] => some (.abortZero l tag st)
    | _ => none
  | .readStation =>
    match body with
    | [st] => some (.readStation l tag st)
    | _ => none
  | .readZeroRecord =>
    match body with
    | [st] => some (.readZeroRecord l tag st)
    | _ => none
  | .acknowledgeAll =>
    match body with
    | [] => some (.acknowledgeAll l tag)
    | _ => none
  | .saveProfile =>
    match body with
    | [] => some (.saveProfile l tag)
    | _ => none
  | .restart =>
    match body with
    | [] => some (.restart l tag)
    | _ => none
  | .clearLock =>
    match body with
    | [] => some (.clearLock l tag)
    | _ => none
  | .readWaiting =>
    match body with
    | [] => some (.readWaiting l tag)
    | _ => none
  | .readConditions =>
    match body with
    | [] => some (.readConditions l tag)
    | _ => none
  | .readClock =>
    match body with
    | [] => some (.readClock l tag)
    | _ => none

/-- The request of a frame with this kind byte and body; none where the kind is unknown or the body
length wrong for it, which R174 refuses FORMAT. -/
def decodeRequest (l : Link) (tag kind : Byte) (body : List Byte) : Option Instr :=
  match Kind.ofCode kind with
  | none => none
  | some k => k.read l tag body

/-- A request as a frame carries it. -/
structure RequestFrame where
  link : Link
  tag : Byte
  kind : Kind
  body : List Byte
  deriving DecidableEq, Repr

/-- The frame of a request command (R179); none for a command that is no request. -/
def encodeRequest : Instr → Option RequestFrame
  | .setGap l tag st v p k w =>
    some ⟨l, tag, .setGap, st :: (halfBytes v ++ p :: (halfBytes k ++ halfBytes w))⟩
  | .setRate l tag st v p k w =>
    some ⟨l, tag, .setRate, st :: (halfBytes v ++ p :: (halfBytes k ++ halfBytes w))⟩
  | .withdraw l tag st => some ⟨l, tag, .withdraw, [st]⟩
  | .setMode l tag st m => some ⟨l, tag, .setMode, [st, m]⟩
  | .setParameter l tag set n v => some ⟨l, tag, .setParameter, set :: n :: halfBytes v⟩
  | .jog l tag st d u r => some ⟨l, tag, .jog, st :: d :: (halfBytes u ++ halfBytes r)⟩
  | .startZero l tag st => some ⟨l, tag, .startZero, [st]⟩
  | .abortZero l tag st => some ⟨l, tag, .abortZero, [st]⟩
  | .acknowledge l tag c sub => some ⟨l, tag, .acknowledge, [c, sub]⟩
  | .acknowledgeAll l tag => some ⟨l, tag, .acknowledgeAll, []⟩
  | .saveProfile l tag => some ⟨l, tag, .saveProfile, []⟩
  | .restart l tag => some ⟨l, tag, .restart, []⟩
  | .setClock l tag v => some ⟨l, tag, .setClock, wordBytes v⟩
  | .clearLock l tag => some ⟨l, tag, .clearLock, []⟩
  | .readStation l tag st => some ⟨l, tag, .readStation, [st]⟩
  | .readWaiting l tag => some ⟨l, tag, .readWaiting, []⟩
  | .readConditions l tag => some ⟨l, tag, .readConditions, []⟩
  | .readParameter l tag set n => some ⟨l, tag, .readParameter, [set, n]⟩
  | .readZeroRecord l tag st => some ⟨l, tag, .readZeroRecord, [st]⟩
  | .readClock l tag => some ⟨l, tag, .readClock, []⟩
  | .powerOn | .restartStart | .millisecondBoundary _ | .secondBoundary | .keepLapse _ | .waitExpiry _
  | .digitalChange _ | .estopAssert | .estopRelease | .positionArrival _ _ | .recoveryExpiry _
  | .pressureArrival _ _ | .powerArrival _ _ | .surgeLevelArrival _ | .overloadDelayExpiry _
  | .clearingExpiry _ | .sampleExpiry _ | .drainExpiry _ | .deadTimeExpiry _ | .moveTimerExpiry _
  | .jogTimeEnd _ | .dwellExpiry | .timeLimitExpiry | .wearStep _ | .updateExpiry _
  | .storeWriteComplete _ | .linkByteReceived _ _ | .interByteGap _ | .replySent _ | .lossOfPower => none

/-- The bytes of a request's whole frame (R172). -/
def RequestFrame.bytes (f : RequestFrame) : List Byte := frameOf f.tag f.kind.code f.body

end Sys2Proof
end

