-- ==== Sys2Proof/Machine/Params.lean ====
section
/-! DEFINITION. Machine/Params.lean: the parameter sets of R14 to R17, their ranges, defaults and codes, and
the two clampings of R19. -/

namespace Sys2Proof.Machine

/-- Named values NORMAL and INVERTED (R178). -/
inductive Polarity where
  | normal | inverted
  deriving DecidableEq, Repr

/-- Named values ANALOG and SWITCH (R178). -/
inductive ReliefSource where
  | analog | switch
  deriving DecidableEq, Repr

/-- Named values RUN and MAINTENANCE of START_MODE (R178). -/
inductive StartMode where
  | run | maintenance
  deriving DecidableEq, Repr

/-- A subset of the links LC, OP and SV, the value of AUTHORITY. -/
structure LinkSet where
  lc : Bool
  op : Bool
  sv : Bool
  deriving DecidableEq, Repr

/-- Every link. -/
def LinkSet.all : LinkSet := ⟨true, true, true⟩

/-- Whether a link is in the set. -/
def LinkSet.has (a : LinkSet) : Link → Bool
  | .lc => a.lc
  | .op => a.op
  | .sv => a.sv

/-- NO as 0 and YES as 1 (R178). -/
def boolCode (b : Bool) : Nat := if b then 1 else 0

/-- The named value of a code 0 or 1 (R178). -/
def boolOf (v : Nat) : Bool := v = 1

/-- NORMAL as 0 and INVERTED as 1 (R178). -/
def Polarity.code : Polarity → Nat
  | .normal => 0
  | .inverted => 1

/-- The polarity of a code (R178). -/
def Polarity.ofCode (v : Nat) : Polarity := if v = 1 then .inverted else .normal

/-- ANALOG as 0 and SWITCH as 1 (R178). -/
def ReliefSource.code : ReliefSource → Nat
  | .analog => 0
  | .switch => 1

/-- The source of a code (R178). -/
def ReliefSource.ofCode (v : Nat) : ReliefSource := if v = 1 then .switch else .analog

/-- RUN as 0 and MAINTENANCE as 1 (R178). -/
def StartMode.code : StartMode → Nat
  | .run => 0
  | .maintenance => 1

/-- The start mode of a code (R178). -/
def StartMode.ofCode (v : Nat) : StartMode := if v = 1 then .maintenance else .run

/-- A link set as bits 0 LC, 1 OP, 2 SV (R178). -/
def LinkSet.code (a : LinkSet) : Nat := boolCode a.lc + 2 * boolCode a.op + 4 * boolCode a.sv

/-- The link set of a code (R178). -/
def LinkSet.ofCode (v : Nat) : LinkSet := ⟨v.testBit 0, v.testBit 1, v.testBit 2⟩

/-- A train set as bits 0 to 3 (R178). -/
def trainSetCode (q : Quad Bool) : Nat :=
  boolCode q.q0 + 2 * boolCode q.q1 + 4 * boolCode q.q2 + 8 * boolCode q.q3

/-- The train set of a code (R178). -/
def trainSetOf (v : Nat) : Quad Bool := ⟨v.testBit 0, v.testBit 1, v.testBit 2, v.testBit 3⟩

/-- What a parameter may hold: a number in a range, or one of so many named values (R18 check 3). -/
inductive ParamRange where
  | numeric (lo hi : Nat)
  | named (count : Nat)
  deriving DecidableEq, Repr

/-- Whether a value names a defined value, for a parameter of named values (R18 check 3). -/
def ParamRange.defined : ParamRange → Nat → Bool
  | .numeric _ _, _ => true
  | .named count, v => v < count

/-- The parameters of a crusher station (R15). -/
structure CrusherParams where
  /-- no. 1 GAP_MIN -/
  gapMin : Nat
  /-- no. 2 GAP_MAX -/
  gapMax : Nat
  /-- no. 3 GAIN -/
  gain : Nat
  /-- no. 4 POS_LOW -/
  posLow : Nat
  /-- no. 5 POS_HIGH -/
  posHigh : Nat
  /-- no. 6 DEADBAND -/
  deadband : Nat
  /-- no. 7 KP -/
  kp : Nat
  /-- no. 8 DUTY_MIN -/
  dutyMin : Nat
  /-- no. 9 DUTY_MAX -/
  dutyMax : Nat
  /-- no. 10 DEAD_TIME -/
  deadTime : Nat
  /-- no. 11 SAMPLE_INTERVAL -/
  sampleInterval : Nat
  /-- no. 12 MOVE_LIMIT -/
  moveLimit : Nat
  /-- no. 13 LOAD_ADJUST -/
  loadAdjust : Bool
  /-- no. 14 DRAIN_TIME -/
  drainTime : Nat
  /-- no. 15 WEAR_RATE -/
  wearRate : Nat
  /-- no. 16 WEAR_LIMIT -/
  wearLimit : Nat
  /-- no. 17 LOADED_POWER -/
  loadedPower : Nat
  /-- no. 18 EMPTY_POWER -/
  emptyPower : Nat
  /-- no. 19 POWER_SPAN -/
  powerSpan : Nat
  /-- no. 20 PRESSURE_SPAN -/
  pressureSpan : Nat
  /-- no. 21 RELIEF_SOURCE -/
  reliefSource : ReliefSource
  /-- no. 22 SWITCH_INVERT -/
  switchInvert : Bool
  /-- no. 23 RELIEF_LEVEL -/
  reliefLevel : Nat
  /-- no. 24 RELIEF_HYST -/
  reliefHyst : Nat
  /-- no. 25 CLEARING_TIME -/
  clearingTime : Nat
  /-- no. 26 RELIEF_COUNT -/
  reliefCount : Nat
  /-- no. 27 RELIEF_WINDOW -/
  reliefWindow : Nat
  /-- no. 28 CONTACT_LEVEL -/
  contactLevel : Nat
  /-- no. 29 CONTACT_DWELL -/
  contactDwell : Nat
  /-- no. 30 CREEP_DUTY -/
  creepDuty : Nat
  /-- no. 31 BACKOFF -/
  backoff : Nat
  /-- no. 32 ZERO_SHIFT_MAX -/
  zeroShiftMax : Nat
  /-- no. 33 ZERO_TIME_LIMIT -/
  zeroTimeLimit : Nat
  /-- no. 34 RESUME_LEVEL -/
  resumeLevel : Nat
  /-- no. 35 OVERLOAD_LEVEL -/
  overloadLevel : Nat
  /-- no. 36 TRIP_LEVEL -/
  tripLevel : Nat
  /-- no. 37 OVERLOAD_DELAY -/
  overloadDelay : Nat
  /-- no. 38 OPEN_POLARITY -/
  openPolarity : Polarity
  /-- no. 39 CLOSE_POLARITY -/
  closePolarity : Polarity
  /-- no. 40 AUTHORITY -/
  authority : LinkSet
  /-- no. 41 START_MODE -/
  startMode : StartMode
  deriving DecidableEq, Repr

/-- The parameters of the set by name, in the order of their numbers (R15). -/
inductive CrusherParam where
  | gapMin | gapMax | gain | posLow | posHigh | deadband | kp | dutyMin | dutyMax | deadTime
  | sampleInterval | moveLimit | loadAdjust | drainTime | wearRate | wearLimit | loadedPower
  | emptyPower | powerSpan | pressureSpan | reliefSource | switchInvert | reliefLevel | reliefHyst
  | clearingTime | reliefCount | reliefWindow | contactLevel | contactDwell | creepDuty | backoff
  | zeroShiftMax | zeroTimeLimit | resumeLevel | overloadLevel | tripLevel | overloadDelay
  | openPolarity | closePolarity | authority | startMode
  deriving DecidableEq, Repr

/-- The parameters in the order of their numbers (R15). -/
def CrusherParam.all : List CrusherParam :=
  [.gapMin, .gapMax, .gain, .posLow, .posHigh, .deadband, .kp, .dutyMin, .dutyMax, .deadTime,
   .sampleInterval, .moveLimit, .loadAdjust, .drainTime, .wearRate, .wearLimit, .loadedPower,
   .emptyPower, .powerSpan, .pressureSpan, .reliefSource, .switchInvert, .reliefLevel,
   .reliefHyst, .clearingTime, .reliefCount, .reliefWindow, .contactLevel, .contactDwell,
   .creepDuty, .backoff, .zeroShiftMax, .zeroTimeLimit, .resumeLevel, .overloadLevel, .tripLevel,
   .overloadDelay, .openPolarity, .closePolarity, .authority, .startMode]

/-- The parameter a number names; none where the number is not defined in the set (R18 check 2). -/
def CrusherParam.ofNumber (n : Nat) : Option CrusherParam := if n = 0 then none else CrusherParam.all[n - 1]?

/-- The range of a parameter, or how many named values it has (R15). -/
def CrusherParam.range : CrusherParam → ParamRange
  | .gapMin => .numeric 0 3000
  | .gapMax => .numeric 0 3000
  | .gain => .numeric 1 4095
  | .posLow => .numeric 0 65535
  | .posHigh => .numeric 0 65535
  | .deadband => .numeric 2 50
  | .kp => .numeric 1 255
  | .dutyMin => .numeric 0 1000
  | .dutyMax => .numeric 0 1000
  | .deadTime => .numeric 1 250
  | .sampleInterval => .numeric 10 250
  | .moveLimit => .numeric 5 900
  | .loadAdjust => .named 2
  | .drainTime => .numeric 0 120
  | .wearRate => .numeric 0 255
  | .wearLimit => .numeric 0 655
  | .loadedPower => .numeric 0 2000
  | .emptyPower => .numeric 0 2000
  | .powerSpan => .numeric 50 2000
  | .pressureSpan => .numeric 100 6000
  | .reliefSource => .named 2
  | .switchInvert => .named 2
  | .reliefLevel => .numeric 0 6000
  | .reliefHyst => .numeric 0 1000
  | .clearingTime => .numeric 1 120
  | .reliefCount => .numeric 1 4
  | .reliefWindow => .numeric 10 3600
  | .contactLevel => .numeric 0 6000
  | .contactDwell => .numeric 20 2000
  | .creepDuty => .numeric 50 400
  | .backoff => .numeric 10 500
  | .zeroShiftMax => .numeric 0 20000
  | .zeroTimeLimit => .numeric 10 600
  | .resumeLevel => .numeric 0 2000
  | .overloadLevel => .numeric 0 2000
  | .tripLevel => .numeric 0 2000
  | .overloadDelay => .numeric 500 30000
  | .openPolarity => .named 2
  | .closePolarity => .named 2
  | .authority => .named 8
  | .startMode => .named 2

/-- A parameter's value as the links code it (R178). -/
def CrusherParams.get (p : CrusherParams) : CrusherParam → Nat
  | .gapMin => p.gapMin
  | .gapMax => p.gapMax
  | .gain => p.gain
  | .posLow => p.posLow
  | .posHigh => p.posHigh
  | .deadband => p.deadband
  | .kp => p.kp
  | .dutyMin => p.dutyMin
  | .dutyMax => p.dutyMax
  | .deadTime => p.deadTime
  | .sampleInterval => p.sampleInterval
  | .moveLimit => p.moveLimit
  | .loadAdjust => boolCode p.loadAdjust
  | .drainTime => p.drainTime
  | .wearRate => p.wearRate
  | .wearLimit => p.wearLimit
  | .loadedPower => p.loadedPower
  | .emptyPower => p.emptyPower
  | .powerSpan => p.powerSpan
  | .pressureSpan => p.pressureSpan
  | .reliefSource => p.reliefSource.code
  | .switchInvert => boolCode p.switchInvert
  | .reliefLevel => p.reliefLevel
  | .reliefHyst => p.reliefHyst
  | .clearingTime => p.clearingTime
  | .reliefCount => p.reliefCount
  | .reliefWindow => p.reliefWindow
  | .contactLevel => p.contactLevel
  | .contactDwell => p.contactDwell
  | .creepDuty => p.creepDuty
  | .backoff => p.backoff
  | .zeroShiftMax => p.zeroShiftMax
  | .zeroTimeLimit => p.zeroTimeLimit
  | .resumeLevel => p.resumeLevel
  | .overloadLevel => p.overloadLevel
  | .tripLevel => p.tripLevel
  | .overloadDelay => p.overloadDelay
  | .openPolarity => p.openPolarity.code
  | .closePolarity => p.closePolarity.code
  | .authority => p.authority.code
  | .startMode => p.startMode.code

/-- The set with one parameter at a coded value. -/
def CrusherParams.put (p : CrusherParams) (n : CrusherParam) (v : Nat) : CrusherParams :=
  match n with
  | .gapMin => { p with gapMin := v }
  | .gapMax => { p with gapMax := v }
  | .gain => { p with gain := v }
  | .posLow => { p with posLow := v }
  | .posHigh => { p with posHigh := v }
  | .deadband => { p with deadband := v }
  | .kp => { p with kp := v }
  | .dutyMin => { p with dutyMin := v }
  | .dutyMax => { p with dutyMax := v }
  | .deadTime => { p with deadTime := v }
  | .sampleInterval => { p with sampleInterval := v }
  | .moveLimit => { p with moveLimit := v }
  | .loadAdjust => { p with loadAdjust := boolOf v }
  | .drainTime => { p with drainTime := v }
  | .wearRate => { p with wearRate := v }
  | .wearLimit => { p with wearLimit := v }
  | .loadedPower => { p with loadedPower := v }
  | .emptyPower => { p with emptyPower := v }
  | .powerSpan => { p with powerSpan := v }
  | .pressureSpan => { p with pressureSpan := v }
  | .reliefSource => { p with reliefSource := ReliefSource.ofCode v }
  | .switchInvert => { p with switchInvert := boolOf v }
  | .reliefLevel => { p with reliefLevel := v }
  | .reliefHyst => { p with reliefHyst := v }
  | .clearingTime => { p with clearingTime := v }
  | .reliefCount => { p with reliefCount := v }
  | .reliefWindow => { p with reliefWindow := v }
  | .contactLevel => { p with contactLevel := v }
  | .contactDwell => { p with contactDwell := v }
  | .creepDuty => { p with creepDuty := v }
  | .backoff => { p with backoff := v }
  | .zeroShiftMax => { p with zeroShiftMax := v }
  | .zeroTimeLimit => { p with zeroTimeLimit := v }
  | .resumeLevel => { p with resumeLevel := v }
  | .overloadLevel => { p with overloadLevel := v }
  | .tripLevel => { p with tripLevel := v }
  | .overloadDelay => { p with overloadDelay := v }
  | .openPolarity => { p with openPolarity := Polarity.ofCode v }
  | .closePolarity => { p with closePolarity := Polarity.ofCode v }
  | .authority => { p with authority := LinkSet.ofCode v }
  | .startMode => { p with startMode := StartMode.ofCode v }

/-- The defaults of R15: the first column for the JAW, the second for a CONE. -/
def CrusherParams.defaults (first : Bool) : CrusherParams where
  gapMin := if first then 900 else 100
  gapMax := if first then 2200 else 450
  gain := if first then 102 else 420
  posLow := 1000
  posHigh := 64000
  deadband := if first then 20 else 6
  kp := 160
  dutyMin := 150
  dutyMax := 700
  deadTime := 40
  sampleInterval := 50
  moveLimit := if first then 240 else 90
  loadAdjust := if first then false else true
  drainTime := 20
  wearRate := if first then 6 else 4
  wearLimit := if first then 300 else 120
  loadedPower := if first then 60 else 40
  emptyPower := if first then 45 else 30
  powerSpan := if first then 250 else 400
  pressureSpan := 4000
  reliefSource := .analog
  switchInvert := false
  reliefLevel := 2800
  reliefHyst := 300
  clearingTime := 15
  reliefCount := 3
  reliefWindow := 600
  contactLevel := 900
  contactDwell := 200
  creepDuty := 120
  backoff := 150
  zeroShiftMax := 800
  zeroTimeLimit := 180
  resumeLevel := if first then 170 else 280
  overloadLevel := if first then 200 else 320
  tripLevel := if first then 240 else 380
  overloadDelay := 3000
  openPolarity := .normal
  closePolarity := .normal
  authority := .all
  startMode := .run

/-- The parameters of a feeder station (R16). -/
structure FeederParams where
  /-- no. 1 RATE_MIN -/
  rateMin : Nat
  /-- no. 2 RATE_MAX -/
  rateMax : Nat
  /-- no. 3 UPDATE_INTERVAL -/
  updateInterval : Nat
  /-- no. 4 RAMP_UP -/
  rampUp : Nat
  /-- no. 5 RAMP_DOWN -/
  rampDown : Nat
  /-- no. 6 LOAD_TARGET -/
  loadTarget : Nat
  /-- no. 7 LOAD_BAND -/
  loadBand : Nat
  /-- no. 8 TRIM_UP -/
  trimUp : Nat
  /-- no. 9 TRIM_DOWN -/
  trimDown : Nat
  /-- no. 10 TRIM_LIMIT -/
  trimLimit : Nat
  /-- no. 11 SLOW_RATE -/
  slowRate : Nat
  /-- no. 12 OUTPUT_POLARITY -/
  outputPolarity : Polarity
  /-- no. 13 AUTHORITY -/
  authority : LinkSet
  /-- no. 14 START_MODE -/
  startMode : StartMode
  deriving DecidableEq, Repr

/-- The parameters of the set by name, in the order of their numbers (R16). -/
inductive FeederParam where
  | rateMin | rateMax | updateInterval | rampUp | rampDown | loadTarget | loadBand | trimUp
  | trimDown | trimLimit | slowRate | outputPolarity | authority | startMode
  deriving DecidableEq, Repr

/-- The parameters in the order of their numbers (R16). -/
def FeederParam.all : List FeederParam :=
  [.rateMin, .rateMax, .updateInterval, .rampUp, .rampDown, .loadTarget, .loadBand, .trimUp,
   .trimDown, .trimLimit, .slowRate, .outputPolarity, .authority, .startMode]

/-- The parameter a number names; none where the number is not defined in the set (R18 check 2). -/
def FeederParam.ofNumber (n : Nat) : Option FeederParam := if n = 0 then none else FeederParam.all[n - 1]?

/-- The range of a parameter, or how many named values it has (R16). -/
def FeederParam.range : FeederParam → ParamRange
  | .rateMin => .numeric 0 1000
  | .rateMax => .numeric 0 1000
  | .updateInterval => .numeric 100 2000
  | .rampUp => .numeric 1 1000
  | .rampDown => .numeric 1 1000
  | .loadTarget => .numeric 0 2000
  | .loadBand => .numeric 0 200
  | .trimUp => .numeric 0 100
  | .trimDown => .numeric 0 100
  | .trimLimit => .numeric 0 500
  | .slowRate => .numeric 0 1000
  | .outputPolarity => .named 2
  | .authority => .named 8
  | .startMode => .named 2

/-- A parameter's value as the links code it (R178). -/
def FeederParams.get (p : FeederParams) : FeederParam → Nat
  | .rateMin => p.rateMin
  | .rateMax => p.rateMax
  | .updateInterval => p.updateInterval
  | .rampUp => p.rampUp
  | .rampDown => p.rampDown
  | .loadTarget => p.loadTarget
  | .loadBand => p.loadBand
  | .trimUp => p.trimUp
  | .trimDown => p.trimDown
  | .trimLimit => p.trimLimit
  | .slowRate => p.slowRate
  | .outputPolarity => p.outputPolarity.code
  | .authority => p.authority.code
  | .startMode => p.startMode.code

/-- The set with one parameter at a coded value. -/
def FeederParams.put (p : FeederParams) (n : FeederParam) (v : Nat) : FeederParams :=
  match n with
  | .rateMin => { p with rateMin := v }
  | .rateMax => { p with rateMax := v }
  | .updateInterval => { p with updateInterval := v }
  | .rampUp => { p with rampUp := v }
  | .rampDown => { p with rampDown := v }
  | .loadTarget => { p with loadTarget := v }
  | .loadBand => { p with loadBand := v }
  | .trimUp => { p with trimUp := v }
  | .trimDown => { p with trimDown := v }
  | .trimLimit => { p with trimLimit := v }
  | .slowRate => { p with slowRate := v }
  | .outputPolarity => { p with outputPolarity := Polarity.ofCode v }
  | .authority => { p with authority := LinkSet.ofCode v }
  | .startMode => { p with startMode := StartMode.ofCode v }

/-- The defaults of R16: the first column for train 0, the second for a secondary feeder. -/
def FeederParams.defaults (first : Bool) : FeederParams where
  rateMin := 200
  rateMax := 1000
  updateInterval := 500
  rampUp := 20
  rampDown := 50
  loadTarget := if first then 180 else 300
  loadBand := 10
  trimUp := 5
  trimDown := 15
  trimLimit := 200
  slowRate := 300
  outputPolarity := .normal
  authority := .all
  startMode := .run

/-- The line parameter set (R17). -/
structure LineParams where
  /-- no. 1 SURGE_LOW -/
  surgeLow : Nat
  /-- no. 2 SURGE_RESUME -/
  surgeResume : Nat
  /-- no. 3 SURGE_SLOW -/
  surgeSlow : Nat
  /-- no. 4 SURGE_HIGH -/
  surgeHigh : Nat
  /-- no. 5 TRAINS_PRESENT -/
  trainsPresent : Quad Bool
  deriving DecidableEq, Repr

/-- The parameters of the set by name, in the order of their numbers (R17). -/
inductive LineParam where
  | surgeLow | surgeResume | surgeSlow | surgeHigh | trainsPresent
  deriving DecidableEq, Repr

/-- The parameters in the order of their numbers (R17). -/
def LineParam.all : List LineParam :=
  [.surgeLow, .surgeResume, .surgeSlow, .surgeHigh, .trainsPresent]

/-- The parameter a number names; none where the number is not defined in the set (R18 check 2). -/
def LineParam.ofNumber (n : Nat) : Option LineParam := if n = 0 then none else LineParam.all[n - 1]?

/-- The range of a parameter, or how many named values it has (R17). -/
def LineParam.range : LineParam → ParamRange
  | .surgeLow => .numeric 0 1000
  | .surgeResume => .numeric 0 1000
  | .surgeSlow => .numeric 0 1000
  | .surgeHigh => .numeric 0 1000
  | .trainsPresent => .named 16

/-- A parameter's value as the links code it (R178). -/
def LineParams.get (p : LineParams) : LineParam → Nat
  | .surgeLow => p.surgeLow
  | .surgeResume => p.surgeResume
  | .surgeSlow => p.surgeSlow
  | .surgeHigh => p.surgeHigh
  | .trainsPresent => trainSetCode p.trainsPresent

/-- The set with one parameter at a coded value. -/
def LineParams.put (p : LineParams) (n : LineParam) (v : Nat) : LineParams :=
  match n with
  | .surgeLow => { p with surgeLow := v }
  | .surgeResume => { p with surgeResume := v }
  | .surgeSlow => { p with surgeSlow := v }
  | .surgeHigh => { p with surgeHigh := v }
  | .trainsPresent => { p with trainsPresent := trainSetOf v }

/-- The defaults of R17, and the set of trains a failed PROFILE leaves: the empty set (R17, R169). -/
def LineParams.afterFailedLoad : LineParams where
  surgeLow := 150
  surgeResume := 250
  surgeSlow := 800
  surgeHigh := 900
  trainsPresent := Quad.all false

/-- The bounds of the second clamping of R19 on a crusher parameter, given the parameters as they stand. -/
def CrusherParams.bounds (p : CrusherParams) : CrusherParam → Option (Nat × Nat)
  | .gapMin => some (0, p.gapMax)
  | .gapMax => some (p.gapMin, 3000)
  | .posLow => some (0, p.posHigh - 1)
  | .posHigh => some (p.posLow + 1, 65535)
  | .dutyMin => some (0, p.dutyMax)
  | .dutyMax => some (p.dutyMin, 1000)
  | .reliefHyst => some (0, p.reliefLevel)
  | .reliefLevel => some (p.reliefHyst, 6000)
  | .resumeLevel => some (0, p.overloadLevel)
  | .overloadLevel => some (p.resumeLevel, p.tripLevel)
  | .tripLevel => some (p.overloadLevel, 2000)
  | .gain | .deadband | .kp | .deadTime | .sampleInterval | .moveLimit | .loadAdjust | .drainTime
  | .wearRate | .wearLimit | .loadedPower | .emptyPower | .powerSpan | .pressureSpan | .reliefSource
  | .switchInvert | .clearingTime | .reliefCount | .reliefWindow | .contactLevel | .contactDwell
  | .creepDuty | .backoff | .zeroShiftMax | .zeroTimeLimit | .overloadDelay | .openPolarity
  | .closePolarity | .authority | .startMode => none

/-- The bounds of the second clamping of R19 on a feeder parameter. -/
def FeederParams.bounds (p : FeederParams) : FeederParam → Option (Nat × Nat)
  | .rateMin => some (0, p.rateMax)
  | .rateMax => some (p.rateMin, 1000)
  | .updateInterval | .rampUp | .rampDown | .loadTarget | .loadBand | .trimUp | .trimDown | .trimLimit
  | .slowRate | .outputPolarity | .authority | .startMode => none

/-- The bounds of the second clamping of R19 on a line parameter. -/
def LineParams.bounds (p : LineParams) : LineParam → Option (Nat × Nat)
  | .surgeLow => some (0, p.surgeResume - 1)
  | .surgeResume => some (p.surgeLow + 1, p.surgeSlow)
  | .surgeSlow => some (p.surgeResume, p.surgeHigh - 1)
  | .surgeHigh => some (p.surgeSlow + 1, 1000)
  | .trainsPresent => none

/-- The value stored for a value sent: the two clampings of R19 in their order; a named value as sent. -/
def storedValue (range : ParamRange) (bounds : Option (Nat × Nat)) (v : Nat) : Nat :=
  match range with
  | .named _ => v
  | .numeric lo hi =>
    match bounds with
    | none => clamp lo hi v
    | some (lo2, hi2) => clamp lo2 hi2 (clamp lo hi v)

/-- A value lies in its range, or names a defined value. -/
def ParamRange.holds : ParamRange → Nat → Bool
  | .numeric lo hi, v => lo ≤ v && v ≤ hi
  | .named count, v => v < count

/-- Every crusher parameter lies in its range and every ordering constraint of R15 holds. -/
def CrusherParams.ok (p : CrusherParams) : Bool :=
  CrusherParam.all.all (fun n => n.range.holds (p.get n)) &&
    p.gapMin ≤ p.gapMax && p.posLow < p.posHigh && p.dutyMin ≤ p.dutyMax &&
    p.reliefHyst ≤ p.reliefLevel && p.resumeLevel ≤ p.overloadLevel && p.overloadLevel ≤ p.tripLevel

/-- Every feeder parameter lies in its range and RATE_MIN is at most RATE_MAX (R16). -/
def FeederParams.ok (p : FeederParams) : Bool :=
  FeederParam.all.all (fun n => n.range.holds (p.get n)) && p.rateMin ≤ p.rateMax

/-- Every line parameter lies in its range and the surge thresholds keep their order (R17). -/
def LineParams.ok (p : LineParams) : Bool :=
  LineParam.all.all (fun n => n.range.holds (p.get n)) &&
    p.surgeLow < p.surgeResume && p.surgeResume ≤ p.surgeSlow && p.surgeSlow < p.surgeHigh

end Sys2Proof.Machine
end

