-- ==== Sys2Proof/Machine/Blocks.lean ====
section
/-! DEFINITION. Machine/Blocks.lean: the record each block of the part holds, as its chapter gives it, and
the values it takes after power-on and RESTART. -/

namespace Sys2Proof.Machine

/-! ### Time -/

/-- A running timer: the uptime in ms at which it was started and the ms it runs. It expires when that
much uptime has elapsed, across the wrap (R160). -/
structure Timer where
  start : Nat
  length : Nat
  deriving DecidableEq, Repr

/-- The Time Base (R160, R161). `secondDue` is the model's own mark of a second boundary that the
millisecond boundary has reached and SECOND_BOUNDARY has not yet taken. -/
structure TimeBase where
  seconds : Nat
  millis : Nat
  secondDue : Bool
  lineClock : Nat
  clockSet : Bool
  deriving DecidableEq, Repr

/-- A stamp of the line clock with its set flag (R161). -/
structure Stamp where
  clock : Nat
  isSet : Bool
  deriving DecidableEq, Repr

/-- Uptime begins from 0; the line clock is as given: 0 and not set after power-on, kept at RESTART (R161). No
second is due: one that the start overtook is dropped, which is the model's choice (R170; log 9). -/
def TimeBase.atStart (stamp : Stamp) : TimeBase := ⟨0, 0, false, stamp.clock, stamp.isSet⟩

/-! ### Setting Table and Request Board -/

/-- The mode of a station (01 section 1.4). -/
inductive Mode where
  | run | maintenance | outOfService
  deriving DecidableEq, Repr

/-- Who made a standing setting: START, or a link's request with its tag and arrival sequence (R2). -/
inductive Origin where
  | start
  | request (link : Link) (tag : Byte) (sequence : Nat)
  deriving DecidableEq, Repr

/-- A standing setting (R2). -/
structure Standing where
  target : Nat
  priority : Nat
  origin : Origin
  keep : Option Nat
  deriving DecidableEq, Repr

/-- A START setting: priority 0, and tag, sequence and keep absent (R5). -/
def Standing.start (target : Nat) : Standing := ⟨target, 0, .start, none⟩

/-- A last-applied record (R3). -/
structure Applied where
  link : Link
  tag : Byte
  deriving DecidableEq, Repr

/-- A station record (R2, R3). `lastAccepting` is the value the accepting predicate had when the Setting
Table last evaluated it, which "goes from false to true" (R8) is judged against (log 22). -/
structure StationRecord where
  mode : Mode
  standing : Standing
  lastApplied : Option Applied
  lastAccepting : Bool
  deriving DecidableEq, Repr

/-- A waiting slot (R25). Its kind, GAP or RATE, is its station's role; its number is its place. -/
structure Slot where
  station : Station
  value : Nat
  priority : Nat
  source : Link
  tag : Byte
  sequence : Nat
  keep : Option Nat
  wait : Nat
  deriving DecidableEq, Repr

/-- The Request Board: 24 slots and the arrival sequence counter (R25, R27). -/
structure Board where
  slots : List (Option Slot)
  counter : Nat
  deriving DecidableEq, Repr

/-- Every slot free and the counter at 1 (R25, R27). -/
def Board.atStart : Board := ⟨List.replicate Config.slotCount none, 1⟩

/-! ### Field inputs -/

/-- The latest reading of an analog channel, raw and scaled (R50, R55). -/
structure Analog where
  raw : Nat
  scaled : Nat
  deriving DecidableEq, Repr

/-- A debounced digital input (R52, R53): the raw level of the last sample, the debounced level (none before
the first sample), the count, and the model's own mark of a change event not yet taken. For the E-stop loop a
level of true is a closed loop, RELEASED. -/
structure Digital where
  raw : Bool
  level : Option Bool
  count : Nat
  due : Bool
  deriving DecidableEq, Repr

/-- No sample taken yet (R54). The raw level named here is a DESIGN CHOICE (log 6). -/
def Digital.atStart : Digital := ⟨false, none, 0, false⟩

/-- The Field Input block (R49, R50, R52). -/
structure FieldInputs where
  position : Quad (Option Nat)
  pressure : Quad (Option Analog)
  power : Quad (Option Analog)
  surge : Option Analog
  running : Quad Digital
  reliefSwitch : Quad Digital
  surgeConveyor : Digital
  productConveyor : Digital
  estop : Digital
  deriving DecidableEq, Repr

/-- Every latest reading absent, no digital input sampled (R50, R54). -/
def FieldInputs.atStart : FieldInputs where
  position := Quad.all none
  pressure := Quad.all none
  power := Quad.all none
  surge := none
  running := Quad.all Digital.atStart
  reliefSwitch := Quad.all Digital.atStart
  surgeConveyor := Digital.atStart
  productConveyor := Digital.atStart
  estop := Digital.atStart

/-! ### Gap Measurement -/

/-- The position validity states (R56). -/
inductive Validity where
  | unchecked | notValid | recovering | valid
  deriving DecidableEq, Repr

/-- A recovery in progress: its timer (R56), and the gap that its latest reading gives with the zero, the gain and
the wear in force when that arrival was taken, which its expiry makes the measured gap (R58, R60, R62). -/
structure Recovery where
  timer : Timer
  gap : Option Nat
  deriving DecidableEq, Repr

/-- Gap Measurement of a crusher (R56, R61, R63, R64). -/
structure GapMeasurement where
  validity : Validity
  faultStanding : Bool
  recovery : Option Recovery
  gap : Option Nat
  firstReadingDue : Bool
  loadedTime : Nat
  wearSteps : Nat
  wear : Nat
  tenths : Nat
  deriving DecidableEq, Repr

/-- UNCHECKED with no fault standing, W and the tenth-hours as loaded (R59, R66). -/
def GapMeasurement.atStart (wear tenths : Nat) : GapMeasurement where
  validity := .unchecked
  faultStanding := false
  recovery := none
  gap := none
  firstReadingDue := true
  loadedTime := 0
  wearSteps := 0
  wear := wear
  tenths := tenths

/-! ### Gap Positioner -/

/-- The direction of a valve drive: OPEN or CLOSE (R68). -/
inductive Direction where
  | opening | closing
  deriving DecidableEq, Repr

/-- The other direction. -/
def Direction.other : Direction → Direction
  | .opening => .closing
  | .closing => .opening

/-- The Positioner states in the order of R68. -/
inductive PositionerState where
  | idle | draining | driving | deadTime | suspended | fault | jogging | lent
  deriving DecidableEq, Repr

/-- The suspend reasons in the order of R68. -/
inductive Reason where
  | mode | relief | estop | position | noZero
  deriving DecidableEq, Repr

/-- A suspend-reason set (R69). -/
structure Reasons where
  mode : Bool
  relief : Bool
  estop : Bool
  position : Bool
  noZero : Bool
  deriving DecidableEq, Repr

/-- Whether a reason is held. -/
def Reasons.has (r : Reasons) : Reason → Bool
  | .mode => r.mode
  | .relief => r.relief
  | .estop => r.estop
  | .position => r.position
  | .noZero => r.noZero

/-- The set with one reason held or not. -/
def Reasons.put (r : Reasons) (n : Reason) (held : Bool) : Reasons :=
  match n with
  | .mode => { r with mode := held }
  | .relief => { r with relief := held }
  | .estop => { r with estop := held }
  | .position => { r with position := held }
  | .noZero => { r with noZero := held }

/-- No reason is held. -/
def Reasons.isEmpty (r : Reasons) : Bool :=
  !(r.mode || r.relief || r.estop || r.position || r.noZero)

/-- A drive that is on (R68). -/
structure Drive where
  direction : Direction
  duty : Nat
  deriving DecidableEq, Repr

/-- A pending drive and the dead-time expiry kept for it (R68, R71). -/
structure PendingDrive where
  direction : Direction
  duty : Nat
  deadTime : Timer
  deriving DecidableEq, Repr

/-- The last drive end: uptime in ms, and the direction or none (R68). -/
structure DriveEnd where
  uptime : Nat
  direction : Option Direction
  deriving DecidableEq, Repr

/-- A move in progress: its start uptime and the LOAD_ADJUST in force at its start (R68). -/
structure Move where
  start : Nat
  loadAdjust : Bool
  deriving DecidableEq, Repr

/-- A jog (R68). -/
structure Jog where
  direction : Direction
  duty : Nat
  remaining : Nat
  deriving DecidableEq, Repr

/-- A PWM output: the duty in force in the period in progress and the ms gone in it (R70, R119; log 12). -/
structure Pwm where
  duty : Nat
  phase : Nat
  deriving DecidableEq, Repr

/-- The Positioner record (R68), with the valve output's period (R70). -/
structure Positioner where
  state : PositionerState
  reasons : Reasons
  drive : Option Drive
  pendingDrive : Option PendingDrive
  lastEnd : DriveEnd
  move : Option Move
  drainTimer : Option Timer
  moveTimer : Option Timer
  sampleTimer : Timer
  jog : Option Jog
  lastDuration : Option Nat
  valve : Pwm
  deriving DecidableEq, Repr

/-- The record after power-on and RESTART, with the reasons of R91 (R68). -/
def Positioner.atStart (reasons : Reasons) (sampleInterval : Nat) : Positioner where
  state := .suspended
  reasons := reasons
  drive := none
  pendingDrive := none
  lastEnd := ⟨0, none⟩
  move := none
  drainTimer := none
  moveTimer := none
  sampleTimer := ⟨0, sampleInterval⟩
  jog := none
  lastDuration := none
  valve := ⟨0, 0⟩

/-! ### Zero touch -/

/-- The Sequencer states in the order of R94. -/
inductive SequencerState where
  | idle | approach | dwell | backoff | commit
  deriving DecidableEq, Repr

/-- The Zero Touch Sequencer (R94). -/
structure Sequencer where
  state : SequencerState
  subject : Option Train
  armed : Bool
  dwellTimer : Option Timer
  limitTimer : Option Timer
  contact : Option Nat
  target : Option Nat
  start : Option Nat
  deriving DecidableEq, Repr

/-- No touch runs (R94). -/
def Sequencer.atStart : Sequencer := ⟨.idle, none, false, none, none, none, none, none⟩

/-- The results of a touch in the order of R95. -/
inductive TouchResult where
  | accepted | rejectedShift | abortedRequest | abortedTimeout | abortedRelief | abortedEstop
  | abortedPosition | abortedStopped | abortedLoaded
  deriving DecidableEq, Repr

/-- The outcome of a touch (R95). -/
structure TouchOutcome where
  result : TouchResult
  zBefore : Option Nat
  zAfter : Option Nat
  wearFound : Option Int
  wear : Nat
  duration : Nat
  stamp : Stamp
  deriving DecidableEq, Repr

/-- A zero record (R95). -/
structure ZeroRecord where
  z : Nat
  valid : Bool
  outcome : Option TouchOutcome
  rejected : Bool
  aborted : Bool
  deriving DecidableEq, Repr

/-! ### Feed Governor -/

/-- The Governor states in the order of R111. -/
inductive GovernorState where
  | stopped | held | running
  deriving DecidableEq, Repr

/-- The ten causes of a hold in the order of section 6.4. -/
inductive Hold where
  | estop | crusherStopped | conveyor | level | overload | relief | trip | gapMove | calibration | mode
  deriving DecidableEq, Repr

/-- A hold set (06 section 6.4). -/
structure Holds where
  estop : Bool
  crusherStopped : Bool
  conveyor : Bool
  level : Bool
  overload : Bool
  relief : Bool
  trip : Bool
  gapMove : Bool
  calibration : Bool
  mode : Bool
  deriving DecidableEq, Repr

/-- Whether a cause is held. -/
def Holds.has (h : Holds) : Hold → Bool
  | .estop => h.estop
  | .crusherStopped => h.crusherStopped
  | .conveyor => h.conveyor
  | .level => h.level
  | .overload => h.overload
  | .relief => h.relief
  | .trip => h.trip
  | .gapMove => h.gapMove
  | .calibration => h.calibration
  | .mode => h.mode

/-- The set with one cause held or not. -/
def Holds.put (h : Holds) (c : Hold) (held : Bool) : Holds :=
  match c with
  | .estop => { h with estop := held }
  | .crusherStopped => { h with crusherStopped := held }
  | .conveyor => { h with conveyor := held }
  | .level => { h with level := held }
  | .overload => { h with overload := held }
  | .relief => { h with relief := held }
  | .trip => { h with trip := held }
  | .gapMove => { h with gapMove := held }
  | .calibration => { h with calibration := held }
  | .mode => { h with mode := held }

/-- No cause is held. -/
def Holds.isEmpty (h : Holds) : Bool :=
  !(h.estop || h.crusherStopped || h.conveyor || h.level || h.overload || h.relief || h.trip ||
    h.gapMove || h.calibration || h.mode)

/-- The empty hold set. -/
def Holds.empty : Holds := ⟨false, false, false, false, false, false, false, false, false, false⟩

/-- The Governor record (R111), with the rate output's period (R119). Its state follows from the hold set
and the base rate (R112) and is not stored a second time. -/
structure Governor where
  base : Nat
  trim : Int
  demand : Nat
  command : Nat
  holds : Holds
  updateTimer : Timer
  capBound : Bool
  output : Pwm
  deriving DecidableEq, Repr

/-- The state that follows from the hold set and the base rate (R112). -/
def Governor.state (g : Governor) : GovernorState :=
  if !g.holds.isEmpty then .held else if g.base = 0 then .stopped else .running

/-- B, X, D and C at 0 and the holds of R128 (R111). -/
def Governor.atStart (holds : Holds) (updateInterval : Nat) : Governor where
  base := 0
  trim := 0
  demand := 0
  command := 0
  holds := holds
  updateTimer := ⟨0, updateInterval⟩
  capBound := false
  output := ⟨0, 0⟩

/-! ### Relief and Load Supervisor -/

/-- The relief states in the order of R132. -/
inductive ReliefState where
  | normal | relieving | clearing | restoring
  deriving DecidableEq, Repr

/-- A trip latch (R132). -/
inductive Latch where
  | clear | set | setAcknowledged
  deriving DecidableEq, Repr

/-- The two trip latches of a crusher (R143). -/
inductive TripLatch where
  | repeatedRelief | powerTrip
  deriving DecidableEq, Repr

/-- The Supervisor record (R132). -/
structure Supervisor where
  relief : ReliefState
  detectorActive : Bool
  clearingTimer : Option Timer
  history : List Nat
  overloadTimer : Option Timer
  overload : Bool
  tripCause : Bool
  reliefLatch : Latch
  powerLatch : Latch
  deriving DecidableEq, Repr

/-- The record after power-on and RESTART (R132). -/
def Supervisor.atStart : Supervisor := ⟨.normal, false, none, [], none, false, false, .clear, .clear⟩

/-! ### Calibration Store -/

/-- The sections of the store (R164). -/
inductive StoreSection where
  | profile | zero | wear
  deriving DecidableEq, Repr

/-- The contents of PROFILE (R164). -/
structure Profile where
  line : LineParams
  crushers : Quad CrusherParams
  feeders : Quad FeederParams
  deriving DecidableEq, Repr

/-- One crusher's part of ZERO (R164). -/
structure StoredZero where
  z : Nat
  valid : Bool
  outcome : Option TouchOutcome
  deriving DecidableEq, Repr

/-- One crusher's part of WEAR (R164). -/
structure StoredWear where
  wear : Nat
  tenths : Nat
  deriving DecidableEq, Repr

/-- The section being written, with the contents taken at the start of the write (R165). -/
inductive WriteJob where
  | profile (p : Profile)
  | zero (z : Quad StoredZero)
  | wear (w : Quad StoredWear)
  deriving DecidableEq, Repr

/-- The section a write job writes. -/
def WriteJob.sec : WriteJob → StoreSection
  | .profile _ => .profile
  | .zero _ => .zero
  | .wear _ => .wear

/-- The dirty set (R165). -/
structure DirtySet where
  profile : Bool
  zero : Bool
  wear : Bool
  deriving DecidableEq, Repr

/-- The set with one section in it or not. -/
def DirtySet.put (d : DirtySet) (sec : StoreSection) (dirty : Bool) : DirtySet :=
  match sec with
  | .profile => { d with profile := dirty }
  | .zero => { d with zero := dirty }
  | .wear => { d with wear := dirty }

/-- A section as the non-volatile memory holds it: its contents and the check value stored with them (R164). -/
structure StoredSection (α : Type) where
  contents : α
  check : Half
  deriving DecidableEq, Repr

/-- The Calibration Store (R164, R165): the dirty set, the store state (none is IDLE) and the three sections,
none where the section has never been written. -/
structure Store where
  dirty : DirtySet
  writing : Option WriteJob
  profile : Option (StoredSection Profile)
  zero : Option (StoredSection (Quad StoredZero))
  wear : Option (StoredSection (Quad StoredWear))
  deriving DecidableEq, Repr

/-- The sections as they are in the non-volatile memory, the dirty set empty and the state IDLE (R165). -/
def Store.atStart (st : Store) : Store := { st with dirty := ⟨false, false, false⟩, writing := none }

/-- A store whose sections have never been written: each fails its check (R164). -/
def Store.blank : Store := ⟨⟨false, false, false⟩, none, none, none, none⟩

/-! ### Condition List -/

/-- The conditions in the order of their codes (R148). -/
inductive Code where
  | estop | surgeConveyorStopped | productConveyorStopped | surgeHigh | surgeLow | relief
  | repeatedRelief | overload | powerTrip | moveTimeout | positionFault | zeroUnset | wearLimit
  | zeroRejected | zeroAborted | storeFault | linkLocked
  deriving DecidableEq, Repr

/-- The classes of conditions in the order of R179's coding. -/
inductive ConditionClass where
  | info | hold | trip
  deriving DecidableEq, Repr

/-- The class a code fixes (R148). -/
def Code.cls : Code → ConditionClass
  | .estop | .surgeConveyorStopped | .productConveyorStopped | .relief | .overload | .moveTimeout
  | .positionFault => .hold
  | .repeatedRelief | .powerTrip => .trip
  | .surgeHigh | .surgeLow | .zeroUnset | .wearLimit | .zeroRejected | .zeroAborted | .storeFault
  | .linkLocked => .info

/-- Whether a code is latched (R148). -/
def Code.latched : Code → Bool
  | .repeatedRelief | .powerTrip | .moveTimeout | .zeroRejected | .zeroAborted => true
  | .estop | .surgeConveyorStopped | .productConveyorStopped | .surgeHigh | .surgeLow | .relief
  | .overload | .positionFault | .zeroUnset | .wearLimit | .storeFault | .linkLocked => false

/-- The subject of a condition (R148). -/
inductive Subject where
  | line
  | crusher (t : Train)
  | link (l : Link)
  | storeSection (sec : StoreSection)
  deriving DecidableEq, Repr

/-- The detail of a condition (R148). -/
inductive Detail where
  | power (kw : Nat)
  | result (r : TouchResult)
  | storeSection (sec : StoreSection)
  deriving DecidableEq, Repr

/-- A condition entry; its class is the one its code fixes (R149). -/
structure Entry where
  code : Code
  subject : Subject
  stamp : Stamp
  count : Nat
  acknowledged : Bool
  active : Bool
  detail : Option Detail
  deriving DecidableEq, Repr

/-- A first-out record that is not empty (R156). -/
structure FirstOut where
  code : Code
  subject : Subject
  stamp : Stamp
  deriving DecidableEq, Repr

/-- The Condition List (R149); the beacons follow from its entries (R157). -/
structure ConditionList where
  entries : List Entry
  overflow : Nat
  firstOut : Option FirstOut
  deriving DecidableEq, Repr

/-- The List before any start-up condition is reported (R149). -/
def ConditionList.atStart : ConditionList := ⟨[], 0, none⟩

/-! ### Request links -/

/-- A frame being received: the bytes taken so far, sync first, and the uptime of the last (R173). -/
structure Receiving where
  bytes : List Byte
  lastByte : Nat
  deriving DecidableEq, Repr

/-- A Link Interface (R171): HUNTING (none) or RECEIVING, reply-pending and the lock, and the bytes of
the latest reply frame as the link sends them (R177). -/
structure LinkInterface where
  receiving : Option Receiving
  replyPending : Bool
  locked : Bool
  reply : List Byte
  deriving DecidableEq, Repr

/-- HUNTING with an empty buffer, no reply pending, UNLOCKED (R171). -/
def LinkInterface.atStart : LinkInterface := ⟨none, false, false, []⟩

/-- How far a RESTART has come (R170): none taken, its DONE reply being sent, or sent in full. -/
inductive RestartPhase where
  | notTaken | replying | replied
  deriving DecidableEq, Repr

end Sys2Proof.Machine
end

