-- ==== Sys2Proof/Machine/Flags.lean ====
section
/-! DEFINITION. Machine/Flags.lean: the status codes and flag bits of replies (R177). -/

namespace Sys2Proof.Machine

/-- The status codes in their order (R177). -/
inductive Status where
  | done | applied | waiting | outranked | notAccepting | boardFull | badStation | wrongKind
  | notAuthorised | linkLocked | wrongMode | busy | format
  deriving DecidableEq, Repr

/-- The byte of a status (R177). -/
def Status.code : Status → Byte
  | .done => 0x00#8
  | .applied => 0x01#8
  | .waiting => 0x02#8
  | .outranked => 0x03#8
  | .notAccepting => 0x04#8
  | .boardFull => 0x05#8
  | .badStation => 0x06#8
  | .wrongKind => 0x07#8
  | .notAuthorised => 0x08#8
  | .linkLocked => 0x09#8
  | .wrongMode => 0x0A#8
  | .busy => 0x0B#8
  | .format => 0x0C#8

/-- The flags of a reply (R177). -/
structure ReplyFlags where
  clamped : Bool
  priorityCapped : Bool
  superseded : Bool
  removedWaiting : Bool
  releasedStanding : Bool
  deriving DecidableEq, Repr

/-- No flag. -/
def ReplyFlags.none : ReplyFlags := ⟨false, false, false, false, false⟩

/-- A bit of a byte, as a number. -/
def bitAt (i : Nat) (b : Bool) : Nat := if b then 2 ^ i else 0

/-- The flags byte; bits 5 to 7 are sent as 0 (R177). -/
def ReplyFlags.byte (f : ReplyFlags) : Byte :=
  byteOf (bitAt 0 f.clamped + bitAt 1 f.priorityCapped + bitAt 2 f.superseded + bitAt 3 f.removedWaiting +
    bitAt 4 f.releasedStanding)

/-- What an owner answers: status, flags and the further body of a decided request (R177). -/
structure Answer where
  status : Status
  flags : ReplyFlags
  body : List Byte
  deriving DecidableEq, Repr

/-- A refusal: flags byte 00h and no further body (R177). -/
def Answer.refuse (status : Status) : Answer := ⟨status, ReplyFlags.none, []⟩

/-- DONE with no flags and a body. -/
def Answer.done (body : List Byte) : Answer := ⟨.done, ReplyFlags.none, body⟩

end Sys2Proof.Machine
end

