-- ==== Sys2Proof/Machine/Coding.lean ====
section
/-! DEFINITION. Machine/Coding.lean: the widths of fields in replies (R172, R178), and the contents of a store
section as bytes, over which its check value is computed (R164). -/

namespace Sys2Proof.Machine

/-! ### Widths and absent values (R172, R178) -/

/-- A one-byte field. -/
def f1 (n : Nat) : List Byte := [byteOf n]

/-- A two-byte field. -/
def f2 (n : Nat) : List Byte := halfBytes (BitVec.ofNat 16 n)

/-- A four-byte field. -/
def f4 (n : Nat) : List Byte := wordBytes (BitVec.ofNat 32 n)

/-- A signed two-byte field, two's complement (R178). -/
def f2s (n : Int) : List Byte := halfBytes (BitVec.ofInt 16 n)

/-- A two-byte optional value: FFFFh is absent (R178). -/
def f2opt : Option Nat → List Byte
  | none => f2 0xFFFF
  | some n => f2 n

/-- A four-byte time: FFFFFFFFh is absent (R178). -/
def f4opt : Option Nat → List Byte
  | none => f4 0xFFFFFFFF
  | some n => f4 n

/-- A field that a flag marks absent is sent as 0 (R179). -/
def orZero (o : Option Nat) : Nat := o.getD 0

/-! ### The last outcome (R95, R179) -/

/-- Result codes, numbered from 0 in the order of R95. -/
def TouchResult.code : TouchResult → Nat
  | .accepted => 0
  | .rejectedShift => 1
  | .abortedRequest => 2
  | .abortedTimeout => 3
  | .abortedRelief => 4
  | .abortedEstop => 5
  | .abortedPosition => 6
  | .abortedStopped => 7
  | .abortedLoaded => 8

/-- The 18 bytes of a last outcome; an absent one is sent as 0 (R179). -/
def outcomeBytes : Option TouchOutcome → List Byte
  | none => List.replicate 18 0#8
  | some o =>
    f1 o.result.code ++
      f1 (bitAt 0 o.zBefore.isSome + bitAt 1 o.zAfter.isSome + bitAt 2 o.wearFound.isSome +
        bitAt 3 o.stamp.isSet) ++
      f2 (orZero o.zBefore) ++ f2 (orZero o.zAfter) ++ f2s (o.wearFound.getD 0) ++ f2 o.wear ++
      f4 o.duration ++ f4 o.stamp.clock

/-! ### The sections of the store (R164; log 7) -/

/-- The line parameters, each as two bytes in the order of their numbers (log 7). -/
def LineParams.bytes (p : LineParams) : List Byte := LineParam.all.flatMap fun n => f2 (p.get n)

/-- A crusher's parameters, each as two bytes in the order of their numbers (log 7). -/
def CrusherParams.bytes (p : CrusherParams) : List Byte := CrusherParam.all.flatMap fun n => f2 (p.get n)

/-- A feeder's parameters, each as two bytes in the order of their numbers (log 7). -/
def FeederParams.bytes (p : FeederParams) : List Byte := FeederParam.all.flatMap fun n => f2 (p.get n)

/-- The contents of PROFILE: the line's parameters, then the stations' in the order of their numbers (log 7). -/
def Profile.bytes (p : Profile) : List Byte :=
  p.line.bytes ++ Train.all.flatMap fun t => (p.feeders.get t).bytes ++ (p.crushers.get t).bytes

/-- One crusher's part of ZERO: Z, a byte for zero valid and outcome present, and the last outcome (log 7). -/
def StoredZero.bytes (z : StoredZero) : List Byte :=
  f2 z.z ++ f1 (bitAt 0 z.valid + bitAt 1 z.outcome.isSome) ++ outcomeBytes z.outcome

/-- The contents of ZERO, in the order of the crushers (log 7). -/
def zeroBytes (q : Quad StoredZero) : List Byte := Train.all.flatMap fun t => (q.get t).bytes

/-- One crusher's part of WEAR: W and the loaded tenth-hours (log 7). -/
def StoredWear.bytes (w : StoredWear) : List Byte := f2 w.wear ++ f4 w.tenths

/-- The contents of WEAR, in the order of the crushers (log 7). -/
def wearBytes (q : Quad StoredWear) : List Byte := Train.all.flatMap fun t => (q.get t).bytes

/-- A section with the check value of its contents: their CRC-16, by the generator and the starting value of the
link frames (R164). -/
def StoredSection.make {α : Type} (bytes : α → List Byte) (x : α) : StoredSection α := ⟨x, crc16 (bytes x)⟩

/-- A section whose write was cut short: its check value is not that of its contents, so it fails (R164). What
such a section holds is the model's choice, and no command reads it (log 7). -/
def StoredSection.torn {α : Type} (bytes : α → List Byte) (x : α) : StoredSection α := ⟨x, ~~~crc16 (bytes x)⟩

/-- A section passes its check when the check value computed over its contents equals the one stored with them
(R164). -/
def StoredSection.passes {α : Type} (bytes : α → List Byte) (sec : StoredSection α) : Bool :=
  crc16 (bytes sec.contents) = sec.check

/-- What a start reads of a section: its contents where it passes its check; a section never written fails it
(R164, R169). -/
def readSection {α : Type} (bytes : α → List Byte) : Option (StoredSection α) → Option α
  | none => none
  | some sec => if sec.passes bytes then some sec.contents else none

/-- The PROFILE a start reads (R169). -/
def Store.readProfile (st : Store) : Option Profile := readSection Profile.bytes st.profile

/-- The ZERO a start reads (R169). -/
def Store.readZero (st : Store) : Option (Quad StoredZero) := readSection zeroBytes st.zero

/-- The WEAR a start reads (R169). -/
def Store.readWear (st : Store) : Option (Quad StoredWear) := readSection wearBytes st.wear

end Sys2Proof.Machine
end

