-- ==== Sys2Proof/Machine/State.lean ====
section
/-! DEFINITION. Machine/State.lean: the whole state of the part (INVENTORY.md, "State"), the reasons a step
can stop, and the state after reset. -/

namespace Sys2Proof.Machine

/-- One value for each link. -/
structure PerLink (α : Type) where
  lc : α
  op : α
  sv : α
  deriving DecidableEq, Repr

/-- The value of one link. -/
def PerLink.get {α : Type} (p : PerLink α) : Link → α
  | .lc => p.lc
  | .op => p.op
  | .sv => p.sv

/-- The same values but for one link. -/
def PerLink.set {α : Type} (p : PerLink α) (l : Link) (v : α) : PerLink α :=
  match l with
  | .lc => { p with lc := v }
  | .op => { p with op := v }
  | .sv => { p with sv := v }

/-- The state of the part. Per-train records stand under the train: `feeders` and `crushers` are the
station records, `gaps`, `positioners`, `zeros` and `supervisors` belong to the crusher of the train and
`governors` to its feeder. `pending` is the queue of commands, first in, first out. -/
structure State where
  powered : Bool
  restart : RestartPhase
  time : TimeBase
  feeders : Quad StationRecord
  crushers : Quad StationRecord
  line : LineParams
  crusherParams : Quad CrusherParams
  feederParams : Quad FeederParams
  board : Board
  inputs : FieldInputs
  gaps : Quad GapMeasurement
  positioners : Quad Positioner
  sequencer : Sequencer
  zeros : Quad ZeroRecord
  governors : Quad Governor
  supervisors : Quad Supervisor
  conditions : ConditionList
  store : Store
  links : PerLink LinkInterface
  pending : List Instr
  deriving DecidableEq, Repr

/-- The reasons a step can stop with a fault. There are none: the manual gives every command an effect,
and every fault of the line is a condition on the Condition List (INVENTORY.md, "Faults"). -/
inductive Fault where
  deriving DecidableEq, Repr

/-- The reasons a step can be refused. -/
inductive Refusal where
  /-- Raised by exec's arm of a row that has no meaning yet, and by nothing else. Safe: the part goes on
  where the model stops. No arm raises it now. -/
  | notModelled (mnemonic : String)
  deriving DecidableEq, Repr

/-- The crusher parameters when PROFILE fails its check: the defaults, station 1 the JAW (R15, R169). -/
def defaultCrusherParams : Quad CrusherParams :=
  ⟨CrusherParams.defaults true, CrusherParams.defaults false, CrusherParams.defaults false,
   CrusherParams.defaults false⟩

/-- The feeder parameters when PROFILE fails its check: the defaults of R16 (R169). -/
def defaultFeederParams : Quad FeederParams :=
  ⟨FeederParams.defaults true, FeederParams.defaults false, FeederParams.defaults false,
   FeederParams.defaults false⟩

/-- An entry as an onset makes it: count 1, not acknowledged, its cause active (R150). -/
def Entry.fresh (code : Code) (subject : Subject) (stamp : Stamp) (detail : Option Detail) : Entry :=
  ⟨code, subject, stamp, 1, false, true, detail⟩

/-- The machine right after reset: uptime 0 of a power-on of a part whose three store sections were never
written, so each fails its check (R164), every parameter takes its default, TRAINS_PRESENT is empty, every
station is absent and OUT_OF_SERVICE, no zero is valid, and STORE_FAULT is listed for each section
(R169; log 5). -/
def State.reset : State where
  powered := true
  restart := .notTaken
  time := TimeBase.atStart ⟨0, false⟩
  feeders := Quad.all ⟨.outOfService, Standing.start 0, none, false⟩
  crushers := defaultCrusherParams.map fun p => ⟨.outOfService, Standing.start p.gapMax, none, false⟩
  line := LineParams.afterFailedLoad
  crusherParams := defaultCrusherParams
  feederParams := defaultFeederParams
  board := Board.atStart
  inputs := FieldInputs.atStart
  gaps := Quad.all (GapMeasurement.atStart 0 0)
  positioners := defaultCrusherParams.map fun p =>
    Positioner.atStart ⟨true, false, false, true, true⟩ p.sampleInterval
  sequencer := Sequencer.atStart
  zeros := Quad.all ⟨0, false, none, false, false⟩
  governors := defaultFeederParams.map fun p =>
    Governor.atStart { Holds.empty with mode := true } p.updateInterval
  supervisors := Quad.all Supervisor.atStart
  conditions := {
    entries := [Entry.fresh .storeFault (.storeSection .profile) ⟨0, false⟩ (some (.storeSection .profile)),
                Entry.fresh .storeFault (.storeSection .zero) ⟨0, false⟩ (some (.storeSection .zero)),
                Entry.fresh .storeFault (.storeSection .wear) ⟨0, false⟩ (some (.storeSection .wear))]
    overflow := 0
    firstOut := none }
  store := Store.blank
  links := ⟨LinkInterface.atStart, LinkInterface.atStart, LinkInterface.atStart⟩
  pending := []

end Sys2Proof.Machine
end

