-- ==== Sys2Proof/Machine/Ops.lean ====
section
/-! DEFINITION. Machine/Ops.lean: uptime and timers, and the one way in which each record of the state is
read and changed. -/

namespace Sys2Proof.Machine

/-! ### Uptime (R160) -/

/-- The uptime in ms. -/
def State.now (s : State) : Nat := s.time.seconds * 1000 + s.time.millis

/-- The uptime elapsed since uptime u, across the wrap (R160; log 8). -/
def elapsed (now u : Nat) : Nat := (now + Config.uptimeSpan - u) % Config.uptimeSpan

/-- A timer has run its length (R160). -/
def Timer.expired (t : Timer) (now : Nat) : Bool := t.length ≤ elapsed now t.start

/-- The ms a timer still has to run. -/
def Timer.remaining (t : Timer) (now : Nat) : Nat := t.length - elapsed now t.start

/-- A timer runs and has expired; a stopped timer never has. -/
def timerExpired (t : Option Timer) (now : Nat) : Bool :=
  match t with
  | none => false
  | some t => t.expired now

/-- A timer started now. -/
def State.timer (s : State) (length : Nat) : Timer := ⟨s.now, length⟩

/-- The line clock and its set flag as they stand (R161). -/
def State.stamp (s : State) : Stamp := ⟨s.time.lineClock, s.time.clockSet⟩

/-! ### Records -/

/-- The Governor of a train's feeder. -/
def State.governor (s : State) (t : Train) : Governor := s.governors.get t

/-- The Positioner of a train's crusher. -/
def State.positioner (s : State) (t : Train) : Positioner := s.positioners.get t

/-- The Gap Measurement of a train's crusher. -/
def State.gap (s : State) (t : Train) : GapMeasurement := s.gaps.get t

/-- The Supervisor of a train's crusher. -/
def State.supervisor (s : State) (t : Train) : Supervisor := s.supervisors.get t

/-- The zero record of a train's crusher. -/
def State.zero (s : State) (t : Train) : ZeroRecord := s.zeros.get t

/-- The parameters of a train's crusher. -/
def State.crusher (s : State) (t : Train) : CrusherParams := s.crusherParams.get t

/-- The parameters of a train's feeder. -/
def State.feeder (s : State) (t : Train) : FeederParams := s.feederParams.get t

/-- The record of a station. -/
def State.station (s : State) (st : Station) : StationRecord :=
  match st.role with
  | .feeder => s.feeders.get st.train
  | .crusher => s.crushers.get st.train

/-- The interface of a link. -/
def State.link (s : State) (l : Link) : LinkInterface := s.links.get l

/-- Change a Governor. -/
def State.modGovernor (s : State) (t : Train) (f : Governor → Governor) : State :=
  { s with governors := s.governors.set t (f (s.governor t)) }

/-- Change a Positioner. -/
def State.modPositioner (s : State) (t : Train) (f : Positioner → Positioner) : State :=
  { s with positioners := s.positioners.set t (f (s.positioner t)) }

/-- Change a Gap Measurement. -/
def State.modGap (s : State) (t : Train) (f : GapMeasurement → GapMeasurement) : State :=
  { s with gaps := s.gaps.set t (f (s.gap t)) }

/-- Change a Supervisor. -/
def State.modSupervisor (s : State) (t : Train) (f : Supervisor → Supervisor) : State :=
  { s with supervisors := s.supervisors.set t (f (s.supervisor t)) }

/-- Change a zero record. -/
def State.modZero (s : State) (t : Train) (f : ZeroRecord → ZeroRecord) : State :=
  { s with zeros := s.zeros.set t (f (s.zero t)) }

/-- Change a station record. -/
def State.modStation (s : State) (st : Station) (f : StationRecord → StationRecord) : State :=
  match st.role with
  | .feeder => { s with feeders := s.feeders.set st.train (f (s.feeders.get st.train)) }
  | .crusher => { s with crushers := s.crushers.set st.train (f (s.crushers.get st.train)) }

/-- Change a link interface. -/
def State.modLink (s : State) (l : Link) (f : LinkInterface → LinkInterface) : State :=
  { s with links := s.links.set l (f (s.link l)) }

/-- Change the Condition List. -/
def State.modConditions (s : State) (f : ConditionList → ConditionList) : State :=
  { s with conditions := f s.conditions }

/-- Change the Sequencer. -/
def State.modSequencer (s : State) (f : Sequencer → Sequencer) : State :=
  { s with sequencer := f s.sequencer }

/-- Put the uptime and the line clock. -/
def State.withTime (s : State) (x : TimeBase) : State := { s with time := x }

/-- Put the phase of RESTART. -/
def State.withRestart (s : State) (x : RestartPhase) : State := { s with restart := x }

/-- Put the line parameters. -/
def State.withLine (s : State) (x : LineParams) : State := { s with line := x }

/-- Put the parameters of a train's crusher. -/
def State.withCrusher (s : State) (t : Train) (x : CrusherParams) : State :=
  { s with crusherParams := s.crusherParams.set t x }

/-- Put the parameters of a train's feeder. -/
def State.withFeeder (s : State) (t : Train) (x : FeederParams) : State :=
  { s with feederParams := s.feederParams.set t x }

/-- Put the Request Board. -/
def State.withBoard (s : State) (x : Board) : State := { s with board := x }

/-- Put the Field Inputs. -/
def State.withInputs (s : State) (x : FieldInputs) : State := { s with inputs := x }

/-- Put the Calibration Store. -/
def State.withStore (s : State) (x : Store) : State := { s with store := x }

/-! ### What the blocks read of one another -/

/-- The crusher station of a train. -/
def crusherOf (t : Train) : Station := ⟨t, .crusher⟩

/-- The feeder station of a train. -/
def feederOf (t : Train) : Station := ⟨t, .feeder⟩

/-- A train is present while TRAINS_PRESENT holds it (R1). -/
def State.present (s : State) (t : Train) : Bool := s.line.trainsPresent.get t

/-- The crusher of a train is the subject of a running zero touch (R94). -/
def State.isSubject (s : State) (t : Train) : Bool := s.sequencer.subject = some t

/-- The debounced level of an input as others read it; de-energized before its first sample (log 6). -/
def Digital.energized (d : Digital) : Bool := d.level.getD false

/-- The E-stop loop is ASSERTED (R53); RELEASED before its first sample (log 6). -/
def State.estopAsserted (s : State) : Bool := s.inputs.estop.level = some false

/-- Fold one operation over the four trains, in order of number. -/
def State.forTrains (s : State) (f : Train → State → State) : State :=
  f .t3 (f .t2 (f .t1 (f .t0 s)))

end Sys2Proof.Machine
end

