-- ==== Sys2Proof/Machine/Conditions.lean ====
section
/-! DEFINITION. Machine/Conditions.lean: the Condition List of chapter 8. -/

namespace Sys2Proof.Machine

/-- The entry has this code and subject. -/
def Entry.named (code : Code) (subject : Subject) (e : Entry) : Bool := e.code = code && e.subject = subject

/-- An entry with this code and subject is listed. -/
def ConditionList.listed (l : ConditionList) (code : Code) (subject : Subject) : Bool :=
  l.entries.any (Entry.named code subject)

/-- The record an entry gives as first-out (R156). -/
def Entry.firstOut (e : Entry) : FirstOut := ⟨e.code, e.subject, e.stamp⟩

/-- The oldest TRIP entry listed (R156). -/
def oldestTrip (entries : List Entry) : Option FirstOut :=
  (entries.find? fun e => e.code.cls = .trip).map Entry.firstOut

/-- The first-out record judged again after a removal (R156). -/
def judgeFirstOut (entries : List Entry) : Option FirstOut → Option FirstOut
  | none => none
  | some f => if entries.any (Entry.named f.code f.subject) then some f else oldestTrip entries

/-- The overflow count increases by 1, up to 65,535 (R150, R151). -/
def ConditionList.overflowed (l : ConditionList) : ConditionList :=
  { l with overflow := min (l.overflow + 1) Config.maxOverflow }

/-- A new entry at the tail; the first TRIP entry becomes the first-out (R150, R156). -/
def ConditionList.appended (l : ConditionList) (e : Entry) : ConditionList :=
  { l with
    entries := l.entries ++ [e]
    firstOut := match l.firstOut with
      | some f => some f
      | none => if e.code.cls = .trip then some e.firstOut else none }

/-- Entries removed; those after them close up, and the first-out is judged again (R152). -/
def ConditionList.without (l : ConditionList) (gone : Entry → Bool) : ConditionList :=
  { l with
    entries := l.entries.filter fun e => !gone e
    firstOut := judgeFirstOut (l.entries.filter fun e => !gone e) l.firstOut }

/-- The place of the entry a TRIP onset evicts: the oldest INFO or HOLD entry with its cause inactive, else
the oldest INFO or HOLD entry (R151). -/
def evictionPlace (entries : List Entry) : Option Nat :=
  match entries.findIdx? fun e => e.code.cls ≠ .trip && !e.active with
  | some i => some i
  | none => entries.findIdx? fun e => e.code.cls ≠ .trip

/-- A recurrence of a listed condition (R150 case 1). -/
def Entry.recurred (e : Entry) (detail : Option Detail) : Entry :=
  { e with
    count := min (e.count + 1) Config.maxOccurrence
    active := true
    acknowledged := false
    detail := match detail with
      | some d => some d
      | none => e.detail }

/-- An onset report (R150), taking the first case that applies. R151 shows that an eviction finds its entry
(log 17). -/
def ConditionList.onset (l : ConditionList) (code : Code) (subject : Subject) (detail : Option Detail)
    (stamp : Stamp) : ConditionList :=
  if l.listed code subject then
    { l with entries := l.entries.map fun e => if e.named code subject then e.recurred detail else e }
  else if l.entries.length < Config.listCapacity then
    l.appended (Entry.fresh code subject stamp detail)
  else if code.cls = .trip then
    match evictionPlace l.entries with
    | some i =>
      ({ l with entries := l.entries.eraseIdx i }.overflowed).appended
        (Entry.fresh code subject stamp detail)
    | none => l.overflowed
  else l.overflowed

/-- The end of a condition's cause (R152). -/
def ConditionList.causeEnded (l : ConditionList) (code : Code) (subject : Subject) : ConditionList :=
  if code.latched then
    let l := l.without fun e => e.named code subject && e.acknowledged
    { l with entries := l.entries.map fun e => if e.named code subject then { e with active := false } else e }
  else l.without (Entry.named code subject)

/-- A listed entry becomes acknowledged (R154 step 1). -/
def ConditionList.acknowledged (l : ConditionList) (code : Code) (subject : Subject) : ConditionList :=
  { l with
    entries := l.entries.map fun e => if e.named code subject then { e with acknowledged := true } else e }

/-- A latched entry that is acknowledged and whose cause is inactive (R154 step 3). -/
def Entry.answered (e : Entry) : Bool := e.code.latched && e.acknowledged && !e.active

/-- The answered entry of a code and subject is removed (R154 step 3). -/
def ConditionList.withoutAnswered (l : ConditionList) (code : Code) (subject : Subject) : ConditionList :=
  l.without fun e => e.named code subject && e.answered

/-- Every listed entry becomes acknowledged (R155 step 1). -/
def ConditionList.allAcknowledged (l : ConditionList) : ConditionList :=
  { l with entries := l.entries.map fun e => { e with acknowledged := true } }

/-- Every latched entry with its cause inactive is removed, and the overflow count becomes 0 (R155). -/
def ConditionList.allAnswered (l : ConditionList) : ConditionList :=
  { l.without (fun e => e.code.latched && !e.active) with overflow := 0 }

/-- The states of a beacon in the order of R157. -/
inductive Beacon where
  | off | steady | flashing
  deriving DecidableEq, Repr

/-- The beacon of a class (R157). -/
def ConditionList.beacon (l : ConditionList) (cls : ConditionClass) : Beacon :=
  if l.entries.any fun e => e.code.cls = cls && !e.acknowledged then .flashing
  else if l.entries.any fun e => e.code.cls = cls then .steady
  else .off

/-- Whether a beacon output is energized now: FLASHING in the first 500 ms of each uptime second (R157);
de-energized before the start (section 9.4). -/
def State.beaconLit (s : State) (cls : ConditionClass) : Bool :=
  s.powered && match s.conditions.beacon cls with
    | .off => false
    | .steady => true
    | .flashing => s.time.millis < 500

/-- A block reports the onset of a condition; its stamp is the line clock now (R149, R150). -/
def State.onset (s : State) (code : Code) (subject : Subject) (detail : Option Detail) : State :=
  s.modConditions fun l => l.onset code subject detail s.stamp

/-- A block reports the end of a condition's cause (R152). -/
def State.causeEnd (s : State) (code : Code) (subject : Subject) : State :=
  s.modConditions fun l => l.causeEnded code subject

end Sys2Proof.Machine
end

