-- ==== Sys2Proof/Machine/Governing.lean ====
section
/-! DEFINITION. Machine/Governing.lean: the Feed Governors of chapter 6. -/

namespace Sys2Proof.Machine

/-- C and D become 0 at once and the rate output drops to duty 0, cutting its period short (R112, R119). -/
def Governor.stop (g : Governor) : Governor := { g with demand := 0, command := 0, output := ⟨0, 0⟩ }

/-- The state judged again after a change of the hold set or of B: a change that makes it HELD or STOPPED
stops the feeder (R112). -/
def Governor.rejudged (before after : Governor) : Governor :=
  if after.state = .running || after.state = before.state then after else after.stop

/-- A cause is added to the hold set (R121). -/
def Governor.hold (g : Governor) (c : Hold) : Governor :=
  if g.holds.has c then g else g.rejudged { g with holds := g.holds.put c true }

/-- A cause is removed from the hold set (R121). -/
def Governor.release (g : Governor) (c : Hold) : Governor :=
  if g.holds.has c then g.rejudged { g with holds := g.holds.put c false } else g

/-- A new base rate (R113). -/
def Governor.setBase (g : Governor) (b : Nat) : Governor := g.rejudged { g with base := b }

/-- The trim floor: X becomes −TRIM_LIMIT (R120). -/
def Governor.floorTrim (g : Governor) (p : FeederParams) : Governor := { g with trim := -(p.trimLimit : Int) }

/-- X brought within ±TRIM_LIMIT (R120). -/
def clampTrim (limit : Nat) (x : Int) : Int := min (max x (-(limit : Int))) limit

/-- A cause is added to the hold set of a train's feeder (R121). -/
def State.addHold (s : State) (t : Train) (c : Hold) : State := s.modGovernor t fun g => g.hold c

/-- A cause is removed from the hold set of a train's feeder (R121). -/
def State.removeHold (s : State) (t : Train) (c : Hold) : State := s.modGovernor t fun g => g.release c

/-- A relief onset or an overload start reported to the Governor: the trim floor, then the hold (R120, R127). -/
def State.floorAndHold (s : State) (t : Train) (c : Hold) : State :=
  (s.modGovernor t fun g => g.floorTrim (s.feeder t)).addHold t c

/-! ### The update (R114 to R119) -/

/-- What an update reads beside the record: the feeder's parameters, SURGE_SLOW, the latest power of the
train's crusher, the latest surge level, and whether the feeder is that of train 0 (R114). -/
structure UpdateInputs where
  params : FeederParams
  surgeSlow : Nat
  power : Option Nat
  level : Option Nat
  primary : Bool
  deriving DecidableEq, Repr

/-- The demand of R116: B + X within [RATE_MIN, RATE_MAX]. -/
def demandOf (p : FeederParams) (base : Nat) (trim : Int) : Nat :=
  clamp p.rateMin p.rateMax ((base : Int) + trim).toNat

/-- The level cap acts: train 0, with a level present and at least SURGE_SLOW (R117). -/
def UpdateInputs.capActs (u : UpdateInputs) : Bool :=
  u.primary && match u.level with
    | none => false
    | some l => u.surgeSlow ≤ l

/-- Step 1, the cap test (R117). -/
def Governor.capTest (g : Governor) (u : UpdateInputs) : Governor :=
  { g with capBound := u.capActs && u.params.slowRate < demandOf u.params g.base g.trim }

/-- X after a trim step against power P (R115). -/
def trimmed (p : FeederParams) (power : Nat) (x : Int) : Int :=
  if p.loadTarget + p.loadBand < power then max (x - p.trimDown) (-(p.trimLimit : Int))
  else if (power : Int) < (p.loadTarget : Int) - p.loadBand then min (x + p.trimUp) p.trimLimit
  else x

/-- Step 2, the trim (R115). -/
def Governor.trimStep (g : Governor) (u : UpdateInputs) : Governor :=
  match u.power with
  | some power =>
    if 0 < g.command && !g.capBound then { g with trim := trimmed u.params power g.trim } else g
  | none => g

/-- Step 3, the demand and its cap (R116, R117). -/
def Governor.demandStep (g : Governor) (u : UpdateInputs) : Governor :=
  let d := demandOf u.params g.base g.trim
  { g with demand := if u.capActs then min d u.params.slowRate else d }

/-- Step 4, the ramp (R118). Step 5, the output: the new C is in force from the next period (R119). -/
def Governor.rampStep (g : Governor) (p : FeederParams) : Governor :=
  { g with
    command :=
      if g.command < g.demand then min g.demand (g.command + p.rampUp)
      else if g.demand < g.command then max g.demand (g.command - p.rampDown)
      else g.command }

/-- The update in RUNNING; HELD and STOPPED change nothing (R114). -/
def Governor.updated (g : Governor) (u : UpdateInputs) : Governor :=
  if g.state = .running then
    (((g.capTest u).trimStep u).demandStep u).rampStep u.params
  else g

/-- What the Governor of a train reads at its update. SURGE_SLOW is as it stands at the update (R117), also where no
level reading has arrived since it was written. R20 and R129 would have a written threshold serve from that arrival:
the choice is the model's (log 28). -/
def State.updateInputs (s : State) (t : Train) : UpdateInputs where
  params := s.feeder t
  surgeSlow := s.line.surgeSlow
  power := (s.inputs.power.get t).map Analog.scaled
  level := s.inputs.surge.map Analog.scaled
  primary := t = .t0

/-- The update timer has expired. -/
def State.updateDue (s : State) (t : Train) : Bool := (s.governor t).updateTimer.expired s.now

/-- UPDATE_EXPIRY: the update, then the timer started again with the UPDATE_INTERVAL in force (R114). -/
def State.updateExpiry (s : State) (t : Train) : State :=
  if s.updateDue t then
    s.modGovernor t fun g =>
      { g.updated (s.updateInputs t) with updateTimer := s.timer (s.feeder t).updateInterval }
  else s

/-! ### Surge level (R124 to R126) -/

/-- Some feeder of trains 1 to 3 holds LEVEL (R126). -/
def State.secondaryLevelHeld (s : State) : Bool :=
  (s.governor .t1).holds.level || (s.governor .t2).holds.level || (s.governor .t3).holds.level

/-- LEVEL is added, with the onset of the line condition where R126 gives one. -/
def State.addLevel (s : State) (t : Train) : State :=
  let first := t = .t0 || !s.secondaryLevelHeld
  let s := s.addHold t .level
  if first then s.onset (if t = .t0 then .surgeHigh else .surgeLow) .line none else s

/-- LEVEL is removed, with the end of the line condition's cause where R126 gives one. -/
def State.removeLevel (s : State) (t : Train) : State :=
  let s := s.removeHold t .level
  if t = .t0 then s.causeEnd .surgeHigh .line
  else if s.secondaryLevelHeld then s else s.causeEnd .surgeLow .line

/-- The Governor of a present train judges LEVEL at a surge level arrival (R124, R125). -/
def State.judgeLevel (level : Nat) (t : Train) (s : State) : State :=
  if !s.present t then s
  else
    let held := (s.governor t).holds.level
    let full : Bool := if t = .t0 then s.line.surgeHigh ≤ level else level ≤ s.line.surgeLow
    let clear : Bool := if t = .t0 then level < s.line.surgeSlow else s.line.surgeResume ≤ level
    if held then (if clear then s.removeLevel t else s) else (if full then s.addLevel t else s)

/-! ### Contacts (R122, R123) -/

/-- CRUSHER_STOPPED follows the running level of the train's crusher (R122). -/
def State.crusherRunningChanged (s : State) (t : Train) (running : Bool) : State :=
  if running then s.removeHold t .crusherStopped else s.addHold t .crusherStopped

/-- CONVEYOR follows a conveyor contact (R123). -/
def State.conveyorHold (running : Bool) (t : Train) (s : State) : State :=
  if running then s.removeHold t .conveyor else s.addHold t .conveyor

/-- A conveyor condition follows its contact (R123). -/
def State.conveyorCondition (s : State) (code : Code) (running : Bool) : State :=
  if running then s.causeEnd code .line else s.onset code .line none

/-! ### Rate output (R119) -/

/-- The duty seen through a polarity, as per mille of a period energized (R70, R119). -/
def Polarity.energized (p : Polarity) (duty : Nat) : Nat :=
  match p with
  | .normal => duty
  | .inverted => 1000 - duty

/-- The rate output of a feeder, as per mille of the period in progress energized (R119). -/
def State.rateOutput (s : State) (t : Train) : Nat :=
  if s.powered then (s.feeder t).outputPolarity.energized (s.governor t).output.duty else 0

/-- One millisecond of a PWM output: at the end of a period the commanded duty comes into force (log 12). -/
def Pwm.tick (w : Pwm) (period commanded : Nat) : Pwm :=
  if period ≤ w.phase + 1 then ⟨commanded, 0⟩ else ⟨w.duty, w.phase + 1⟩

/-- One millisecond of a rate output (R119). -/
def Governor.tick (g : Governor) : Governor := { g with output := g.output.tick Config.ratePeriod g.command }

end Sys2Proof.Machine
end

