-- ==== Sys2Proof/Machine/Driving.lean ====
section
/-! DEFINITION. Machine/Driving.lean: the valve drive, the dead-time rule and the start of a move, of
chapter 4. -/

namespace Sys2Proof.Machine

/-! ### Error, direction and duty (R72) -/

/-- The error e = T − G; none while the measured gap is absent (R72). -/
def State.gapError (s : State) (t : Train) : Option Int :=
  (s.gap t).gap.map fun g => ((s.station (crusherOf t)).standing.target : Int) - (g : Int)

/-- The error lies within a band; an absent gap counts as within it (R72). -/
def withinBand (band : Nat) : Option Int → Bool
  | none => true
  | some e => e.natAbs ≤ band

/-- The settle band S (R72). -/
def CrusherParams.settleBand (p : CrusherParams) : Nat := p.deadband / 2

/-- The direction of a move: OPEN when e > 0 (R72). -/
def moveDirection (e : Int) : Direction := if 0 < e then .opening else .closing

/-- The duty of a move (R72). -/
def CrusherParams.moveDuty (p : CrusherParams) (e : Int) : Nat :=
  min p.dutyMax (max p.dutyMin (e.natAbs * p.kp / 16))

/-- The error of a crusher lies within its settle band. -/
def State.settled (s : State) (t : Train) : Bool := withinBand (s.crusher t).settleBand (s.gapError t)

/-! ### The drive (R70, R71) -/

/-- The drive goes off if it is on, and the last drive end is written (R70). -/
def Positioner.driveOff (now : Nat) (p : Positioner) : Positioner :=
  match p.drive with
  | none => p
  | some d => { p with drive := none, lastEnd := ⟨now, some d.direction⟩, valve := ⟨0, 0⟩ }

/-- A drive in a direction may begin now: the last drive end has that direction, or DEAD_TIME ms have passed
since it (R71). -/
def Positioner.mayBegin (p : Positioner) (now deadTime : Nat) (direction : Direction) : Bool :=
  p.lastEnd.direction = some direction || deadTime ≤ elapsed now p.lastEnd.uptime

/-- The drive begins, and no drive is pending (R71). -/
def Positioner.driveOn (p : Positioner) (direction : Direction) (duty : Nat) : Positioner :=
  { p with drive := some ⟨direction, duty⟩, pendingDrive := none, valve := ⟨duty, 0⟩ }

/-- A drive is asked for while the drive is off: it begins at once, or becomes the pending drive until the
dead time has passed since the last drive end (R71). -/
def Positioner.ask (p : Positioner) (now deadTime : Nat) (direction : Direction) (duty : Nat) : Positioner :=
  if p.mayBegin now deadTime direction then p.driveOn direction duty
  else { p with pendingDrive := some ⟨direction, duty, ⟨p.lastEnd.uptime, deadTime⟩⟩ }

/-- A drive is asked for in jogging and lending: the same direction takes the new duty, the other direction
first switches the drive off (R71, R87, R90). -/
def Positioner.askDrive (p : Positioner) (now deadTime : Nat) (direction : Direction) (duty : Nat) :
    Positioner :=
  match p.drive with
  | none => p.ask now deadTime direction duty
  | some d =>
    if d.direction = direction then { p with drive := some ⟨direction, duty⟩ }
    else (p.driveOff now).ask now deadTime direction duty

/-- The pending drive is discarded (R71). -/
def Positioner.discardPending (p : Positioner) : Positioner := { p with pendingDrive := none }

/-- To begin driving in a move: the drive of R72 is asked for, and the state is DRIVING or DEAD_TIME (R75). -/
def Positioner.askMove (p : Positioner) (now : Nat) (params : CrusherParams) (e : Int) : Positioner :=
  let p := p.ask now params.deadTime (moveDirection e) (params.moveDuty e)
  { p with state := if p.drive.isSome then .driving else .deadTime }

/-- The move timer starts, with the full MOVE_LIMIT, and the drive of the move is asked for (R73, R74). -/
def State.driveMove (s : State) (t : Train) (e : Int) : State :=
  s.modPositioner t fun p =>
    { p with moveTimer := some (s.timer ((s.crusher t).moveLimit * 1000)) }.askMove s.now (s.crusher t) e

/-- A move starts (R73). -/
def State.startMove (s : State) (t : Train) (e : Int) : State :=
  let params := s.crusher t
  let s := s.modPositioner t fun p => { p with move := some ⟨s.now, params.loadAdjust⟩ }
  if params.loadAdjust then (s.removeHold t .gapMove).driveMove t e
  else
    let s := s.addHold t .gapMove
    if params.drainTime = 0 then s.driveMove t e
    else
      s.modPositioner t fun p =>
        { p with state := .draining, drainTimer := some (s.timer (params.drainTime * 1000)) }

/-- A move starts if the error lies outside the settle band; otherwise something else is done. -/
def State.startMoveOr (s : State) (t : Train) (otherwise : State → State) : State :=
  match s.gapError t with
  | none => otherwise s
  | some e => if e.natAbs ≤ (s.crusher t).settleBand then otherwise s else s.startMove t e

/-- A new standing target reaches a Positioner in IDLE: a move starts if |e| > S (R79). -/
def State.retargetIdle (t : Train) (s : State) : State :=
  if (s.positioner t).state = .idle then s.startMoveOr t id else s

/-! ### Valve outputs (R70) -/

/-- The duty of the output of one direction: that of the drive while it is on in that direction. -/
def Positioner.outputDuty (p : Positioner) (direction : Direction) : Nat :=
  match p.drive with
  | none => 0
  | some d => if d.direction = direction then p.valve.duty else 0

/-- A valve output is active (R70). -/
def Positioner.outputActive (p : Positioner) (direction : Direction) : Bool :=
  match p.drive with
  | none => false
  | some d => d.direction = direction

/-- The polarity of a valve output. -/
def CrusherParams.polarity (p : CrusherParams) : Direction → Polarity
  | .opening => p.openPolarity
  | .closing => p.closePolarity

/-- A valve output, as per mille of the period in progress energized (R70); de-energized before the start
(section 9.4). -/
def State.valveOutput (s : State) (t : Train) (direction : Direction) : Nat :=
  if s.powered then
    ((s.crusher t).polarity direction).energized ((s.positioner t).outputDuty direction)
  else 0

/-- One millisecond of a valve output: a changed duty is in force from the next period (R70). -/
def Positioner.tickValve (p : Positioner) : Positioner :=
  match p.drive with
  | none => p
  | some d => { p with valve := p.valve.tick Config.valvePeriod d.duty }

end Sys2Proof.Machine
end

