-- ==== Sys2Proof/Machine/Boarding.lean ====
section
/-! DEFINITION. Machine/Boarding.lean: the accepting predicate and the writing of standing settings of
chapter 1, and the Request Board of chapter 2. Applying a setting reports a changed target; what a Positioner
does with the report is a parameter here (`report`), since the arrival of a Positioner in IDLE may itself run
a selection (R139). -/

namespace Sys2Proof.Machine

/-! ### The accepting predicate (R6, R7, R8) -/

/-- The relief state lets a crusher accept (R7). -/
def ReliefState.accepts : ReliefState → Bool
  | .normal | .restoring => true
  | .relieving | .clearing => false

/-- The accepting predicate of a feeder (R6) and of a crusher (R7). -/
def State.accepting (s : State) (st : Station) : Bool :=
  s.present st.train && (s.station st).mode = .run &&
    match st.role with
    | .feeder => true
    | .crusher =>
      (s.zero st.train).valid && (s.gap st.train).validity = .valid &&
        (s.supervisor st.train).relief.accepts && (s.positioner st.train).state ≠ .fault

/-! ### Standing settings -/

/-- A value brought within a station's limits (R21, R32): a feeder's 0 stands as 0. -/
def State.limited (s : State) (st : Station) (v : Nat) : Nat :=
  match st.role with
  | .crusher => clamp (s.crusher st.train).gapMin (s.crusher st.train).gapMax v
  | .feeder => if v = 0 then 0 else clamp (s.feeder st.train).rateMin (s.feeder st.train).rateMax v

/-- A standing setting is written, and the new target reported if it differs from the one before (R2). -/
def State.writeStandingWith (report : Train → State → State) (s : State) (st : Station)
    (standing : Standing) : State :=
  let old := (s.station st).standing.target
  let s := s.modStation st fun r => { r with standing := standing }
  if standing.target = old then s
  else
    match st.role with
    | .feeder => s.modGovernor st.train fun g => g.setBase standing.target
    | .crusher => report st.train s

/-- To apply a request: the standing setting and the last-applied record are written (R36). -/
def State.applyWith (report : Train → State → State) (s : State) (r : Slot) : State :=
  (s.modStation r.station fun rec => { rec with lastApplied := some ⟨r.source, r.tag⟩ }).writeStandingWith
    report r.station
    ⟨s.limited r.station r.value, r.priority, .request r.source r.tag r.sequence, r.keep⟩

/-! ### Outrank and selection (R29, R42) -/

/-- A request outranks a standing setting (R29). -/
def outranks (priority sequence : Nat) (standing : Standing) : Bool :=
  standing.priority < priority ||
    (priority = standing.priority &&
      match standing.origin with
      | .start => true
      | .request _ _ q => q < sequence)

/-- One waiting slot is better than another (R29). -/
def Slot.better (a b : Slot) : Bool :=
  b.priority < a.priority || (a.priority = b.priority && b.sequence < a.sequence)

/-- The best waiting slot of a station and its number, counting from i (R42). -/
def bestSlot (st : Station) : Nat → List (Option Slot) → Option (Nat × Slot)
  | _, [] => none
  | i, none :: rest => bestSlot st (i + 1) rest
  | i, some r :: rest =>
    if r.station = st then
      match bestSlot st (i + 1) rest with
      | none => some (i, r)
      | some (j, r') => if r'.better r then some (j, r') else some (i, r)
    else bestSlot st (i + 1) rest

/-- A slot is freed. -/
def State.freeSlot (s : State) (i : Nat) : State :=
  s.withBoard { s.board with slots := s.board.slots.set i none }

/-- Selection for a station: the best waiting slot is applied and freed if it outranks the standing
setting (R42). -/
def State.selectWith (report : Train → State → State) (s : State) (st : Station) : State :=
  match bestSlot st 0 s.board.slots with
  | none => s
  | some (i, r) =>
    if outranks r.priority r.sequence (s.station st).standing then
      (s.freeSlot i).applyWith report r
    else s

/-- The predicate evaluated again: going from false to true runs selection (R8). -/
def State.evaluateWith (report : Train → State → State) (s : State) (st : Station) : State :=
  let was := (s.station st).lastAccepting
  let is := s.accepting st
  let s := s.modStation st fun r => { r with lastAccepting := is }
  if is && !was then s.selectWith report st else s

/-! ### Slots (R25, R26, R33, R46) -/

/-- Every waiting slot that satisfies a test is freed. -/
def Board.freeWhere (b : Board) (gone : Slot → Bool) : Board :=
  { b with slots := b.slots.map fun o =>
      match o with
      | none => none
      | some r => if gone r then none else some r }

/-- A waiting slot satisfies a test. -/
def Board.anyWaiting (b : Board) (p : Slot → Bool) : Bool :=
  b.slots.any fun o =>
    match o with
    | none => false
    | some r => p r

/-- The slot is a link's for a station (R33). -/
def Slot.isOf (l : Link) (st : Station) (r : Slot) : Bool := r.source = l && r.station = st

/-- The lowest-numbered free slot (R26). -/
def Board.lowestFree (b : Board) : Option Nat := b.slots.findIdx? Option.isNone

/-- The slots of a station, for R46 and R48. -/
def Slot.isFor (st : Station) (r : Slot) : Bool := r.station = st

/-- Every waiting slot of a station is freed (R12, R46). -/
def State.removeSlots (s : State) (st : Station) : State :=
  s.withBoard (s.board.freeWhere (Slot.isFor st))

/-! ### Renumbering (R28) -/

/-- The sequence of a standing setting, absent for START (R2). -/
def Standing.sequence (st : Standing) : Option Nat :=
  match st.origin with
  | .start => none
  | .request _ _ q => some q

/-- The live sequence numbers: those of the waiting slots and of the standing settings whose source is
not START (R28). -/
def State.liveNumbers (s : State) : List Nat :=
  (s.board.slots.filterMap fun o => o.map Slot.sequence) ++
    (Station.all.filterMap fun st => (s.station st).standing.sequence)

/-- The place of a number among the live ones, the lowest 1 (R28). -/
def rankIn (live : List Nat) (q : Nat) : Nat := (live.filter fun x => x < q).length + 1

/-- A standing setting with its number replaced by its rank. -/
def Standing.renumbered (live : List Nat) (st : Standing) : Standing :=
  match st.origin with
  | .start => st
  | .request l tag q => { st with origin := .request l tag (rankIn live q) }

/-- Every live sequence number is renumbered 1 to n in its old order, and the counter takes n + 1 (R28). -/
def State.renumber (s : State) : State :=
  let live := s.liveNumbers
  let record (r : StationRecord) : StationRecord := { r with standing := r.standing.renumbered live }
  { s with
    board := {
      slots := s.board.slots.map fun o => o.map fun r => { r with sequence := rankIn live r.sequence }
      counter := live.length + 1 }
    feeders := s.feeders.map record
    crushers := s.crushers.map record }

end Sys2Proof.Machine
end

