-- ==== Sys2Proof/Machine/Moving.lean ====
section
/-! DEFINITION. Machine/Moving.lean: the Positioner's moves, suspension, jogs and lending of chapter 4, the
end of a relief episode that its arrival in IDLE brings (R139), and with them the applying of settings. -/

namespace Sys2Proof.Machine

/-! ### Arrival in IDLE -/

/-- The relief episode ends (R139). The Positioner is in IDLE then, so a target that the selection applies
reaches it there. -/
def State.endEpisode (s : State) (t : Train) : State :=
  let s := s.modSupervisor t fun v => { v with relief := .normal }
  let s := (s.removeHold t .relief).causeEnd .relief (.crusher t)
  s.evaluateWith State.retargetIdle (crusherOf t)

/-- The Positioner's arrival in IDLE is reported to the Supervisor (R78 step 5, R139). -/
def State.arriveIdle (s : State) (t : Train) : State :=
  if (s.supervisor t).relief = .restoring then s.endEpisode t else s

/-- The Positioner enters IDLE, removes GAP_MOVE and reports the arrival (R78 steps 3 to 5). -/
def State.enterIdle (s : State) (t : Train) : State :=
  ((s.modPositioner t fun p => { p with state := .idle, move := none }).removeHold t .gapMove).arriveIdle t

/-- The duration written at the end of a move (R78 step 2). -/
def Positioner.moveDuration (p : Positioner) (now : Nat) : Option Nat :=
  match p.move with
  | none => p.lastDuration
  | some m => some (min (elapsed now m.start) Config.maxMoveDuration)

/-- A move ends in IDLE (R78). -/
def State.endMove (s : State) (t : Train) : State :=
  (s.modPositioner t fun p =>
    { (p.driveOff s.now).discardPending with
      moveTimer := none
      lastDuration := p.moveDuration s.now }).enterIdle t

/-! ### Suspension, resume and jogs (R83, R84, R89) -/

/-- The Positioner resumes: a fresh move, or IDLE (R84). -/
def State.resume (s : State) (t : Train) : State := s.startMoveOr t fun s => s.enterIdle t

/-- The drive goes off, any pending drive is discarded and the jog record becomes absent (R89). -/
def Positioner.dropJog (now : Nat) (p : Positioner) : Positioner :=
  { (p.driveOff now).discardPending with jog := none }

/-- A jog ends other than by lending: SUSPENDED, or a resume when no reason is held (R89). -/
def State.endJog (s : State) (t : Train) : State :=
  let s := s.modPositioner t fun p => { p.dropJog s.now with state := .suspended }
  if (s.positioner t).reasons.isEmpty then s.resume t else s

/-- A running jog of the crusher ends (R11, R23). -/
def State.endRunningJog (s : State) (t : Train) : State :=
  if (s.positioner t).state = .jogging then s.endJog t else s

/-- A Positioner with an empty reason set is suspended (R83). -/
def Positioner.suspend (now : Nat) (p : Positioner) : Positioner :=
  match p.state with
  | .idle => { p with state := .suspended }
  | .draining => { p with state := .suspended, drainTimer := none }
  | .driving => { p.driveOff now with state := .suspended, moveTimer := none }
  | .deadTime => { p.discardPending with state := .suspended, moveTimer := none }
  | .suspended | .fault | .jogging | .lent => p

/-- ESTOP and RELIEF end a jog (R83). -/
def Reason.endsJog : Reason → Bool
  | .estop | .relief => true
  | .mode | .position | .noZero => false

/-- A reason is added to the set of a crusher's Positioner (R69, R83). -/
def State.addReason (s : State) (t : Train) (r : Reason) : State :=
  let p := s.positioner t
  if p.reasons.has r then s
  else
    let s := s.modPositioner t fun p =>
      { (if p.reasons.isEmpty then p.suspend s.now else p) with reasons := p.reasons.put r true }
    if p.state = .jogging && r.endsJog then s.endJog t else s

/-- A reason is removed; the last one removed in SUSPENDED resumes the Positioner (R69, R84). -/
def State.removeReason (s : State) (t : Train) (r : Reason) : State :=
  let p := s.positioner t
  if !p.reasons.has r then s
  else
    let s := s.modPositioner t fun p => { p with reasons := p.reasons.put r false }
    if p.state = .suspended && (p.reasons.put r false).isEmpty then s.resume t else s

/-! ### Samples and retargets (R77, R79) -/

/-- DRIVING judged at a sample or a retarget, outside the settle band: a reversal, or a new duty (R77). -/
def Positioner.steer (now : Nat) (params : CrusherParams) (e : Int) (p : Positioner) : Positioner :=
  match p.drive with
  | none => p
  | some d =>
    if d.direction = moveDirection e then { p with drive := some ⟨d.direction, params.moveDuty e⟩ }
    else (p.driveOff now).askMove now params e

/-- DEAD_TIME judged at a sample or a retarget, outside the settle band: the pending direction reversed and
judged again, or a new pending duty (R77). -/
def Positioner.steerPending (now : Nat) (params : CrusherParams) (e : Int) (p : Positioner) : Positioner :=
  match p.pendingDrive with
  | none => p
  | some d =>
    if d.direction = moveDirection e then
      { p with pendingDrive := some ⟨d.direction, params.moveDuty e, d.deadTime⟩ }
    else p.askMove now params e

/-- A move judged in DRIVING or DEAD_TIME (R77). -/
def State.judgeMove (s : State) (t : Train) (steer : Nat → CrusherParams → Int → Positioner → Positioner) :
    State :=
  match s.gapError t with
  | none => s.endMove t
  | some e =>
    if e.natAbs ≤ (s.crusher t).settleBand then s.endMove t
    else s.modPositioner t (steer s.now (s.crusher t) e)

/-- The move timer is started again with the full MOVE_LIMIT (R79). -/
def State.restartMoveTimer (s : State) (t : Train) : State :=
  s.modPositioner t fun p => { p with moveTimer := some (s.timer ((s.crusher t).moveLimit * 1000)) }

/-- A new standing target reported to the Positioner (R79). -/
def State.retarget (t : Train) (s : State) : State :=
  match (s.positioner t).state with
  | .idle => s.retargetIdle t
  | .driving => (s.restartMoveTimer t).judgeMove t Positioner.steer
  | .deadTime => (s.restartMoveTimer t).judgeMove t Positioner.steerPending
  | .draining | .suspended | .fault | .jogging | .lent => s

/-- The drift test of IDLE (R77). -/
def State.driftTest (s : State) (t : Train) : State :=
  match s.gapError t with
  | none => s
  | some e => if e.natAbs ≤ (s.crusher t).deadband then s else s.startMove t e

/-- What a Positioner does at a sample, by its state (R77). -/
def State.sampleAction (s : State) (t : Train) : State :=
  match (s.positioner t).state with
  | .idle => s.driftTest t
  | .driving => s.judgeMove t Positioner.steer
  | .deadTime => s.judgeMove t Positioner.steerPending
  | .draining | .suspended | .fault | .jogging | .lent => s

/-- SAMPLE_EXPIRY: the action of the state, then the timer started again (R68, R77). -/
def State.sampleExpiry (s : State) (t : Train) : State :=
  if (s.positioner t).sampleTimer.expired s.now then
    (s.sampleAction t).modPositioner t fun p =>
      { p with sampleTimer := s.timer (s.crusher t).sampleInterval }
  else s

/-! ### Applying, selecting and evaluating -/

/-- A standing setting is written and a changed target reported (R2). -/
def State.writeStanding (s : State) (st : Station) (standing : Standing) : State :=
  s.writeStandingWith State.retarget st standing

/-- A request is applied (R36). -/
def State.apply (s : State) (r : Slot) : State := s.applyWith State.retarget r

/-- Selection for a station (R42). -/
def State.select (s : State) (st : Station) : State := s.selectWith State.retarget st

/-- The accepting predicate is evaluated again (R8). -/
def State.evaluate (s : State) (st : Station) : State := s.evaluateWith State.retarget st

/-! ### Drain, dead time, move timer (R74, R76, R80, R81) -/

/-- DRAIN_EXPIRY (R74). -/
def State.drainExpiry (s : State) (t : Train) : State :=
  if (s.positioner t).state = .draining && timerExpired (s.positioner t).drainTimer s.now then
    let s := s.modPositioner t fun p => { p with drainTimer := none }
    match s.gapError t with
    | none => s.endMove t
    | some e => if e.natAbs ≤ (s.crusher t).settleBand then s.endMove t else s.driveMove t e
  else s

/-- The dead time of a pending drive has passed (R71). -/
def State.deadTimeDue (s : State) (t : Train) : Bool :=
  match (s.positioner t).pendingDrive with
  | none => false
  | some d => d.deadTime.expired s.now

/-- The pending drive begins; a move enters DRIVING (R76). -/
def Positioner.beginPending (p : Positioner) : Positioner :=
  match p.pendingDrive with
  | none => p
  | some d =>
    { p.driveOn d.direction d.duty with
      state := if p.state = .deadTime then .driving else p.state }

/-- The drive-begins report of a lent drive: in APPROACH contact is armed (R90, R100). -/
def State.driveBegan (s : State) : State :=
  if s.sequencer.state = .approach then s.modSequencer fun q => { q with armed := true } else s

/-- DEAD_TIME_EXPIRY, for a move, a jog or a lent drive (R71, R76). -/
def State.deadTimeExpiry (s : State) (t : Train) : State :=
  if s.deadTimeDue t then
    let lent := (s.positioner t).state = .lent
    let s := s.modPositioner t Positioner.beginPending
    if lent then s.driveBegan else s
  else s

/-- The Positioner enters FAULT with its drive off and any pending drive discarded; the move is kept (R80). -/
def Positioner.timeOut (now : Nat) (p : Positioner) : Positioner :=
  { (p.driveOff now).discardPending with state := .fault, moveTimer := none }

/-- MOVE_TIMER_EXPIRY (R80). -/
def State.moveTimerExpiry (s : State) (t : Train) : State :=
  let p := s.positioner t
  if (p.state = .driving || p.state = .deadTime) && timerExpired p.moveTimer s.now then
    let s := (s.modPositioner t (Positioner.timeOut s.now)).evaluate (crusherOf t)
    (s.onset .moveTimeout (.crusher t) none).causeEnd .moveTimeout (.crusher t)
  else s

/-- The FAULT latch is cleared, and the Table told that FAULT is left (R81). -/
def State.clearFault (s : State) (t : Train) : State :=
  if (s.positioner t).state = .fault then
    let s :=
      if (s.positioner t).reasons.isEmpty then s.resume t
      else s.modPositioner t fun p => { p with state := .suspended }
    s.evaluate (crusherOf t)
  else s

/-! ### Jog and first reading (R87, R88, R92) -/

/-- A CLOSE jog has closed far enough: the measured gap is present and at most GAP_MIN (R87, R88). -/
def State.closeJogDone (s : State) (t : Train) : Bool :=
  match (s.positioner t).jog, (s.gap t).gap with
  | some j, some g => j.direction = .closing && g ≤ (s.crusher t).gapMin
  | _, _ => false

/-- A jog taken: the record written, JOGGING entered or kept, and the drive asked for, unless the jog ends
at once (R87). -/
def State.startJog (s : State) (t : Train) (direction : Direction) (duty duration : Nat) : State :=
  let s := s.modPositioner t fun p => { p with jog := some ⟨direction, duty, duration⟩, state := .jogging }
  if s.closeJogDone t then s.endJog t
  else s.modPositioner t fun p => p.askDrive s.now (s.crusher t).deadTime direction duty

/-- A CLOSE jog judged at a position arrival (R88). -/
def State.judgeJog (s : State) (t : Train) : State :=
  if (s.positioner t).state = .jogging && s.closeJogDone t then s.endJog t else s

/-- The jog's drive has run its time (R88). -/
def State.jogDue (s : State) (t : Train) : Bool :=
  (s.positioner t).state = .jogging &&
    match (s.positioner t).jog with
    | none => false
    | some j => j.remaining = 0

/-- JOG_TIME_END (R88, R89). -/
def State.jogTimeEnd (s : State) (t : Train) : State := if s.jogDue t then s.endJog t else s

/-- One millisecond of a jog: its remaining time decreases while its drive is on (R88). -/
def Positioner.tickJog (p : Positioner) : Positioner :=
  match p.jog with
  | none => p
  | some j =>
    if p.drive.isSome && p.state = .jogging then { p with jog := some { j with remaining := j.remaining - 1 } }
    else p

/-- The first position reading rewrites the crusher's START target (R92). -/
def State.firstReading (s : State) (t : Train) : State :=
  let p := s.crusher t
  let target := match (s.gap t).gap with
    | some g => clamp p.gapMin p.gapMax g
    | none => p.gapMax
  s.writeStanding (crusherOf t) (Standing.start target)

/-! ### Lending (R90) -/

/-- The drive is lent: a running jog ends first, and the Positioner enters LENT (R90, R98). -/
def State.lendDrive (s : State) (t : Train) : State :=
  s.modPositioner t fun p =>
    { (if p.state = .jogging then p.dropJog s.now else p) with state := .lent }

/-- The Sequencer asks the lent drive for a direction at CREEP_DUTY; a drive that begins at once is
reported (R90, R99). -/
def State.askLent (s : State) (t : Train) (direction : Direction) : State :=
  let params := s.crusher t
  let before := ((s.positioner t).drive.map Drive.direction)
  let s := s.modPositioner t fun p => p.askDrive s.now params.deadTime direction params.creepDuty
  if (s.positioner t).drive.isSome && before ≠ some direction then s.driveBegan else s

/-- The Sequencer returns the drive: it goes off, any pending drive is discarded, and the Positioner enters
SUSPENDED (R90). -/
def State.returnDrive (s : State) (t : Train) : State :=
  s.modPositioner t fun p => { (p.driveOff s.now).discardPending with state := .suspended }

end Sys2Proof.Machine
end

