-- ==== Sys2Proof/Machine/Storing.lean ====
section
/-! DEFINITION. Machine/Storing.lean: the Calibration Store of section 9.3. -/

namespace Sys2Proof.Machine

/-- The working values of a section as they stand (R164, R165). -/
def State.sectionContents (s : State) : StoreSection → WriteJob
  | .profile => .profile ⟨s.line, s.crusherParams, s.feederParams⟩
  | .zero => .zero (s.zeros.map fun z => ⟨z.z, z.valid, z.outcome⟩)
  | .wear => .wear (s.gaps.map fun g => ⟨g.wear, g.tenths⟩)

/-- The first dirty section in the order ZERO, WEAR, PROFILE (R165). -/
def DirtySet.first (d : DirtySet) : Option StoreSection :=
  if d.zero then some .zero else if d.wear then some .wear else if d.profile then some .profile else none

/-- A write starts from IDLE when the dirty set is not empty, and none after a RESTART is taken (R165, R170). -/
def State.startWrite (s : State) : State :=
  if s.store.writing.isSome || s.restart ≠ .notTaken then s
  else
    match s.store.dirty.first with
    | none => s
    | some sec =>
      s.withStore { s.store with
        dirty := s.store.dirty.put sec false
        writing := some (s.sectionContents sec) }

/-- A section is marked dirty; a mark taken in IDLE starts a write (R165). -/
def State.mark (s : State) (sec : StoreSection) : State :=
  (s.withStore { s.store with dirty := s.store.dirty.put sec true }).startWrite

/-- A section takes the contents of a write, with their check value (R166). -/
def Store.written (st : Store) : WriteJob → Store
  | .profile p => { st with profile := some (.make Profile.bytes p) }
  | .zero z => { st with zero := some (.make zeroBytes z) }
  | .wear w => { st with wear := some (.make wearBytes w) }

/-- A section whose write is cut short by loss of power fails its check (R164). -/
def Store.cutShort (st : Store) : Store :=
  match st.writing with
  | none => st
  | some (.profile p) => { st with profile := some (.torn Profile.bytes p) }
  | some (.zero z) => { st with zero := some (.torn zeroBytes z) }
  | some (.wear w) => { st with wear := some (.torn wearBytes w) }

/-- The completion of the write in progress (R166); with no write in progress there is none. -/
def State.writeCompleted (s : State) (success : Bool) : State :=
  match s.store.writing with
  | none => s
  | some job =>
    if success then
      let s := s.withStore { s.store.written job with writing := none }
      (s.causeEnd .storeFault (.storeSection job.sec)).startWrite
    else
      let s := s.withStore { s.store with
        dirty := s.store.dirty.put job.sec true
        writing := none }
      s.onset .storeFault (.storeSection job.sec) (some (.storeSection job.sec))

end Sys2Proof.Machine
end

