-- ==== Sys2Proof/Machine/Touching.lean ====
section
/-! DEFINITION. Machine/Touching.lean: the Zero Touch Sequencer of chapter 5 and the wear limit of R65. -/

namespace Sys2Proof.Machine

/-- WEAR_LIMIT stands: W is at least WEAR_LIMIT × 100 (R65). -/
def State.wearLimitStands (s : State) (t : Train) : Bool := (s.crusher t).wearLimit * 100 ≤ (s.gap t).wear

/-- WEAR_LIMIT judged at a change of W or of the limit: its onset when the inequality starts to hold, its
end when it stops (R65; log 18). -/
def State.judgeWearLimit (s : State) (t : Train) (stoodBefore : Bool) : State :=
  let stands := s.wearLimitStands t
  if stands && !stoodBefore then s.onset .wearLimit (.crusher t) none
  else if !stands && stoodBefore then s.causeEnd .wearLimit (.crusher t)
  else s

/-! ### The end of a touch -/

/-- The duration of the touch that runs (R95). -/
def State.touchDuration (s : State) : Nat :=
  match s.sequencer.start with
  | none => 0
  | some u => elapsed s.now u

/-- The zero of a record while it is valid. -/
def ZeroRecord.zeroNow (z : ZeroRecord) : Option Nat := if z.valid then some z.z else none

/-- The touch ends: the drive is returned, the Sequencer enters IDLE, and CALIBRATION is removed (R103). -/
def State.endTouch (s : State) (t : Train) : State :=
  ((s.returnDrive t).modSequencer fun _ => Sequencer.atStart).removeHold t .calibration

/-- A running touch is aborted (R107). -/
def State.abortTouch (s : State) (t : Train) (result : TouchResult) : State :=
  let outcome : TouchOutcome :=
    { result := result
      zBefore := (s.zero t).zeroNow
      zAfter := (s.zero t).zeroNow
      wearFound := none
      wear := (s.gap t).wear
      duration := s.touchDuration
      stamp := s.stamp }
  let s := s.modSequencer fun q => { q with dwellTimer := none }
  let s := s.modZero t fun z => { z with outcome := some outcome, aborted := true }
  let s := s.onset .zeroAborted (.crusher t) (some (.result result))
  let s := s.causeEnd .zeroAborted (.crusher t)
  (s.endTouch t).mark .zero

/-- An event that aborts the touch of a crusher; it does nothing when the crusher is not the subject
(R106). -/
def State.abortIfSubject (s : State) (t : Train) (result : TouchResult) : State :=
  if s.isSubject t then s.abortTouch t result else s

/-- The E-stop aborts a running touch on whichever crusher (R85, R106). -/
def State.abortRunning (s : State) (result : TouchResult) : State :=
  match s.sequencer.subject with
  | none => s
  | some t => s.abortTouch t result

/-- The wear found: worked from the zero and the contact, held to ±3000 (R103). -/
def wearFoundOf (gain z contact : Nat) : Int :=
  if contact ≤ z then min (((z - contact) * gain / 1024 : Nat) : Int) 3000
  else max (-(((contact - z) * gain / 1024 : Nat) : Int)) (-3000)

/-- The distance between a contact and a zero. -/
def shiftOf (z contact : Nat) : Nat := if contact ≤ z then z - contact else contact - z

/-- An accepted touch, before it ends (R104). Where the zero was valid before, the gap present until now is made
absent, as R104 step 5 says; R61 and R62 would keep it unchanged until the next position arrival. The choice is
the model's (log 27). -/
def State.acceptTouch (s : State) (t : Train) (contact : Nat) : State :=
  let zero := s.zero t
  let outcome : TouchOutcome :=
    { result := .accepted
      zBefore := zero.zeroNow
      zAfter := some contact
      wearFound := if zero.valid then some (wearFoundOf (s.crusher t).gain zero.z contact) else none
      wear := (s.gap t).wear
      duration := s.touchDuration
      stamp := s.stamp }
  let limitStood := s.wearLimitStands t
  let s := s.modZero t fun z => { z with outcome := some outcome, z := contact, valid := true }
  let s := s.modGap t fun g => { g with wear := 0, gap := none }
  let s := (s.mark .zero).mark .wear
  let s := (s.removeReason t .noZero).evaluate (crusherOf t)
  let s := if zero.valid then s else s.causeEnd .zeroUnset (.crusher t)
  s.judgeWearLimit t limitStood

/-- A rejected touch, before it ends (R105). -/
def State.rejectTouch (s : State) (t : Train) (contact : Nat) : State :=
  let zero := s.zero t
  let outcome : TouchOutcome :=
    { result := .rejectedShift
      zBefore := some zero.z
      zAfter := some zero.z
      wearFound := some (wearFoundOf (s.crusher t).gain zero.z contact)
      wear := (s.gap t).wear
      duration := s.touchDuration
      stamp := s.stamp }
  let s := s.modZero t fun z => { z with outcome := some outcome, rejected := true }
  let s := s.onset .zeroRejected (.crusher t) none
  s.causeEnd .zeroRejected (.crusher t)

/-- COMMIT: the contact is judged, the touch accepted or rejected, and ended (R103). ZERO is marked dirty at
either end: by R104 for an accepted touch, after the end for a rejected one. -/
def State.commitTouch (s : State) (t : Train) (contact : Nat) : State :=
  let s := s.modSequencer fun q => { q with state := .commit }
  if (s.zero t).valid && (s.crusher t).zeroShiftMax < shiftOf (s.zero t).z contact then
    ((s.rejectTouch t contact).endTouch t).mark .zero
  else (s.acceptTouch t contact).endTouch t

/-! ### The course of a touch -/

/-- A touch starts on a crusher (R98). -/
def State.startTouch (s : State) (t : Train) : State :=
  let limit := s.timer ((s.crusher t).zeroTimeLimit * 1000)
  let s := s.modSequencer fun _ =>
    { Sequencer.atStart with
      state := .approach
      subject := some t
      limitTimer := some limit
      start := some s.now }
  ((s.lendDrive t).addHold t .calibration).askLent t .closing

/-- The conditions of the fourth check of START ZERO hold (R97). -/
def State.touchPossible (s : State) (t : Train) : Bool :=
  (s.station (crusherOf t)).mode = .maintenance &&
    (s.positioner t).state ≠ .fault &&
    !s.estopAsserted &&
    (s.supervisor t).relief = .normal &&
    (s.gap t).validity = .valid &&
    (s.inputs.running.get t).energized &&
    match s.inputs.power.get t with
    | none => false
    | some a => a.scaled ≤ (s.crusher t).emptyPower

/-- A pressure arrival of the subject judged for contact (R100, R101). -/
def State.judgeContact (s : State) (t : Train) (pressure : Nat) : State :=
  if !s.isSubject t then s
  else
    match s.sequencer.state with
    | .approach =>
      if s.sequencer.armed && (s.crusher t).contactLevel ≤ pressure then
        s.modSequencer fun q =>
          { q with state := .dwell, dwellTimer := some (s.timer (s.crusher t).contactDwell) }
      else s
    | .dwell =>
      if pressure < (s.crusher t).contactLevel then
        s.modSequencer fun q => { q with state := .approach, dwellTimer := none }
      else s
    | .idle | .backoff | .commit => s

/-- A power arrival of the subject judged for load, in APPROACH alone (R100). -/
def State.judgeLoad (s : State) (t : Train) (power : Nat) : State :=
  if s.isSubject t && s.sequencer.state = .approach && (s.crusher t).emptyPower < power then
    s.abortTouch t .abortedLoaded
  else s

/-- The backoff distance in counts (R102). -/
def CrusherParams.backoffDistance (p : CrusherParams) : Nat := ceilDiv (p.backoff * 1024) p.gain

/-- DWELL_EXPIRY (R101, R102). The backoff distance takes the GAIN in force, also where no position reading has
arrived since it was written (R20): the model's choice (log 26). -/
def State.dwellExpiry (s : State) : State :=
  match s.sequencer.subject with
  | none => s
  | some t =>
    if s.sequencer.state = .dwell && timerExpired s.sequencer.dwellTimer s.now then
      match s.inputs.position.get t with
      | none => s
      | some p =>
        (s.modSequencer fun q =>
          { q with
            state := .backoff
            dwellTimer := none
            contact := some p
            target := some (p + (s.crusher t).backoffDistance) }).askLent t .opening
    else s

/-- A good position arrival in BACKOFF compared with the backoff target (R102). -/
def State.judgeBackoff (s : State) (t : Train) (p : Nat) : State :=
  if s.isSubject t && s.sequencer.state = .backoff then
    match s.sequencer.contact, s.sequencer.target with
    | some contact, some target => if target ≤ p then s.commitTouch t contact else s
    | _, _ => s
  else s

/-- TIME_LIMIT_EXPIRY (R106). -/
def State.timeLimitExpiry (s : State) : State :=
  match s.sequencer.subject with
  | none => s
  | some t => if timerExpired s.sequencer.limitTimer s.now then s.abortTouch t .abortedTimeout else s

end Sys2Proof.Machine
end

