-- ==== Sys2Proof/Machine/Supervising.lean ====
section
/-! DEFINITION. Machine/Supervising.lean: the Relief and Load Supervisors of chapter 7. -/

namespace Sys2Proof.Machine

/-! ### Trip latches (R143, R144) -/

/-- A trip latch of a Supervisor. -/
def Supervisor.latch (v : Supervisor) : TripLatch → Latch
  | .repeatedRelief => v.reliefLatch
  | .powerTrip => v.powerLatch

/-- The record with a trip latch at a value. -/
def Supervisor.putLatch (v : Supervisor) (which : TripLatch) (l : Latch) : Supervisor :=
  match which with
  | .repeatedRelief => { v with reliefLatch := l }
  | .powerTrip => { v with powerLatch := l }

/-- The condition of a trip latch (R148). -/
def TripLatch.code : TripLatch → Code
  | .repeatedRelief => .repeatedRelief
  | .powerTrip => .powerTrip

/-- The cause of a trip latch is active (R143). -/
def Supervisor.causeActive (v : Supervisor) : TripLatch → Bool
  | .repeatedRelief => v.relief = .relieving || v.relief = .clearing
  | .powerTrip => v.tripCause

/-- Both trip latches are clear (R144). -/
def Supervisor.untripped (v : Supervisor) : Bool := v.reliefLatch = .clear && v.powerLatch = .clear

/-- TRIP follows the latches: it stands while either is set (R144). -/
def State.judgeTrip (s : State) (t : Train) : State :=
  if (s.supervisor t).untripped then s.removeHold t .trip else s.addHold t .trip

/-- A latch becomes SET, its onset is reported, and TRIP follows (R136, R142, R144). -/
def State.setLatch (s : State) (t : Train) (which : TripLatch) (detail : Option Detail) : State :=
  ((s.modSupervisor t fun v => v.putLatch which .set).onset which.code (.crusher t) detail).judgeTrip t

/-- The acknowledgement of a trip latch (R143). -/
def State.ackLatch (s : State) (t : Train) (which : TripLatch) : State :=
  let s := s.modSupervisor t fun v =>
    match v.latch which with
    | .set => v.putLatch which (if v.causeActive which then .setAcknowledged else .clear)
    | .clear | .setAcknowledged => v
  let s := match which with
    | .repeatedRelief => s.modSupervisor t fun v => { v with history := [] }
    | .powerTrip => s
  s.judgeTrip t

/-- The end of the cause of a trip latch (R143). -/
def State.endLatchCause (s : State) (t : Train) (which : TripLatch) : State :=
  match (s.supervisor t).latch which with
  | .clear => s
  | .set => s.causeEnd which.code (.crusher t)
  | .setAcknowledged =>
    ((s.modSupervisor t fun v => v.putLatch which .clear).causeEnd which.code (.crusher t)).judgeTrip t

/-! ### Relief (R135 to R137) -/

/-- The relief history with an onset entered at its tail (R136). -/
def enterOnset (history : List Nat) (second : Nat) : List Nat :=
  (if history.length < Config.reliefHistoryLength then history else history.drop 1) ++ [second]

/-- The entries of the history within RELIEF_WINDOW of an onset, across the wrap (R136, R160). -/
def onsetsWithin (history : List Nat) (second window : Nat) : Nat :=
  (history.filter fun t => (second + Config.secondSpan - t) % Config.secondSpan ≤ window).length

/-- The onset entered in the relief history and judged for repeated relief (R136). -/
def State.judgeRepeatedRelief (s : State) (t : Train) : State :=
  let second := s.time.seconds
  let s := s.modSupervisor t fun v => { v with history := enterOnset v.history second }
  let v := s.supervisor t
  if (s.crusher t).reliefCount ≤ onsetsWithin v.history second (s.crusher t).reliefWindow ||
      v.reliefLatch ≠ .clear then
    s.setLatch t .repeatedRelief none
  else s

/-- A relief onset (R135). -/
def State.reliefOnset (s : State) (t : Train) : State :=
  let s := s.modSupervisor t fun v => { v with relief := .relieving, clearingTimer := none }
  let s := s.judgeRepeatedRelief t
  let s := s.floorAndHold t .relief
  let s := s.addReason t .relief
  let s := s.evaluate (crusherOf t)
  let s := s.abortIfSubject t .abortedRelief
  s.onset .relief (.crusher t) none

/-- The end of relief (R137). -/
def State.reliefEnd (s : State) (t : Train) : State :=
  if (s.supervisor t).relief = .relieving then
    s.modSupervisor t fun v =>
      { v with
        relief := .clearing
        clearingTimer := some (s.timer ((s.crusher t).clearingTime * 1000)) }
  else s

/-- The detector takes a level; a change is a relief onset or the end of relief (R133, R134). -/
def State.setDetector (s : State) (t : Train) (active : Bool) : State :=
  if (s.supervisor t).detectorActive = active then s
  else
    let s := s.modSupervisor t fun v => { v with detectorActive := active }
    if active then s.reliefOnset t else s.reliefEnd t

/-- The detector level that a pressure gives under ANALOG (R133). -/
def detectorAnalog (p : CrusherParams) (before : Bool) (pressure : Nat) : Bool :=
  if before then p.reliefLevel - p.reliefHyst ≤ pressure else p.reliefLevel ≤ pressure

/-- The detector judged from the relief switch under SWITCH; before the switch's first sample there is no
level to judge (R134; log 20). -/
def State.judgeSwitch (s : State) (t : Train) : State :=
  match (s.inputs.reliefSwitch.get t).level with
  | none => s
  | some energized => s.setDetector t (energized != (s.crusher t).switchInvert)

/-- The detector judged at a pressure arrival (R133, R134). -/
def State.judgePressure (s : State) (t : Train) (pressure : Nat) : State :=
  match (s.crusher t).reliefSource with
  | .analog => s.setDetector t (detectorAnalog (s.crusher t) (s.supervisor t).detectorActive pressure)
  | .switch => s.judgeSwitch t

/-- A relief switch change event reaches the Supervisor (R133, R134). -/
def State.reliefSwitchChanged (s : State) (t : Train) : State :=
  match (s.crusher t).reliefSource with
  | .analog => s
  | .switch => s.judgeSwitch t

/-- CLEARING_EXPIRY (R138). -/
def State.clearingExpiry (s : State) (t : Train) : State :=
  if (s.supervisor t).relief = .clearing && timerExpired (s.supervisor t).clearingTimer s.now then
    let s := s.modSupervisor t fun v => { v with relief := .restoring, clearingTimer := none }
    let s := s.endLatchCause t .repeatedRelief
    let s := s.removeReason t .relief
    s.evaluate (crusherOf t)
  else s

/-! ### Overload and power trip (R140 to R142) -/

/-- The overload episode ends (R141). -/
def State.endOverload (s : State) (t : Train) : State :=
  ((s.modSupervisor t fun v => { v with overload := false }).removeHold t .overload).causeEnd
    .overload (.crusher t)

/-- A power reading judged for overload (R140, R141). -/
def State.judgeOverload (s : State) (t : Train) (power : Nat) : State :=
  let v := s.supervisor t
  let p := s.crusher t
  if v.overload then (if power ≤ p.resumeLevel then s.endOverload t else s)
  else if p.overloadLevel ≤ power then
    match v.overloadTimer with
    | some _ => s
    | none => s.modSupervisor t fun v => { v with overloadTimer := some (s.timer p.overloadDelay) }
  else s.modSupervisor t fun v => { v with overloadTimer := none }

/-- OVERLOAD_DELAY_EXPIRY (R140). -/
def State.overloadDelayExpiry (s : State) (t : Train) : State :=
  if timerExpired (s.supervisor t).overloadTimer s.now then
    let s := s.modSupervisor t fun v => { v with overload := true, overloadTimer := none }
    (s.floorAndHold t .overload).onset .overload (.crusher t) none
  else s

/-- The power-trip cause ends (R142, R143). -/
def State.endTripCause (s : State) (t : Train) : State :=
  (s.modSupervisor t fun v => { v with tripCause := false }).endLatchCause t .powerTrip

/-- A power reading judged for a trip: its onset, then its end, each where it applies (R142). -/
def State.judgePowerTrip (s : State) (t : Train) (power : Nat) : State :=
  let p := s.crusher t
  let s :=
    if !(s.supervisor t).tripCause && p.tripLevel ≤ power then
      (s.modSupervisor t fun v => { v with tripCause := true }).setLatch t .powerTrip (some (.power power))
    else s
  if (s.supervisor t).tripCause && power ≤ p.resumeLevel then s.endTripCause t else s

/-! ### Train presence (R145) -/

/-- The Supervisor of a train made absent (R145). R23 leaves the trip latches as they are; R145 clears one in
SET_ACKNOWLEDGED, whose cause ends, and the model follows R145 (log 23). -/
def State.superviseAbsent (s : State) (t : Train) : State :=
  let wasRelief := (s.supervisor t).relief ≠ .normal
  let wasCause := (s.supervisor t).causeActive .repeatedRelief
  let wasOverload := (s.supervisor t).overload
  let wasTrip := (s.supervisor t).tripCause
  let s := s.modSupervisor t fun v =>
    { v with
      detectorActive := false
      clearingTimer := none
      relief := .normal
      overloadTimer := none
      history := [] }
  let s := s.removeReason t .relief
  let s := s.removeHold t .relief
  let s := if wasRelief then s.causeEnd .relief (.crusher t) else s
  let s := s.evaluate (crusherOf t)
  let s := if wasOverload then s.endOverload t else s
  let s := if wasTrip then s.endTripCause t else s
  if wasCause then s.endLatchCause t .repeatedRelief else s

end Sys2Proof.Machine
end

