-- ==== Sys2Proof/Machine/Measuring.lean ====
section
/-! DEFINITION. Machine/Measuring.lean: Gap Measurement and the delivery of readings and samples, of
chapter 3, with the E-stop handling of section 4.5. -/

namespace Sys2Proof.Machine

/-! ### Readings (R50, R51, R55) -/

/-- The raw reading of a loop: 0 below 4 mA, 4095 above 20 mA (R51). -/
def rawReading : LoopReading → Nat
  | .below => 0
  | .raw r => r.toNat
  | .above => 4095

/-- The scaled value of a raw reading under a span (R55). -/
def scaled (raw span : Nat) : Nat := raw * span / 4096

/-- A reading kept as the channel's latest, raw and scaled (R50). -/
def analogOf (loop : LoopReading) (span : Nat) : Analog := ⟨rawReading loop, scaled (rawReading loop) span⟩

/-! ### The measured gap (R60, R61) -/

/-- The measured gap of a reading (R60). -/
def measuredGap (p z gain wear : Nat) : Nat :=
  let raw := if p ≤ z then 0 else (p - z) * gain / 1024
  min Config.maxGap (raw + wear / 100)

/-- The measured gap that a reading gives now, absent while the zero is not valid (R60, R61). -/
def State.gapOf (s : State) (t : Train) (p : Nat) : Option Nat :=
  if (s.zero t).valid then some (measuredGap p (s.zero t).z (s.crusher t).gain (s.gap t).wear) else none

/-! ### Position validity (R56 to R58) -/

/-- A reading lies in the window; a failed arrival lies outside it (R56). -/
def CrusherParams.inWindow (p : CrusherParams) : Option Nat → Bool
  | none => false
  | some r => p.posLow ≤ r && r ≤ p.posHigh

/-- The first position reading after a start or a return of the train is reported once (R58, R59, R92). -/
def State.takeFirstReading (s : State) (t : Train) : State :=
  if (s.gap t).firstReadingDue then
    (s.modGap t fun g => { g with firstReadingDue := false }).firstReading t
  else s

/-- An arrival outside the window, its reports in the order R57 lists them (R56, R57; log 24). -/
def State.positionOutside (s : State) (t : Train) : State :=
  let before := (s.gap t).validity
  let stood := (s.gap t).faultStanding
  let s := s.modGap t fun g =>
    { g with validity := .notValid, recovery := none, gap := none, faultStanding := true }
  let s := s.takeFirstReading t
  let s := s.addReason t .position
  let s := s.evaluate (crusherOf t)
  let s := if before = .valid then s.abortIfSubject t .abortedPosition else s
  if stood then s else s.onset .positionFault (.crusher t) none

/-- The validity state becomes VALID with a measured gap, that of the latest reading (R58). The first reading,
where this arrival is one, rewrites the START target before POSITION is removed and the predicate evaluated
(R92). -/
def State.becomeValid (s : State) (t : Train) (gap : Option Nat) : State :=
  let stood := (s.gap t).faultStanding
  let s := s.modGap t fun g =>
    { g with validity := .valid, recovery := none, faultStanding := false, gap := gap }
  let s := s.takeFirstReading t
  let s := s.removeReason t .position
  let s := s.evaluate (crusherOf t)
  if stood then s.causeEnd .positionFault (.crusher t) else s

/-- An arrival in the window (R56, R60). In a recovery the gap it gives is held for the expiry: the zero, the gain
and the wear in force at an arrival are those that serve (R60), and a later change of them has no effect before the
next arrival (R62). -/
def State.positionInside (s : State) (t : Train) (p : Nat) : State :=
  let gap := s.gapOf t p
  match (s.gap t).validity with
  | .unchecked => s.becomeValid t gap
  | .notValid =>
    (s.modGap t fun g =>
      { g with
        validity := .recovering
        recovery := some ⟨s.timer Config.recoveryTime, gap⟩ }).takeFirstReading t
  | .recovering =>
    (s.modGap t fun g =>
      { g with recovery := g.recovery.map fun r => { r with gap := gap } }).takeFirstReading t
  | .valid => s.modGap t fun g => { g with gap := gap }

/-- POSITION_ARRIVAL: the reading is kept (R50); the blocks of a present train act on it, Gap Measurement
first (R56), then a jog (R88) and the Sequencer (R102). So a reading that both leaves the window and reaches the
backoff target aborts the touch, where R109 would allow COMMIT: that order is the model's choice (log 24). -/
def State.positionArrival (s : State) (t : Train) (reading : Option (BitVec 16)) : State :=
  let r := reading.map BitVec.toNat
  let s := match r with
    | none => s
    | some p => s.withInputs { s.inputs with position := s.inputs.position.set t (some p) }
  if !s.present t then s
  else
    match r with
    | none => (s.positionOutside t).judgeJog t
    | some p =>
      if (s.crusher t).inWindow (some p) then ((s.positionInside t p).judgeJog t).judgeBackoff t p
      else ((s.positionOutside t).judgeJog t).judgeBackoff t p

/-- RECOVERY_EXPIRY: the measured gap is that of the latest reading of the recovery, while the zero is valid (R56,
R58, R61). -/
def State.recoveryExpiry (s : State) (t : Train) : State :=
  match (s.gap t).recovery with
  | none => s
  | some r =>
    if (s.gap t).validity = .recovering && r.timer.expired s.now then
      s.becomeValid t (if (s.zero t).valid then r.gap else none)
    else s

/-! ### Pressure, power and level arrivals -/

/-- PRESSURE_ARRIVAL: the reading is kept; the Supervisor of a present crusher judges it, then the Sequencer
(R50, R133, R100). -/
def State.pressureArrival (s : State) (t : Train) (loop : LoopReading) : State :=
  let a := analogOf loop (s.crusher t).pressureSpan
  let s := s.withInputs { s.inputs with pressure := s.inputs.pressure.set t (some a) }
  if s.present t then (s.judgePressure t a.scaled).judgeContact t a.scaled else s

/-- POWER_ARRIVAL: the reading is kept; the Supervisor of a present crusher judges overload and power trip,
then the Sequencer judges the load (R50, R140 to R142, R100). No rule orders the judgements of one arrival, nor
their reports to the List; this order, overload before trip before load, is the model's choice (log 24). -/
def State.powerArrival (s : State) (t : Train) (loop : LoopReading) : State :=
  let a := analogOf loop (s.crusher t).powerSpan
  let s := s.withInputs { s.inputs with power := s.inputs.power.set t (some a) }
  if s.present t then
    ((s.judgeOverload t a.scaled).judgePowerTrip t a.scaled).judgeLoad t a.scaled
  else s

/-- SURGE_LEVEL_ARRIVAL: the reading is kept, and the Governors of the present trains judge LEVEL
(R50, R124, R125). No rule orders the Governors at one arrival; that train 0 comes first and trains 1 to 3 after
it is the model's choice (log 24). -/
def State.surgeLevelArrival (s : State) (loop : LoopReading) : State :=
  let a := analogOf loop 1000
  (s.withInputs { s.inputs with surge := some a }).forTrains (State.judgeLevel a.scaled)

/-! ### Loaded time and wear (R63, R64) -/

/-- The crusher counts as loaded at a millisecond boundary (R63). -/
def State.loaded (s : State) (t : Train) : Bool :=
  s.present t && (s.inputs.running.get t).energized &&
    match s.inputs.power.get t with
    | none => false
    | some a => (s.crusher t).loadedPower ≤ a.scaled

/-- The loaded-time count at a millisecond boundary (R63). -/
def State.countLoaded (t : Train) (s : State) : State :=
  if s.loaded t then s.modGap t fun g => { g with loadedTime := min (g.loadedTime + 1) Config.wearStepTime }
  else s

/-- The loaded-time count has reached 360,000 ms (R63). -/
def State.wearStepDue (s : State) (t : Train) : Bool := Config.wearStepTime ≤ (s.gap t).loadedTime

/-- WEAR_STEP (R63, R64, R65). -/
def State.wearStep (s : State) (t : Train) : State :=
  if s.wearStepDue t then
    let limitStood := s.wearLimitStands t
    let marks := Config.wearStepsPerMark ≤ (s.gap t).wearSteps + 1
    let rate := (s.crusher t).wearRate
    let s := s.modGap t fun g =>
      { g with
        loadedTime := 0
        tenths := min (g.tenths + 1) Config.maxTenths
        wear := min (g.wear + rate) Config.maxWear
        wearSteps := if marks then 0 else g.wearSteps + 1 }
    let s := if marks then s.mark .wear else s
    s.judgeWearLimit t limitStood
  else s

/-! ### Digital inputs (R52 to R54) -/

/-- A sample of a debounced input: the first gives the level without debounce; later ones are counted while
they differ from the debounced level, and the change is due at the twentieth (R52, R54). -/
def Digital.sampled (d : Digital) (raw : Bool) : Digital :=
  match d.level with
  | none => { d with raw := raw, due := true }
  | some level =>
    if raw = level then { d with raw := raw, count := 0, due := false }
    else
      let count := min (d.count + 1) Config.debounceSamples
      { d with raw := raw, count := count, due := count = Config.debounceSamples }

/-- A sample of the E-stop loop: an open loop is believed at once, a closed one after twenty (R53, R54). -/
def Digital.estopSampled (d : Digital) (closed : Bool) : Digital :=
  match d.level with
  | some true => { d with raw := closed, count := 0, due := !closed }
  | some false | none => d.sampled closed

/-- The debounced level changes to the sampled level, and the count returns to 0 (R52). -/
def Digital.changed (d : Digital) : Digital := { d with level := some d.raw, count := 0, due := false }

/-- An input of the Field Input block. -/
def FieldInputs.digital (f : FieldInputs) : DigitalInput → Digital
  | .running t => f.running.get t
  | .reliefSwitch t => f.reliefSwitch.get t
  | .surgeConveyor => f.surgeConveyor
  | .productConveyor => f.productConveyor

/-- The Field Input block with one input changed. -/
def FieldInputs.putDigital (f : FieldInputs) (i : DigitalInput) (d : Digital) : FieldInputs :=
  match i with
  | .running t => { f with running := f.running.set t d }
  | .reliefSwitch t => { f with reliefSwitch := f.reliefSwitch.set t d }
  | .surgeConveyor => { f with surgeConveyor := d }
  | .productConveyor => { f with productConveyor := d }

/-- Two quads taken together, train by train. -/
def zipQuad {α β γ : Type} (f : α → β → γ) (a : Quad α) (b : Quad β) : Quad γ :=
  ⟨f a.q0 b.q0, f a.q1 b.q1, f a.q2 b.q2, f a.q3 b.q3⟩

/-- Every digital input sampled at a millisecond boundary (R52, R53). -/
def FieldInputs.sampled (f : FieldInputs) (x : Samples) : FieldInputs :=
  { f with
    running := zipQuad Digital.sampled f.running x.running
    reliefSwitch := zipQuad Digital.sampled f.reliefSwitch x.reliefSwitch
    surgeConveyor := f.surgeConveyor.sampled x.surgeConveyor
    productConveyor := f.productConveyor.sampled x.productConveyor
    estop := f.estop.estopSampled x.estopLoop }

/-- A running level taken by the blocks of a present train: the Governor and the Sequencer (R49, R122, R106). -/
def State.runningChanged (s : State) (t : Train) (running : Bool) : State :=
  if !s.present t then s
  else
    let s := s.crusherRunningChanged t running
    if running then s else s.abortIfSubject t .abortedStopped

/-- A change event delivered to the blocks that take the input (R49, R52). -/
def State.deliverChange (s : State) (i : DigitalInput) (level : Bool) : State :=
  match i with
  | .running t => s.runningChanged t level
  | .reliefSwitch t => if s.present t then s.reliefSwitchChanged t else s
  | .surgeConveyor => (s.conveyorHold level .t0).conveyorCondition .surgeConveyorStopped level
  | .productConveyor =>
    (((s.conveyorHold level .t1).conveyorHold level .t2).conveyorHold level .t3).conveyorCondition
      .productConveyorStopped level

/-- DIGITAL_CHANGE (R52, R54). -/
def State.digitalChange (s : State) (i : DigitalInput) : State :=
  let d := s.inputs.digital i
  if d.due then
    (s.withInputs (s.inputs.putDigital i d.changed)).deliverChange i d.raw
  else s

/-! ### E-stop (R85, R86) -/

/-- ESTOP_ASSERT, its effects in the order R85 lists them (R53, R85; log 24). -/
def State.estopAssert (s : State) : State :=
  let d := s.inputs.estop
  if d.due && !d.raw then
    let s := s.withInputs { s.inputs with estop := d.changed }
    let s := s.forTrains fun t s => s.addReason t .estop
    let s := s.forTrains fun t s => s.addHold t .estop
    (s.abortRunning .abortedEstop).onset .estop .line none
  else s

/-- ESTOP_RELEASE (R53, R86). -/
def State.estopRelease (s : State) : State :=
  let d := s.inputs.estop
  if d.due && d.raw then
    let s := s.withInputs { s.inputs with estop := d.changed }
    let s := s.forTrains fun t s => s.removeReason t .estop
    let s := s.forTrains fun t s => s.removeHold t .estop
    s.causeEnd .estop .line
  else s

end Sys2Proof.Machine
end

