-- ==== Sys2Proof/Machine/Tabling.lean ====
section
/-! DEFINITION. Machine/Tabling.lean: modes, the storing of parameters with its effects, and train presence,
of chapter 1. -/

namespace Sys2Proof.Machine

/-! ### Modes (R9, R11) -/

/-- Both stations of a train are in RUN, so its feeder carries no hold MODE (R9). -/
def State.trainRuns (s : State) (t : Train) : Bool :=
  (s.station (feederOf t)).mode = .run && (s.station (crusherOf t)).mode = .run

/-- Hold MODE kept in step with the modes of a train (R9). -/
def State.judgeModeHold (s : State) (t : Train) : State :=
  if s.trainRuns t then s.removeHold t .mode else s.addHold t .mode

/-- Suspend reason MODE kept in step with the mode of a crusher (R9). -/
def State.judgeModeReason (s : State) (t : Train) : State :=
  if (s.station (crusherOf t)).mode = .run then s.removeReason t .mode else s.addReason t .mode

/-- A station takes a mode, with the effects of R9 and R11: a jog ended by a change out of MAINTENANCE, the
reason and the hold MODE, the predicate evaluated again, and on OUT_OF_SERVICE the slots removed (R12). -/
def State.enterMode (s : State) (st : Station) (mode : Mode) : State :=
  let changed := (s.station st).mode ≠ mode
  let s := s.modStation st fun r => { r with mode := mode }
  let s :=
    if !changed then s
    else
      let s := match st.role with
        | .feeder => s
        | .crusher => (s.endRunningJog st.train).judgeModeReason st.train
      (s.judgeModeHold st.train).evaluate st
  if mode = .outOfService then s.removeSlots st else s

/-! ### Train presence (R23, R24) -/

/-- A train made absent (R23). -/
def State.makeAbsent (s : State) (t : Train) : State :=
  let s := s.enterMode (feederOf t) .outOfService
  let s := s.enterMode (crusherOf t) .outOfService
  let faultStood := (s.gap t).faultStanding
  let s := s.modGap t fun g =>
    { g with validity := .notValid, recovery := none, gap := none, faultStanding := false }
  let s := s.addReason t .position
  let s := if faultStood then s.causeEnd .positionFault (.crusher t) else s
  let s := s.superviseAbsent t
  let s := if (s.governor t).holds.level then s.removeLevel t else s
  let s := (s.evaluate (feederOf t)).evaluate (crusherOf t)
  if (s.zero t).valid then s else s.causeEnd .zeroUnset (.crusher t)

/-- A digital level taken as a change event when a train is made present; none before the first sample
(R54). -/
def State.takeLevel (s : State) (i : DigitalInput) : State :=
  match (s.inputs.digital i).level with
  | none => s
  | some level => s.deliverChange i level

/-- A train made present (R24). Its inputs are delivered before ZERO_UNSET is reported (log 16). -/
def State.makePresent (s : State) (t : Train) : State :=
  let s := s.enterMode (feederOf t) .maintenance
  let s := s.enterMode (crusherOf t) .maintenance
  let s := s.writeStanding (feederOf t) (Standing.start 0)
  let s := s.writeStanding (crusherOf t) (Standing.start (s.crusher t).gapMax)
  let s := s.modStation (feederOf t) fun r => { r with lastApplied := none }
  let s := s.modStation (crusherOf t) fun r => { r with lastApplied := none }
  let s := s.modGap t fun g =>
    { g with
      validity := .notValid
      recovery := none
      gap := none
      faultStanding := false
      firstReadingDue := true }
  let s := (s.takeLevel (.running t)).takeLevel (.reliefSwitch t)
  if (s.zero t).valid then s else s.onset .zeroUnset (.crusher t) none

/-- A train's presence after a write of TRAINS_PRESENT, against what it was (R23, R24). -/
def State.judgePresence (before : Quad Bool) (t : Train) (s : State) : State :=
  match before.get t, s.present t with
  | true, false => s.makeAbsent t
  | false, true => s.makePresent t
  | true, true | false, false => s

/-- TRAINS_PRESENT stored, with its effects on each train (R20, section 1.6). R24 leaves the order of a write that
removes and adds trains open; the model takes the trains in the order of their numbers (log 24). -/
def State.storeTrains (s : State) (trains : Quad Bool) : State :=
  let before := s.line.trainsPresent
  (s.withLine { s.line with trainsPresent := trains }).forTrains (State.judgePresence before)

/-! ### Stored parameters (R20, R21) -/

/-- The standing target clamped into limits just written (R21). -/
def State.clampStanding (s : State) (st : Station) : State :=
  let standing := (s.station st).standing
  s.writeStanding st { standing with target := s.limited st standing.target }

/-- A crusher parameter stored, with its effects (R20, R21, R65). -/
def State.storeCrusher (s : State) (t : Train) (n : CrusherParam) (v : Nat) : State :=
  let limitStood := s.wearLimitStands t
  let s := s.withCrusher t ((s.crusher t).put n v)
  match n with
  | .gapMin | .gapMax => s.clampStanding (crusherOf t)
  | .wearLimit => s.judgeWearLimit t limitStood
  | .gain | .posLow | .posHigh | .deadband | .kp | .dutyMin | .dutyMax | .deadTime | .sampleInterval
  | .moveLimit | .loadAdjust | .drainTime | .wearRate | .loadedPower | .emptyPower | .powerSpan
  | .pressureSpan | .reliefSource | .switchInvert | .reliefLevel | .reliefHyst | .clearingTime
  | .reliefCount | .reliefWindow | .contactLevel | .contactDwell | .creepDuty | .backoff
  | .zeroShiftMax | .zeroTimeLimit | .resumeLevel | .overloadLevel | .tripLevel | .overloadDelay
  | .openPolarity | .closePolarity | .authority | .startMode => s

/-- A feeder parameter stored, with its effects (R20, R21, R120, R129). -/
def State.storeFeeder (s : State) (t : Train) (n : FeederParam) (v : Nat) : State :=
  let s := s.withFeeder t ((s.feeder t).put n v)
  match n with
  | .rateMin | .rateMax => s.clampStanding (feederOf t)
  | .trimLimit => s.modGovernor t fun g => { g with trim := clampTrim (s.feeder t).trimLimit g.trim }
  | .updateInterval | .rampUp | .rampDown | .loadTarget | .loadBand | .trimUp | .trimDown | .slowRate
  | .outputPolarity | .authority | .startMode => s

/-- A line parameter stored, with its effects (R20, section 1.6). -/
def State.storeLine (s : State) (n : LineParam) (v : Nat) : State :=
  match n with
  | .trainsPresent => s.storeTrains (trainSetOf v)
  | .surgeLow | .surgeResume | .surgeSlow | .surgeHigh => s.withLine (s.line.put n v)

end Sys2Proof.Machine
end

