-- ==== Sys2Proof/Machine/Operands.lean ====
section
/-! DEFINITION. Machine/Operands.lean: the coding of fields in requests and replies (R178, R179), and the
bodies of the reads. -/

namespace Sys2Proof.Machine

/-! ### Codes (R178) -/

/-- LC 0, OP 1, SV 2. -/
def linkCode : Link → Nat
  | .lc => 0
  | .op => 1
  | .sv => 2

/-- The source of a standing setting: a link's code, or START 3. -/
def Origin.sourceCode : Origin → Nat
  | .start => 3
  | .request l _ _ => linkCode l

/-- The tag of a standing setting; 0 in a START setting. -/
def Origin.tagByte : Origin → Byte
  | .start => 0#8
  | .request _ tag _ => tag

/-- RUN 0, MAINTENANCE 1, OUT_OF_SERVICE 2. -/
def Mode.code : Mode → Nat
  | .run => 0
  | .maintenance => 1
  | .outOfService => 2

/-- The mode of a byte; a byte above 2 is refused FORMAT before this is asked (R178). -/
def modeOf (b : Byte) : Mode :=
  match b.toNat with
  | 0 => .run
  | 1 => .maintenance
  | _ => .outOfService

/-- OPEN 1, CLOSE 2. -/
def Direction.code : Direction → Nat
  | .opening => 1
  | .closing => 2

/-- The direction of a byte; a byte other than 1 and 2 is refused FORMAT before this is asked (R178). -/
def directionOf (b : Byte) : Direction := if b.toNat = 1 then .opening else .closing

/-- State codes, numbered from 0 in the order of R56. -/
def Validity.code : Validity → Nat
  | .unchecked => 0
  | .notValid => 1
  | .recovering => 2
  | .valid => 3

/-- State codes, numbered from 0 in the order of R68. -/
def PositionerState.code : PositionerState → Nat
  | .idle => 0
  | .draining => 1
  | .driving => 2
  | .deadTime => 3
  | .suspended => 4
  | .fault => 5
  | .jogging => 6
  | .lent => 7

/-- State codes, numbered from 0 in the order of R94. -/
def SequencerState.code : SequencerState → Nat
  | .idle => 0
  | .approach => 1
  | .dwell => 2
  | .backoff => 3
  | .commit => 4

/-- State codes, numbered from 0 in the order of R111. -/
def GovernorState.code : GovernorState → Nat
  | .stopped => 0
  | .held => 1
  | .running => 2

/-- State codes, numbered from 0 in the order of R132. -/
def ReliefState.code : ReliefState → Nat
  | .normal => 0
  | .relieving => 1
  | .clearing => 2
  | .restoring => 3

/-- The detector level: ACTIVE 0, INACTIVE 1, in the order of R132. -/
def detectorCode (active : Bool) : Nat := if active then 0 else 1

/-- CLEAR 0, SET 1, SET_ACKNOWLEDGED 2, in the order of R132. -/
def Latch.code : Latch → Nat
  | .clear => 0
  | .set => 1
  | .setAcknowledged => 2

/-- OFF 0, STEADY 1, FLASHING 2, in the order of R157. -/
def Beacon.code : Beacon → Nat
  | .off => 0
  | .steady => 1
  | .flashing => 2

/-- INFO 0, HOLD 1, TRIP 2 (R179). -/
def ConditionClass.code : ConditionClass → Nat
  | .info => 0
  | .hold => 1
  | .trip => 2

/-- The codes 1 to 17 of R148. -/
def Code.number : Code → Nat
  | .estop => 1
  | .surgeConveyorStopped => 2
  | .productConveyorStopped => 3
  | .surgeHigh => 4
  | .surgeLow => 5
  | .relief => 6
  | .repeatedRelief => 7
  | .overload => 8
  | .powerTrip => 9
  | .moveTimeout => 10
  | .positionFault => 11
  | .zeroUnset => 12
  | .wearLimit => 13
  | .zeroRejected => 14
  | .zeroAborted => 15
  | .storeFault => 16
  | .linkLocked => 17

/-- The conditions in the order of their codes (R148). -/
def Code.all : List Code :=
  [.estop, .surgeConveyorStopped, .productConveyorStopped, .surgeHigh, .surgeLow, .relief, .repeatedRelief,
   .overload, .powerTrip, .moveTimeout, .positionFault, .zeroUnset, .wearLimit, .zeroRejected, .zeroAborted,
   .storeFault, .linkLocked]

/-- The condition a code byte names (R148). -/
def Code.ofNumber (n : Nat) : Option Code := if n = 0 then none else Code.all[n - 1]?

/-- PROFILE 80h, ZERO 81h, WEAR 82h (R178). -/
def StoreSection.subjectCode : StoreSection → Nat
  | .profile => 0x80
  | .zero => 0x81
  | .wear => 0x82

/-- The subject byte of a condition (R178). -/
def Subject.code : Subject → Nat
  | .line => 0xFF
  | .crusher t => (crusherOf t).number
  | .link l => 0x40 + linkCode l
  | .storeSection sec => sec.subjectCode

/-- The detail of a condition as two bytes (R179). -/
def Detail.code : Detail → Nat
  | .power kw => kw
  | .result r => r.code
  | .storeSection sec => sec.subjectCode

/-- Suspend reasons, bits numbered in the order of R68 (R178). -/
def Reasons.code (r : Reasons) : Nat :=
  bitAt 0 r.mode + bitAt 1 r.relief + bitAt 2 r.estop + bitAt 3 r.position + bitAt 4 r.noZero

/-- Holds, bits numbered in the order of section 6.4 (R178). -/
def Holds.code (h : Holds) : Nat :=
  bitAt 0 h.estop + bitAt 1 h.crusherStopped + bitAt 2 h.conveyor + bitAt 3 h.level + bitAt 4 h.overload +
    bitAt 5 h.relief + bitAt 6 h.trip + bitAt 7 h.gapMove + bitAt 8 h.calibration + bitAt 9 h.mode

/-- The dirty set, bits PROFILE, ZERO, WEAR (R178). -/
def DirtySet.code (d : DirtySet) : Nat := bitAt 0 d.profile + bitAt 1 d.zero + bitAt 2 d.wear

/-- The store state: IDLE 0, WRITING PROFILE 1, ZERO 2, WEAR 3 (R179). -/
def storeStateCode : Option WriteJob → Nat
  | none => 0
  | some (.profile _) => 1
  | some (.zero _) => 2
  | some (.wear _) => 3

/-! ### READ STATION (R4, R48, R67, R93, R131, R147, R179) -/

/-- The waiting slots on the board for a station (R48). -/
def Board.waitingFor (b : Board) (st : Station) : Nat :=
  (b.slots.filter fun o =>
    match o with
    | none => false
    | some r => r.station = st).length

/-- The measured value of a station: the measured gap, or the output command (R4). -/
def State.measuredValue (s : State) (st : Station) : List Byte :=
  match st.role with
  | .crusher => f2opt (s.gap st.train).gap
  | .feeder => f2 (s.governor st.train).command

/-- The last-applied link and tag. An absent record has link FFh (R178); its tag is then sent as 0, which is the
model's choice (log 14). -/
def appliedBytes : Option Applied → List Byte
  | none => [0xFF#8, 0#8]
  | some a => [byteOf (linkCode a.link), a.tag]

/-- The 21 bytes every READ STATION carries (R179). R1 has the crusher type reported, and the layout has no byte
for it: the model sends none, and the station number tells it (log 14). -/
def State.stationCommon (s : State) (st : Station) : List Byte :=
  let r := s.station st
  f1 st.number ++ f1 r.mode.code ++
    f1 (bitAt 0 (s.present st.train) + bitAt 1 (s.accepting st) +
      bitAt 2 s.inputs.surgeConveyor.energized + bitAt 3 s.inputs.productConveyor.energized +
      bitAt 4 s.estopAsserted) ++
    f2 r.standing.target ++ f1 r.standing.priority ++ f1 r.standing.origin.sourceCode ++
    [r.standing.origin.tagByte] ++ f4 (orZero r.standing.sequence) ++ f2 (orZero r.standing.keep) ++
    appliedBytes r.lastApplied ++ s.measuredValue st ++ f1 (s.board.waitingFor st) ++
    f2opt (s.inputs.surge.map Analog.scaled)

/-- The ms a timer has to run, absent while it is stopped. -/
def State.remainingOf (s : State) (t : Option Timer) : Option Nat := t.map fun t => t.remaining s.now

/-- The direction and duty of a drive. Off, its direction is 0 (R179); its duty is then sent as 0 too, which is
the model's choice (log 14). -/
def driveBytes : Option Drive → List Byte
  | none => f1 0 ++ f2 0
  | some d => f1 d.direction.code ++ f2 d.duty

/-- The direction and duty of a pending drive. Absent, its direction is 0 (R179) and its duty, an optional 16-bit
value, FFFFh (R178). -/
def pendingBytes (d : Option PendingDrive) : List Byte :=
  f1 ((d.map fun d => d.direction.code).getD 0) ++ f2opt (d.map fun d => d.duty)

/-- The move LOAD_ADJUST and start; FFh and FFFFFFFFh for no move in progress (R178, R179). -/
def moveBytes : Option Move → List Byte
  | none => f1 0xFF ++ f4opt none
  | some m => f1 (boolCode m.loadAdjust) ++ f4 m.start

/-- Four history entries; those the count does not reach are sent as 0 (log 14). -/
def historyBytes (h : List Nat) : List Byte :=
  f1 h.length ++ f4 (h.getD 0 0) ++ f4 (h.getD 1 0) ++ f4 (h.getD 2 0) ++ f4 (h.getD 3 0)

/-- The 72 bytes of a crusher (R179). -/
def State.stationCrusher (s : State) (t : Train) : List Byte :=
  let g := s.gap t
  let p := s.positioner t
  let v := s.supervisor t
  let position := s.inputs.position.get t
  let pressure := (s.inputs.pressure.get t).map Analog.scaled
  let power := (s.inputs.power.get t).map Analog.scaled
  f1 (bitAt 0 (s.inputs.running.get t).energized + bitAt 1 position.isSome + bitAt 2 pressure.isSome +
      bitAt 3 power.isSome) ++
    f2 (orZero position) ++ f1 g.validity.code ++ f2 g.wear ++ f4 g.tenths ++ f2 (orZero pressure) ++
    f2 (orZero power) ++
    f1 p.state.code ++ f1 p.reasons.code ++
    driveBytes p.drive ++ pendingBytes p.pendingDrive ++ moveBytes p.move ++
    f4opt (s.remainingOf p.drainTimer) ++ f4opt (s.remainingOf p.moveTimer) ++
    f2opt (p.jog.map Jog.remaining) ++ f4opt p.lastDuration ++
    f1 (if s.isSubject t then s.sequencer.state.code else 0xFF) ++
    f1 v.relief.code ++ f1 (detectorCode v.detectorActive) ++ f4opt (s.remainingOf v.clearingTimer) ++
    historyBytes v.history ++
    f1 (bitAt 0 v.overload + bitAt 1 v.tripCause) ++ f4opt (s.remainingOf v.overloadTimer) ++
    f1 v.reliefLatch.code ++ f1 v.powerLatch.code

/-- The 12 bytes of a feeder (R179). -/
def State.stationFeeder (s : State) (t : Train) : List Byte :=
  let g := s.governor t
  f1 g.state.code ++ f2 g.holds.code ++ f2s g.trim ++ f2 g.demand ++ f1 (boolCode g.capBound) ++
    f2 (g.updateTimer.remaining s.now) ++ f2opt ((s.inputs.power.get t).map Analog.scaled)

/-- The body of READ STATION (R179). -/
def State.stationBody (s : State) (st : Station) : List Byte :=
  s.stationCommon st ++
    match st.role with
    | .crusher => s.stationCrusher st.train
    | .feeder => s.stationFeeder st.train

/-! ### The other reads (R47, R159, R110, R163, R179) -/

/-- The kind of a slot: GAP 0, RATE 1 (R25, R179). -/
def Slot.kindCode (r : Slot) : Nat :=
  match r.station.role with
  | .crusher => 0
  | .feeder => 1

/-- The 15 bytes of a waiting slot (R179). -/
def slotBytes (i : Nat) (r : Slot) : List Byte :=
  f1 i ++ f1 r.station.number ++ f1 r.kindCode ++ f2 r.value ++ f1 r.priority ++ [r.tag] ++
    f4 r.sequence ++ f2 (orZero r.keep) ++ f2 r.wait

/-- The slots of a link, in order of slot number, counting from i (R47). -/
def waitingOf (l : Link) : Nat → List (Option Slot) → List (Nat × Slot)
  | _, [] => []
  | i, none :: rest => waitingOf l (i + 1) rest
  | i, some r :: rest => if r.source = l then (i, r) :: waitingOf l (i + 1) rest else waitingOf l (i + 1) rest

/-- The body of READ WAITING (R47, R179). -/
def State.waitingBody (s : State) (l : Link) : List Byte :=
  let rows := waitingOf l 0 s.board.slots
  f1 rows.length ++ rows.flatMap fun r => slotBytes r.1 r.2

/-- The flags byte of an entry (R179). -/
def Entry.flagsCode (e : Entry) : Nat :=
  bitAt 0 e.stamp.isSet + bitAt 1 e.acknowledged + bitAt 2 e.active + bitAt 3 e.detail.isSome

/-- The 11 bytes of an entry (R179). -/
def Entry.bytes (e : Entry) : List Byte :=
  f1 e.code.number ++ f1 e.subject.code ++ f1 e.code.cls.code ++ f4 e.stamp.clock ++ f1 e.flagsCode ++
    f1 e.count ++ f2 (orZero (e.detail.map Detail.code))

/-- The 7 bytes of the first-out record; an empty one is sent with code 0 (R179; log 14). -/
def firstOutBytes : Option FirstOut → List Byte
  | none => f1 0 ++ f1 0 ++ f4 0 ++ f1 0
  | some f => f1 f.code.number ++ f1 f.subject.code ++ f4 f.stamp.clock ++ f1 (bitAt 0 f.stamp.isSet)

/-- The beacons byte: two bits each, RED, AMBER, WHITE from bit 0 (R179; log 14). -/
def ConditionList.beaconsCode (l : ConditionList) : Nat :=
  (l.beacon .trip).code + 4 * (l.beacon .hold).code + 16 * (l.beacon .info).code

/-- The body of READ CONDITIONS (R159, R179). -/
def State.conditionsBody (s : State) : List Byte :=
  let l := s.conditions
  f1 l.entries.length ++ f2 l.overflow ++ firstOutBytes l.firstOut ++ f1 l.beaconsCode ++
    l.entries.flatMap Entry.bytes

/-- A value of the Sequencer that is carried while a crusher is its subject (R110). -/
def State.ofSubject {α : Type} (s : State) (t : Train) (o : Option α) : Option α :=
  if s.isSubject t then o else none

/-- The 39 bytes of READ ZERO RECORD (R110, R179). The flags have no bit for the backoff target; an absent one is
sent as 0, which is the model's choice (log 14). -/
def State.zeroBody (s : State) (t : Train) : List Byte :=
  let z := s.zero t
  let q := s.sequencer
  let contact := s.ofSubject t q.contact
  f1 (crusherOf t).number ++
    f1 (bitAt 0 z.valid + bitAt 1 z.outcome.isSome + bitAt 2 z.rejected + bitAt 3 z.aborted +
      bitAt 4 (s.isSubject t) + bitAt 5 (s.isSubject t && q.armed) + bitAt 6 contact.isSome) ++
    f2 (orZero z.zeroNow) ++ outcomeBytes z.outcome ++ f2 (s.gap t).wear ++ f1 q.state.code ++
    f2 (orZero contact) ++ f4 (orZero (s.ofSubject t q.target)) ++
    f4opt (s.ofSubject t (s.remainingOf q.limitTimer)) ++ f4opt (s.ofSubject t (s.remainingOf q.dwellTimer))

/-- The body of READ CLOCK (R163, R179). Between the MILLISECOND_BOUNDARY that reaches a second and its
SECOND_BOUNDARY it carries the new uptime second beside the line clock not yet advanced: the model's choice
(log 9). -/
def State.clockBody (s : State) : List Byte :=
  f4 s.time.seconds ++ f2 s.time.millis ++ f4 s.time.lineClock ++ f1 (boolCode s.time.clockSet) ++
    f1 (storeStateCode s.store.writing) ++ f1 s.store.dirty.code

end Sys2Proof.Machine
end

