-- ==== Sys2Proof/Machine/Starting.lean ====
section
/-! DEFINITION. Machine/Starting.lean: the start of the part and the loss of its supply, of section 9.4. -/

namespace Sys2Proof.Machine

/-! ### The load (R169) -/

/-- The parameters a start loads: those of PROFILE, or the defaults with no train present (R169). -/
def Store.profileAtStart (st : Store) : Profile :=
  st.readProfile.getD ⟨LineParams.afterFailedLoad, defaultCrusherParams, defaultFeederParams⟩

/-- The zeros a start loads: those of ZERO, or none valid with Z held as 0 (R169). -/
def Store.zerosAtStart (st : Store) : Quad StoredZero := st.readZero.getD (Quad.all ⟨0, false, none⟩)

/-- The wear a start loads: that of WEAR, or 0 (R169). -/
def Store.wearAtStart (st : Store) : Quad StoredWear := st.readWear.getD (Quad.all ⟨0, 0⟩)

/-- The mode of START_MODE. -/
def StartMode.mode : StartMode → Mode
  | .run => .run
  | .maintenance => .maintenance

/-- The mode a station starts in (R13). -/
def modeAtStart (present : Bool) (m : StartMode) : Mode := if present then m.mode else .outOfService

/-- The mode the feeder of a train starts in (R13). -/
def Profile.feederMode (p : Profile) (t : Train) : Mode :=
  modeAtStart (p.line.trainsPresent.get t) (p.feeders.get t).startMode

/-- The mode the crusher of a train starts in (R13). -/
def Profile.crusherMode (p : Profile) (t : Train) : Mode :=
  modeAtStart (p.line.trainsPresent.get t) (p.crushers.get t).startMode

/-- The record of a feeder station at a start (R3, R5, R6, R13). -/
def Profile.feederRecord (p : Profile) (t : Train) : StationRecord where
  mode := p.feederMode t
  standing := Standing.start 0
  lastApplied := none
  lastAccepting := p.line.trainsPresent.get t && p.feederMode t = .run

/-- The record of a crusher station at a start; its position is not yet valid, so it is not accepting
(R3, R5, R7, R13). -/
def Profile.crusherRecord (p : Profile) (t : Train) : StationRecord where
  mode := p.crusherMode t
  standing := Standing.start (p.crushers.get t).gapMax
  lastApplied := none
  lastAccepting := false

/-- The reasons a Positioner starts with (R91). -/
def Profile.reasonsAtStart (p : Profile) (t : Train) (zeroValid : Bool) : Reasons where
  mode := p.crusherMode t ≠ .run
  relief := false
  estop := false
  position := true
  noZero := !zeroValid

/-- The holds a Governor starts with (R128). -/
def Profile.holdsAtStart (p : Profile) (t : Train) : Holds :=
  { Holds.empty with mode := !(p.feederMode t = .run && p.crusherMode t = .run) }

/-- The blocks as the load leaves them, before its conditions are reported (R169). The stamp is the line
clock kept at a RESTART, or 0 and not set (R161). -/
def blocksAtStart (store : Store) (stamp : Stamp) (pending : List Instr) : State where
  powered := true
  restart := .notTaken
  time := TimeBase.atStart stamp
  feeders := Quad.make store.profileAtStart.feederRecord
  crushers := Quad.make store.profileAtStart.crusherRecord
  line := store.profileAtStart.line
  crusherParams := store.profileAtStart.crushers
  feederParams := store.profileAtStart.feeders
  board := Board.atStart
  inputs := FieldInputs.atStart
  gaps := store.wearAtStart.map fun w => GapMeasurement.atStart w.wear w.tenths
  positioners := Quad.make fun t =>
    Positioner.atStart (store.profileAtStart.reasonsAtStart t (store.zerosAtStart.get t).valid)
      (store.profileAtStart.crushers.get t).sampleInterval
  sequencer := Sequencer.atStart
  zeros := store.zerosAtStart.map fun z => ⟨z.z, z.valid, z.outcome, false, false⟩
  governors := Quad.make fun t =>
    Governor.atStart (store.profileAtStart.holdsAtStart t)
      (store.profileAtStart.feeders.get t).updateInterval
  supervisors := Quad.all Supervisor.atStart
  conditions := ConditionList.atStart
  store := store.atStart
  links := ⟨LinkInterface.atStart, LinkInterface.atStart, LinkInterface.atStart⟩
  pending := pending

/-! ### The conditions of the load (R169) -/

/-- STORE_FAULT for a section that failed its check. -/
def State.reportSection (sec : StoreSection) (passes : Bool) (s : State) : State :=
  if passes then s else s.onset .storeFault (.storeSection sec) (some (.storeSection sec))

/-- ZERO_UNSET for a present crusher whose zero is not valid (R96). -/
def State.reportZero (t : Train) (s : State) : State :=
  if s.present t && !(s.zero t).valid then s.onset .zeroUnset (.crusher t) none else s

/-- WEAR_LIMIT for a crusher whose W is at least the limit (R65). -/
def State.reportWear (t : Train) (s : State) : State :=
  if s.wearLimitStands t then s.onset .wearLimit (.crusher t) none else s

/-- The part starts from its store: the load, the start values of every block, and the conditions of the load
in the order of R169. -/
def startFrom (store : Store) (stamp : Stamp) (pending : List Instr) : State :=
  let s := blocksAtStart store stamp pending
  let s := s.reportSection .profile store.readProfile.isSome
  let s := s.reportSection .zero store.readZero.isSome
  let s := s.reportSection .wear store.readWear.isSome
  (s.forTrains State.reportZero).forTrains State.reportWear

/-! ### Power (R164, R169, R170) -/

/-- Power is applied: a start with the line clock at 0 and not set. On a part that has power it is a loss of
power and its return (log 4). -/
def State.powerOn (s : State) : State := startFrom s.store.cutShort ⟨0, false⟩ s.pending

/-- Power is lost: the section whose write is cut short fails its check, and only the store is kept. The
volatile state takes fixed values that nothing reads before the next start (log 4). -/
def State.lossOfPower (s : State) : State :=
  { State.reset with
    powered := false
    conditions := ConditionList.atStart
    store := s.store.cutShort.atStart
    pending := s.pending }

/-- The start of a RESTART may begin: its reply has been sent in full and the store is not WRITING (R170). -/
def State.restartDue (s : State) : Bool := s.restart = .replied && s.store.writing.isNone

/-- RESTART_START: a start that keeps the line clock and its set flag (R170). A second that the uptime has
reached and SECOND_BOUNDARY has not yet taken is not counted by the clock kept: the model's choice (log 9). -/
def State.restartStart (s : State) : State :=
  if s.restartDue then startFrom s.store s.stamp s.pending else s

end Sys2Proof.Machine
end

