-- ==== Sys2Proof/Machine/Answering.lean ====
section
/-! DEFINITION. Machine/Answering.lean: the judging of a taken frame and its reply, of chapter 10, and the
checks that owners share. -/

namespace Sys2Proof.Machine

/-- What becomes of a request: the state after it, and the answer. -/
structure Decision where
  state : State
  answer : Answer

/-- A refusal that changes nothing (R177). -/
def State.refuse (s : State) (status : Status) : Decision := ⟨s, Answer.refuse status⟩

/-- A request taken and answered DONE, with a body (R177). -/
def State.done (s : State) (body : List Byte) : Decision := ⟨s, Answer.done body⟩

/-- A link becomes LOCKED, and the onset of LINK_LOCKED is reported (R176). -/
def State.lockLink (s : State) (l : Link) : State :=
  (s.modLink l fun i => { i with locked := true }).onset .linkLocked (.link l) none

/-- A link becomes UNLOCKED; the cause of LINK_LOCKED ends if it was LOCKED (R176). -/
def State.unlockLink (s : State) (l : Link) : State :=
  let was := (s.link l).locked
  let s := s.modLink l fun i => { i with locked := false }
  if was then s.causeEnd .linkLocked (.link l) else s

/-- A taken frame of a known kind and length judged for lock, role and fields, and then by its owner
(R175). -/
def State.judged (s : State) (l : Link) (kind : Kind) (fieldsOk : Bool) (owner : State → Decision) : Decision :=
  if (s.link l).locked && !kind.isRead && kind ≠ .clearLock then s.refuse .linkLocked
  else if !kind.allowed l then (s.lockLink l).refuse .notAuthorised
  else if !fieldsOk then s.refuse .format
  else owner s

/-- The body of a reply: status, flags, and the further fields (R177). -/
def Answer.bytes (a : Answer) : List Byte := a.status.code :: a.flags.byte :: a.body

/-- The reply frame: the request's tag, and its kind plus 80h (R177). -/
def replyFrame (tag kind : Byte) (a : Answer) : List Byte := frameOf tag (kind + 0x80#8) a.bytes

/-- The reply of an outcome is given to the link to send (R177). -/
def Decision.reply (o : Decision) (l : Link) (tag kind : Byte) : State :=
  o.state.modLink l fun i => { i with reply := replyFrame tag kind o.answer }

/-- Reply-pending becomes yes as a frame is taken (R173). -/
def State.replyBegins (s : State) (l : Link) : State := s.modLink l fun i => { i with replyPending := true }

/-- A frame of a known kind and length taken on a link, judged and answered (R173, R175, R177). No frame is
taken once a RESTART has been (R170). -/
def State.takeRequest (s : State) (l : Link) (tag : Byte) (kind : Kind) (fieldsOk : Bool)
    (owner : State → Decision) : State :=
  if s.restart = .notTaken then
    ((s.replyBegins l).judged l kind fieldsOk owner).reply l tag kind.code
  else s

/-- A taken frame of an unknown kind, or of a body length wrong for its kind, is refused FORMAT (R174). -/
def State.refuseFormat (s : State) (l : Link) (tag kind : Byte) : State :=
  ((s.replyBegins l).refuse .format).reply l tag kind

/-! ### Checks that owners share -/

/-- A present station; BAD_STATION for a number above 7 and for an absent station. -/
def State.withPresent (s : State) (station : Byte) (f : Station → Decision) : Decision :=
  match Station.ofNumber station.toNat with
  | none => s.refuse .badStation
  | some st => if s.present st.train then f st else s.refuse .badStation

/-- A present crusher; BAD_STATION, then WRONG_KIND for a feeder. -/
def State.withPresentCrusher (s : State) (station : Byte) (f : Train → Decision) : Decision :=
  s.withPresent station fun st =>
    match st.role with
    | .feeder => s.refuse .wrongKind
    | .crusher => f st.train

/-- The subject of a running zero touch is refused BUSY. -/
def State.isBusy (s : State) (st : Station) : Bool := st.role = .crusher && s.isSubject st.train

/-- The AUTHORITY of a station (R15, R16). -/
def State.authority (s : State) (st : Station) : LinkSet :=
  match st.role with
  | .feeder => (s.feeder st.train).authority
  | .crusher => (s.crusher st.train).authority

end Sys2Proof.Machine
end

