-- ==== Sys2Proof/Machine/Setting.lean ====
section
/-! DEFINITION. Machine/Setting.lean: SET GAP, SET RATE and WITHDRAW, of chapter 2, and the lapse of a keep and
the expiry of a wait. -/

namespace Sys2Proof.Machine

/-! ### Lapse and expiry (R38, R40) -/

/-- The priority becomes 0 and the keep absent, at a lapse and at a release (R38, R45). -/
def Standing.released (st : Standing) : Standing := { st with priority := 0, keep := none }

/-- A standing setting gives up its priority, and selection runs if the station is accepting (R38, R45). -/
def State.releaseStanding (s : State) (st : Station) : State :=
  let s := s.modStation st fun r => { r with standing := r.standing.released }
  if s.accepting st then s.select st else s

/-- The keep of a standing setting has reached 0. -/
def State.lapseDue (s : State) (st : Station) : Bool := (s.station st).standing.keep = some 0

/-- KEEP_LAPSE (R38). -/
def State.keepLapse (s : State) (st : Station) : State := if s.lapseDue st then s.releaseStanding st else s

/-- The wait of a slot has reached 0. -/
def Board.waitDue (b : Board) (i : Nat) : Bool :=
  match b.slots[i]? with
  | some (some r) => r.wait = 0
  | some none | none => false

/-- WAIT_EXPIRY (R40). -/
def State.waitExpiry (s : State) (i : Nat) : State := if s.board.waitDue i then s.freeSlot i else s

/-! ### Setting requests (R31 to R35) -/

/-- A SET GAP or SET RATE as its frame carries it. -/
structure SettingRequest where
  link : Link
  tag : Byte
  station : Byte
  value : Half
  priority : Byte
  keep : Half
  wait : Half
  deriving DecidableEq, Repr

/-- The priority as taken: a priority from LC above 7 is lowered to 7 (R32). -/
def SettingRequest.priorityTaken (q : SettingRequest) : Nat :=
  match q.link with
  | .lc => min q.priority.toNat Config.lcPriorityCap
  | .op | .sv => q.priority.toNat

/-- The request as the board handles it, its value brought within the station's limits (R32, R33). A keep of 0
is absent (R178). -/
def State.slotOf (s : State) (st : Station) (q : SettingRequest) : Slot where
  station := st
  value := s.limited st q.value.toNat
  priority := q.priorityTaken
  source := q.link
  tag := q.tag
  sequence := s.board.counter
  keep := if q.keep.toNat = 0 then none else some q.keep.toNat
  wait := q.wait.toNat

/-- The outcome of a setting request (R34). -/
inductive Placement where
  | applied | outranked | notAccepting | boardFull
  | waiting (slot : Nat)
  deriving DecidableEq, Repr

/-- The status of an outcome. -/
def Placement.status : Placement → Status
  | .applied => .applied
  | .outranked => .outranked
  | .notAccepting => .notAccepting
  | .boardFull => .boardFull
  | .waiting _ => .waiting

/-- The slot byte of the reply, FFh unless WAITING (R179). -/
def Placement.slotCode : Placement → Nat
  | .waiting i => i
  | .applied | .outranked | .notAccepting | .boardFull => 0xFF

/-- The board decides the outcome of a request against its station (R34). -/
def State.placement (s : State) (r : Slot) : Placement :=
  if s.accepting r.station && outranks r.priority r.sequence (s.station r.station).standing then .applied
  else if r.wait = 0 then (if s.accepting r.station then .outranked else .notAccepting)
  else
    match s.board.lowestFree with
    | none => .boardFull
    | some i => .waiting i

/-- The outcome takes effect: the request is applied (R36) or placed in its slot (R34). -/
def State.place (s : State) (r : Slot) : Placement → State
  | .applied => s.apply r
  | .waiting i => s.withBoard { s.board with slots := s.board.slots.set i (some r) }
  | .outranked | .notAccepting | .boardFull => s

/-- The counter increases after a number is given; at its largest value it waits for the renumbering
(R27, R28). -/
def Board.numbered (b : Board) : Board :=
  { b with counter := if b.counter = Config.maxSequence then b.counter else b.counter + 1 }

/-- The request is given its number, and the link's waiting slot for the station is freed (R33). -/
def State.numberAndSupersede (s : State) (r : Slot) : State :=
  s.withBoard (s.board.freeWhere (Slot.isOf r.source r.station)).numbered

/-- The renumbering that the largest number brings, once the outcome is decided (R28). -/
def State.renumberAfter (s : State) (sequence : Nat) : State :=
  if sequence = Config.maxSequence then s.renumber else s

/-- The flags of the reply to a setting request (R35). -/
def State.settingFlags (s : State) (q : SettingRequest) (r : Slot) : ReplyFlags :=
  { ReplyFlags.none with
    clamped := r.value ≠ q.value.toNat
    priorityCapped := r.priority ≠ q.priority.toNat
    superseded := s.board.anyWaiting (Slot.isOf r.source r.station) }

/-- The body of the reply to a setting request (R35, R179). -/
def settingBody (r : Slot) (p : Placement) : List Byte :=
  f2 r.value ++ f1 r.priority ++ f4 r.sequence ++ f1 p.slotCode

/-- A setting request that has passed R31: it is bounded, numbered, supersedes, and is applied, placed or
refused (R32 to R35). The reply carries the number given, also where a renumbering follows (log 15). -/
def State.decideSetting (s : State) (st : Station) (q : SettingRequest) : Decision :=
  let r := s.slotOf st q
  let flags := s.settingFlags q r
  let s := s.numberAndSupersede r
  let p := s.placement r
  ⟨(s.place r p).renumberAfter r.sequence, ⟨p.status, flags, settingBody r p⟩⟩

/-- A setting request on the board, from the second check of R31 on. A lapse of the station's keep that is due
is taken before it (R39; log 11). -/
def State.ownSetting (role : Role) (q : SettingRequest) (s : State) : Decision :=
  s.withPresent q.station fun st =>
    if st.role ≠ role then s.refuse .wrongKind
    else if !(s.authority st).has q.link then (s.lockLink q.link).refuse .notAuthorised
    else (s.keepLapse st).decideSetting st q

/-! ### WITHDRAW (R44, R45) -/

/-- A standing setting was made by a link's request. -/
def Standing.isFrom (l : Link) (st : Standing) : Bool :=
  match st.origin with
  | .start => false
  | .request source _ _ => source = l

/-- WITHDRAW on the board (R44, R45). -/
def State.ownWithdraw (l : Link) (station : Byte) (s : State) : Decision :=
  s.withPresent station fun st =>
    let flags : ReplyFlags :=
      { ReplyFlags.none with
        removedWaiting := s.board.anyWaiting (Slot.isOf l st)
        releasedStanding := (s.station st).standing.isFrom l }
    let s := s.withBoard (s.board.freeWhere (Slot.isOf l st))
    let s := if (s.station st).standing.isFrom l then s.releaseStanding st else s
    ⟨s, ⟨.done, flags, []⟩⟩

/-! ### The request commands -/

/-- A SET GAP taken on a link. -/
def State.takeSetGap (q : SettingRequest) (s : State) : State :=
  s.takeRequest q.link q.tag .setGap (settingFieldsOk q.priority q.wait) (State.ownSetting .crusher q)

/-- A SET RATE taken on a link. -/
def State.takeSetRate (q : SettingRequest) (s : State) : State :=
  s.takeRequest q.link q.tag .setRate (settingFieldsOk q.priority q.wait) (State.ownSetting .feeder q)

/-- A WITHDRAW taken on a link. -/
def State.takeWithdraw (l : Link) (tag station : Byte) (s : State) : State :=
  s.takeRequest l tag .withdraw true (State.ownWithdraw l station)

end Sys2Proof.Machine
end

