-- ==== Sys2Proof/Machine/Requesting.lean ====
section
/-! DEFINITION. Machine/Requesting.lean: the requests of modes, parameters, jogs, zero touches,
acknowledgements, the store and the clock, and the reads. -/

namespace Sys2Proof.Machine

/-! ### SET MODE (R10) -/

/-- SET MODE in the Setting Table (R10). -/
def State.ownSetMode (station mode : Byte) (s : State) : Decision :=
  s.withPresent station fun st =>
    if s.isBusy st then s.refuse .busy
    else if (s.station st).mode = .outOfService && modeOf mode = .run then s.refuse .wrongMode
    else (s.enterMode st (modeOf mode)).done []

/-- A SET MODE taken on a link. -/
def State.takeSetMode (l : Link) (tag station mode : Byte) (s : State) : State :=
  s.takeRequest l tag .setMode (modeFieldOk mode) (State.ownSetMode station mode)

/-! ### SET PARAMETER and READ PARAMETER (R18, R19, R22) -/

/-- The parameter set a set byte names: a station's, or the line's (R178). -/
inductive ParamSet where
  | station (st : Station)
  | line
  deriving DecidableEq, Repr

/-- FFh names the line; 08h to FEh name no set (R178). -/
def ParamSet.ofByte (b : Byte) : Option ParamSet :=
  if b.toNat = 0xFF then some .line else (Station.ofNumber b.toNat).map ParamSet.station

/-- A parameter of a set. -/
inductive Param where
  | crusher (t : Train) (n : CrusherParam)
  | feeder (t : Train) (n : FeederParam)
  | line (n : LineParam)
  deriving DecidableEq, Repr

/-- The parameter a number names in a set; none where the set defines no such number (R18 check 2). -/
def ParamSet.param (set : ParamSet) (number : Nat) : Option Param :=
  match set with
  | .line => (LineParam.ofNumber number).map Param.line
  | .station st =>
    match st.role with
    | .feeder => (FeederParam.ofNumber number).map (Param.feeder st.train)
    | .crusher => (CrusherParam.ofNumber number).map (Param.crusher st.train)

/-- The range of a parameter. -/
def Param.range : Param → ParamRange
  | .crusher _ n => n.range
  | .feeder _ n => n.range
  | .line n => n.range

/-- The bounds of the second clamping on a parameter as the others stand (R19). -/
def State.paramBounds (s : State) : Param → Option (Nat × Nat)
  | .crusher t n => (s.crusher t).bounds n
  | .feeder t n => (s.feeder t).bounds n
  | .line n => s.line.bounds n

/-- The working value of a parameter, coded. -/
def State.paramValue (s : State) : Param → Nat
  | .crusher t n => (s.crusher t).get n
  | .feeder t n => (s.feeder t).get n
  | .line n => s.line.get n

/-- A parameter stored, with its effects. -/
def State.storeParam (s : State) (p : Param) (v : Nat) : State :=
  match p with
  | .crusher t n => s.storeCrusher t n v
  | .feeder t n => s.storeFeeder t n v
  | .line n => s.storeLine n v

/-- A station is in RUN. -/
def State.inRun (s : State) (st : Station) : Bool := (s.station st).mode = .run

/-- Some present station is in RUN (R18 check 5). -/
def State.anyInRun (s : State) : Bool := Station.all.any fun st => s.present st.train && s.inRun st

/-- Checks 4 and 5 of R18: the stations concerned are not in RUN. -/
def State.paramModeOk (s : State) : Param → Bool
  | .crusher t _ => !s.inRun (crusherOf t)
  | .feeder t _ => !s.inRun (feederOf t)
  | .line _ => !s.anyInRun

/-- A TRAINS_PRESENT value leaves out the train of the touch's subject (R18 check 7). -/
def State.leavesOutSubject (s : State) (trains : Quad Bool) : Bool :=
  match s.sequencer.subject with
  | none => false
  | some t => !trains.get t

/-- Checks 6 and 7 of R18: a running zero touch forbids the write. -/
def State.paramBusy (s : State) (p : Param) (v : Nat) : Bool :=
  match p with
  | .crusher t _ => s.isSubject t
  | .feeder _ _ => false
  | .line n => n = .trainsPresent && s.leavesOutSubject (trainSetOf v)

/-- A write that has named a parameter, from the third check of R18 on. -/
def State.writeParam (s : State) (p : Param) (v : Nat) : Decision :=
  if !p.range.defined v then s.refuse .format
  else if !s.paramModeOk p then s.refuse .wrongMode
  else if s.paramBusy p v then s.refuse .busy
  else
    let stored := storedValue p.range (s.paramBounds p) v
    ⟨s.storeParam p stored, ⟨.done, { ReplyFlags.none with clamped := stored ≠ v }, f2 stored⟩⟩

/-- The parameter a request names: BAD_STATION, then WRONG_KIND (R18, R22). -/
def State.withParam (s : State) (set number : Byte) (f : Param → Decision) : Decision :=
  match ParamSet.ofByte set with
  | none => s.refuse .badStation
  | some ps =>
    match ps.param number.toNat with
    | none => s.refuse .wrongKind
    | some p => f p

/-- SET PARAMETER in the Setting Table (R18). -/
def State.ownSetParameter (set number : Byte) (value : Half) (s : State) : Decision :=
  s.withParam set number fun p => s.writeParam p value.toNat

/-- READ PARAMETER (R22). -/
def State.ownReadParameter (set number : Byte) (s : State) : Decision :=
  s.withParam set number fun p => s.done (set :: number :: f2 (s.paramValue p))

/-- A SET PARAMETER taken on a link. -/
def State.takeSetParameter (l : Link) (tag set number : Byte) (value : Half) (s : State) : State :=
  s.takeRequest l tag .setParameter true (State.ownSetParameter set number value)

/-- A READ PARAMETER taken on a link. -/
def State.takeReadParameter (l : Link) (tag set number : Byte) (s : State) : State :=
  s.takeRequest l tag .readParameter true (State.ownReadParameter set number)

/-! ### JOG (R87) -/

/-- The fifth check of JOG fails: the Positioner is in FAULT, or holds ESTOP or RELIEF (R87). -/
def State.jogBarred (s : State) (t : Train) : Bool :=
  (s.positioner t).state = .fault || (s.positioner t).reasons.estop || (s.positioner t).reasons.relief

/-- JOG in the Positioner (R87). -/
def State.ownJog (station direction : Byte) (duty duration : Half) (s : State) : Decision :=
  s.withPresentCrusher station fun t =>
    if s.isSubject t then s.refuse .busy
    else if (s.station (crusherOf t)).mode ≠ .maintenance then s.refuse .wrongMode
    else if s.jogBarred t then s.refuse .wrongMode
    else
      let taken := min duty.toNat (s.crusher t).dutyMax
      ⟨s.startJog t (directionOf direction) taken duration.toNat,
        ⟨.done, { ReplyFlags.none with clamped := taken ≠ duty.toNat }, f2 taken⟩⟩

/-- A JOG taken on a link. -/
def State.takeJog (l : Link) (tag station direction : Byte) (duty duration : Half) (s : State) : State :=
  s.takeRequest l tag .jog (jogFieldsOk direction duration) (State.ownJog station direction duty duration)

/-! ### START ZERO and ABORT ZERO (R97, R108) -/

/-- START ZERO in the Zero Touch Sequencer (R97). -/
def State.ownStartZero (station : Byte) (s : State) : Decision :=
  s.withPresentCrusher station fun t =>
    if s.sequencer.state ≠ .idle then s.refuse .busy
    else if !s.touchPossible t then s.refuse .wrongMode
    else (s.startTouch t).done []

/-- ABORT ZERO in the Zero Touch Sequencer (R108). -/
def State.ownAbortZero (station : Byte) (s : State) : Decision :=
  s.withPresentCrusher station fun t =>
    if !s.isSubject t then s.refuse .wrongMode else (s.abortTouch t .abortedRequest).done []

/-- A START ZERO taken on a link. -/
def State.takeStartZero (l : Link) (tag station : Byte) (s : State) : State :=
  s.takeRequest l tag .startZero true (State.ownStartZero station)

/-- An ABORT ZERO taken on a link. -/
def State.takeAbortZero (l : Link) (tag station : Byte) (s : State) : State :=
  s.takeRequest l tag .abortZero true (State.ownAbortZero station)

/-! ### ACKNOWLEDGE and ACKNOWLEDGE ALL (R153 to R155) -/

/-- What kind of subject a code requires (R148). -/
inductive SubjectKind where
  | none | crusher | link | storeSection
  deriving DecidableEq, Repr

/-- The kind of subject of a code (R148). -/
def Code.subjectKind : Code → SubjectKind
  | .estop | .surgeConveyorStopped | .productConveyorStopped | .surgeHigh | .surgeLow => .none
  | .relief | .repeatedRelief | .overload | .powerTrip | .moveTimeout | .positionFault | .zeroUnset
  | .wearLimit | .zeroRejected | .zeroAborted => .crusher
  | .storeFault => .storeSection
  | .linkLocked => .link

/-- What a subject byte names (R178); a byte that names nothing is refused FORMAT before this is asked. -/
inductive SubjectField where
  | none
  | station (number : Nat)
  | link (l : Link)
  | storeSection (sec : StoreSection)
  deriving DecidableEq, Repr

/-- The reading of a subject byte (R178). -/
def SubjectField.ofByte (b : Byte) : SubjectField :=
  match b.toNat with
  | 0x40 => .link .lc
  | 0x41 => .link .op
  | 0x42 => .link .sv
  | 0x80 => .storeSection .profile
  | 0x81 => .storeSection .zero
  | 0x82 => .storeSection .wear
  | 0xFF => .none
  | n => .station n

/-- The subject of an acknowledgement, by the checks of R153; the refusal where one fails. -/
def acknowledgedSubject (code : Code) (field : SubjectField) : Except Status Subject :=
  match code.subjectKind, field with
  | .none, .none => .ok .line
  | .link, .link l => .ok (.link l)
  | .storeSection, .storeSection sec => .ok (.storeSection sec)
  | .crusher, .station n =>
    match Station.ofNumber n with
    | none => .error .badStation
    | some st =>
      match st.role with
      | .feeder => .error .wrongKind
      | .crusher => .ok (.crusher st.train)
  | _, _ => .error .wrongKind

/-- The acknowledgement passed to the owner of a crusher's latch (R154 step 2). -/
def State.ackOwner (s : State) (code : Code) (t : Train) : State :=
  match code with
  | .repeatedRelief => s.ackLatch t .repeatedRelief
  | .powerTrip => s.ackLatch t .powerTrip
  | .moveTimeout => s.clearFault t
  | .zeroRejected => s.modZero t fun z => { z with rejected := false }
  | .zeroAborted => s.modZero t fun z => { z with aborted := false }
  | .estop | .surgeConveyorStopped | .productConveyorStopped | .surgeHigh | .surgeLow | .relief
  | .overload | .positionFault | .zeroUnset | .wearLimit | .storeFault | .linkLocked => s

/-- The acknowledgement passed to the owner of a latch, where the subject is a crusher's (R154 step 2). -/
def State.ackSubject (s : State) (code : Code) : Subject → State
  | .crusher t => s.ackOwner code t
  | .line | .link _ | .storeSection _ => s

/-- An acknowledgement acts (R154). -/
def State.acknowledge (s : State) (code : Code) (subject : Subject) : State :=
  let s := s.modConditions fun l => l.acknowledged code subject
  let s := s.ackSubject code subject
  s.modConditions fun l => l.withoutAnswered code subject

/-- ACKNOWLEDGE in the Condition List (R153, R154); the reply says whether an entry was listed and whether it
was removed. A code that names none is refused FORMAT before this is asked. -/
def State.ownAcknowledge (code subject : Byte) (s : State) : Decision :=
  match Code.ofNumber code.toNat with
  | none => s.refuse .format
  | some c =>
    match acknowledgedSubject c (SubjectField.ofByte subject) with
    | .error status => s.refuse status
    | .ok sub =>
      let found := s.conditions.listed c sub
      let s := s.acknowledge c sub
      s.done (f1 (boolCode found) ++ f1 (boolCode (found && !s.conditions.listed c sub)))

/-- The five latches of a crusher take an acknowledgement (R155 step 2). -/
def State.ackCrusher (t : Train) (s : State) : State :=
  ((((s.ackOwner .repeatedRelief t).ackOwner .powerTrip t).ackOwner .moveTimeout t).ackOwner
    .zeroRejected t).ackOwner .zeroAborted t

/-- Steps 1 and 2 of ACKNOWLEDGE ALL (R155). -/
def State.acknowledgeOwners (s : State) : State :=
  (s.modConditions ConditionList.allAcknowledged).forTrains State.ackCrusher

/-- ACKNOWLEDGE ALL in the Condition List (R155); the count is of the entries its third step removes (log 13). -/
def State.ownAcknowledgeAll (s : State) : Decision :=
  let s := s.acknowledgeOwners
  let before := s.conditions.entries.length
  let s := s.modConditions ConditionList.allAnswered
  s.done (f1 (before - s.conditions.entries.length))

/-- An ACKNOWLEDGE taken on a link. -/
def State.takeAcknowledge (l : Link) (tag code subject : Byte) (s : State) : State :=
  s.takeRequest l tag .acknowledge (acknowledgeFieldsOk code subject) (State.ownAcknowledge code subject)

/-- An ACKNOWLEDGE ALL taken on a link. -/
def State.takeAcknowledgeAll (l : Link) (tag : Byte) (s : State) : State :=
  s.takeRequest l tag .acknowledgeAll true State.ownAcknowledgeAll

/-! ### SAVE PROFILE, RESTART, SET CLOCK and CLEAR LOCK (R167, R170, R162, R176) -/

/-- SAVE PROFILE in the Calibration Store (R167). -/
def State.ownSaveProfile (s : State) : Decision := (s.mark .profile).done []

/-- RESTART in the Calibration Store (R170). -/
def State.ownRestart (s : State) : Decision := (s.withRestart .replying).done []

/-- SET CLOCK in the Time Base (R162). Taken between the MILLISECOND_BOUNDARY that reaches a second and its
SECOND_BOUNDARY, it is followed within the same millisecond by that boundary, which the model takes for the next
one: the clock then holds the value plus 1 (log 9). -/
def State.ownSetClock (value : Word) (s : State) : Decision :=
  (s.withTime { s.time with lineClock := value.toNat, clockSet := true }).done (f4 value.toNat)

/-- CLEAR LOCK in the Link Interface (R176). -/
def State.ownClearLock (l : Link) (s : State) : Decision := (s.unlockLink l).done []

/-- A SAVE PROFILE taken on a link. -/
def State.takeSaveProfile (l : Link) (tag : Byte) (s : State) : State :=
  s.takeRequest l tag .saveProfile true State.ownSaveProfile

/-- A RESTART taken on a link. -/
def State.takeRestart (l : Link) (tag : Byte) (s : State) : State :=
  s.takeRequest l tag .restart true State.ownRestart

/-- A SET CLOCK taken on a link. -/
def State.takeSetClock (l : Link) (tag : Byte) (value : Word) (s : State) : State :=
  s.takeRequest l tag .setClock true (State.ownSetClock value)

/-- A CLEAR LOCK taken on a link. -/
def State.takeClearLock (l : Link) (tag : Byte) (s : State) : State :=
  s.takeRequest l tag .clearLock true (State.ownClearLock l)

/-! ### The other reads (R48, R47, R159, R110, R163) -/

/-- READ STATION: an absent station is read like a present one (R48). -/
def State.ownReadStation (station : Byte) (s : State) : Decision :=
  match Station.ofNumber station.toNat with
  | none => s.refuse .badStation
  | some st => s.done (s.stationBody st)

/-- READ WAITING (R47). -/
def State.ownReadWaiting (l : Link) (s : State) : Decision := s.done (s.waitingBody l)

/-- READ CONDITIONS (R159). -/
def State.ownReadConditions (s : State) : Decision := s.done s.conditionsBody

/-- READ ZERO RECORD: an absent crusher is read like a present one (R110). -/
def State.ownReadZeroRecord (station : Byte) (s : State) : Decision :=
  match Station.ofNumber station.toNat with
  | none => s.refuse .badStation
  | some st =>
    match st.role with
    | .feeder => s.refuse .wrongKind
    | .crusher => s.done (s.zeroBody st.train)

/-- READ CLOCK (R163). -/
def State.ownReadClock (s : State) : Decision := s.done s.clockBody

/-- A READ STATION taken on a link. -/
def State.takeReadStation (l : Link) (tag station : Byte) (s : State) : State :=
  s.takeRequest l tag .readStation true (State.ownReadStation station)

/-- A READ WAITING taken on a link. -/
def State.takeReadWaiting (l : Link) (tag : Byte) (s : State) : State :=
  s.takeRequest l tag .readWaiting true (State.ownReadWaiting l)

/-- A READ CONDITIONS taken on a link. -/
def State.takeReadConditions (l : Link) (tag : Byte) (s : State) : State :=
  s.takeRequest l tag .readConditions true State.ownReadConditions

/-- A READ ZERO RECORD taken on a link. -/
def State.takeReadZeroRecord (l : Link) (tag station : Byte) (s : State) : State :=
  s.takeRequest l tag .readZeroRecord true (State.ownReadZeroRecord station)

/-- A READ CLOCK taken on a link. -/
def State.takeReadClock (l : Link) (tag : Byte) (s : State) : State :=
  s.takeRequest l tag .readClock true State.ownReadClock

end Sys2Proof.Machine
end

