-- ==== Sys2Proof/Machine/Linking.lean ====
section
/-! DEFINITION. Machine/Linking.lean: the receiving of frames byte by byte and the end of replies, of
chapter 10. -/

namespace Sys2Proof.Machine

/-- A request read from a frame, taken on its link (R175); a command that is no request is never read from
one. -/
def State.takeCommand (s : State) : Instr → State
  | .setGap l tag st v p k w => s.takeSetGap ⟨l, tag, st, v, p, k, w⟩
  | .setRate l tag st v p k w => s.takeSetRate ⟨l, tag, st, v, p, k, w⟩
  | .withdraw l tag st => s.takeWithdraw l tag st
  | .setMode l tag st m => s.takeSetMode l tag st m
  | .setParameter l tag set n v => s.takeSetParameter l tag set n v
  | .jog l tag st d u r => s.takeJog l tag st d u r
  | .startZero l tag st => s.takeStartZero l tag st
  | .abortZero l tag st => s.takeAbortZero l tag st
  | .acknowledge l tag c sub => s.takeAcknowledge l tag c sub
  | .acknowledgeAll l tag => s.takeAcknowledgeAll l tag
  | .saveProfile l tag => s.takeSaveProfile l tag
  | .restart l tag => s.takeRestart l tag
  | .setClock l tag v => s.takeSetClock l tag v
  | .clearLock l tag => s.takeClearLock l tag
  | .readStation l tag st => s.takeReadStation l tag st
  | .readWaiting l tag => s.takeReadWaiting l tag
  | .readConditions l tag => s.takeReadConditions l tag
  | .readParameter l tag set n => s.takeReadParameter l tag set n
  | .readZeroRecord l tag st => s.takeReadZeroRecord l tag st
  | .readClock l tag => s.takeReadClock l tag
  | .powerOn | .restartStart | .millisecondBoundary _ | .secondBoundary | .keepLapse _ | .waitExpiry _
  | .digitalChange _ | .estopAssert | .estopRelease | .positionArrival _ _ | .recoveryExpiry _
  | .pressureArrival _ _ | .powerArrival _ _ | .surgeLevelArrival _ | .overloadDelayExpiry _
  | .clearingExpiry _ | .sampleExpiry _ | .drainExpiry _ | .deadTimeExpiry _ | .moveTimerExpiry _
  | .jogTimeEnd _ | .dwellExpiry | .timeLimitExpiry | .wearStep _ | .updateExpiry _
  | .storeWriteComplete _ | .linkByteReceived _ _ | .interByteGap _ | .replySent _ | .lossOfPower => s

/-- A frame that is taken: a request, or refused FORMAT (R174, R175 check 1). -/
def State.takeFrame (s : State) (l : Link) (tag kind : Byte) (body : List Byte) : State :=
  match decodeRequest l tag kind body with
  | none => s.refuseFormat l tag kind
  | some i => s.takeCommand i

/-- A complete frame: discarded when its CRC differs or a reply is pending, else taken (R173). -/
def State.completeFrame (s : State) (l : Link) : List Byte → State
  | _ :: n :: tag :: kind :: rest =>
    let body := rest.take (n.toNat - 2)
    if rest.drop (n.toNat - 2) ≠ halfBytes (crc16 (n :: tag :: kind :: body)) then s
    else if (s.link l).replyPending then s
    else s.takeFrame l tag kind body
  | _ => s

/-- The receive state of a link (R171). -/
def State.receiving (s : State) (l : Link) (r : Option Receiving) : State :=
  s.modLink l fun i => { i with receiving := r }

/-- A length byte lies in 2 to 42 (R173). -/
def lengthOk (n : Byte) : Bool := 2 ≤ n.toNat && n.toNat ≤ 42

/-- A byte taken into a frame begun: an impossible length discards it, and the byte n + 3 after the sync
completes it (R173). -/
def State.frameByte (s : State) (l : Link) (bytes : List Byte) : State :=
  match bytes with
  | [_, n] => if lengthOk n then s.receiving l (some ⟨bytes, s.now⟩) else s.receiving l none
  | _ :: n :: _ =>
    if bytes.length = n.toNat + 4 then (s.receiving l none).completeFrame l bytes
    else s.receiving l (some ⟨bytes, s.now⟩)
  | _ => s.receiving l (some ⟨bytes, s.now⟩)

/-- A byte judged in HUNTING or RECEIVING (R173). -/
def State.takeByte (s : State) (l : Link) (b : Byte) : State :=
  match (s.link l).receiving with
  | none => if b = Config.sync then s.frameByte l [b] else s
  | some r => s.frameByte l (r.bytes ++ [b])

/-- A gap of more than 5 ms has passed since the last byte of a frame begun (R173; log 10). -/
def State.gapDue (s : State) (l : Link) : Bool :=
  match (s.link l).receiving with
  | none => false
  | some r => Config.interByteLimit < elapsed s.now r.lastByte

/-- INTER_BYTE_GAP: the part of a frame taken is discarded (R173). -/
def State.interByteGap (s : State) (l : Link) : State := if s.gapDue l then s.receiving l none else s

/-- LINK_BYTE_RECEIVED: a gap that the byte ends is taken first, and the byte is then judged (R173). After a
RESTART has been taken every byte is discarded (R170). -/
def State.linkByte (s : State) (l : Link) (b : Byte) : State :=
  if s.restart = .notTaken then (s.interByteGap l).takeByte l b else s

/-- The DONE reply of a RESTART has been sent in full (R170). -/
def State.restartReplied (s : State) (l : Link) : State :=
  if l = .sv && s.restart = .replying then s.withRestart .replied else s

/-- REPLY_SENT: reply-pending becomes no (R173). With no reply pending there is no reply to end. -/
def State.replySent (s : State) (l : Link) : State :=
  if (s.link l).replyPending then
    (s.modLink l fun i => { i with replyPending := false }).restartReplied l
  else s

end Sys2Proof.Machine
end

