-- ==== Sys2Proof/Machine/Clocking.lean ====
section
/-! DEFINITION. Machine/Clocking.lean: the millisecond and second boundaries of chapter 9, and the taking of
events that have fallen due. -/

namespace Sys2Proof.Machine

/-! ### The second boundary (R38, R40, R161) -/

/-- A keep counted down (R38). One that has come to 0 stands with its old priority, and READ STATION shows it so,
until KEEP_LAPSE, a command of its own, takes the lapse (log 25). -/
def StationRecord.countKeep (r : StationRecord) : StationRecord :=
  { r with standing := { r.standing with keep := r.standing.keep.map fun k => k - 1 } }

/-- The waits counted down (R40). A slot whose wait has come to 0 stays on the board, and READ WAITING lists it
with wait 0, until WAIT_EXPIRY, a command of its own, frees it (log 25). -/
def Board.countWaits (b : Board) : Board :=
  { b with slots := b.slots.map fun o => o.map fun r => { r with wait := r.wait - 1 } }

/-- The line clock advances and wraps (R161). It does so at SECOND_BOUNDARY, a command after the
MILLISECOND_BOUNDARY that reached the second: what is read or stamped in between takes the clock of the second
before (log 9). -/
def TimeBase.advanceClock (t : TimeBase) : TimeBase :=
  { t with lineClock := (t.lineClock + 1) % Config.secondSpan, secondDue := false }

/-- SECOND_BOUNDARY: keeps, waits and the line clock (R38, R40, R161). The second count itself has advanced
with the millisecond that reached the boundary (R160). The line clock advances from whatever it holds, so from the
value of a SET CLOCK taken since that millisecond too: the model's choice (R162; log 9). -/
def State.secondBoundary (s : State) : State :=
  if s.time.secondDue then
    { s with
      time := s.time.advanceClock
      feeders := s.feeders.map StationRecord.countKeep
      crushers := s.crushers.map StationRecord.countKeep
      board := s.board.countWaits }
  else s

/-! ### Events outstanding (log 2) -/

/-- The ten debounced inputs. -/
def DigitalInput.all : List DigitalInput :=
  [.running .t0, .running .t1, .running .t2, .running .t3, .reliefSwitch .t0, .reliefSwitch .t1,
   .reliefSwitch .t2, .reliefSwitch .t3, .surgeConveyor, .productConveyor]

/-- The countdowns that have ended (R38, R40). -/
def State.settleCounts (s : State) : State :=
  let s := Station.all.foldl State.keepLapse s.secondBoundary
  (List.range Config.slotCount).foldl State.waitExpiry s

/-- The digital changes that are due (R52, R53). -/
def State.settleInputs (s : State) : State :=
  ((DigitalInput.all.foldl State.digitalChange s).estopAssert).estopRelease

/-- The timers that have expired. -/
def State.settleTimers (s : State) : State :=
  let s := s.forTrains fun t s => s.recoveryExpiry t
  let s := s.forTrains fun t s => s.clearingExpiry t
  let s := s.forTrains fun t s => s.overloadDelayExpiry t
  let s := s.dwellExpiry.timeLimitExpiry
  let s := s.forTrains fun t s => s.drainExpiry t
  let s := s.forTrains fun t s => s.deadTimeExpiry t
  let s := s.forTrains fun t s => s.moveTimerExpiry t
  let s := s.forTrains fun t s => s.sampleExpiry t
  let s := s.forTrains fun t s => s.jogTimeEnd t
  let s := s.forTrains fun t s => s.wearStep t
  s.forTrains fun t s => s.updateExpiry t

/-- The gaps between bytes that have passed (R173). -/
def State.settleLinks (s : State) : State := ((s.interByteGap .lc).interByteGap .op).interByteGap .sv

/-- Every event that has fallen due and that no command has taken is taken, in one fixed order (log 2). -/
def State.settle (s : State) : State :=
  s.settleCounts.settleInputs.settleTimers.settleLinks.restartStart

/-! ### The millisecond boundary (R52, R54, R63, R88, R160) -/

/-- The uptime advances by 1 ms (R160). The second it reaches is due to the line clock, the keeps and the waits
until SECOND_BOUNDARY takes it (log 9). -/
def TimeBase.advance (t : TimeBase) : TimeBase :=
  if t.millis + 1 < 1000 then { t with millis := t.millis + 1 }
  else { t with millis := 0, seconds := (t.seconds + 1) % Config.secondSpan, secondDue := true }

/-- The first sample of an input gives its level at the boundary it is taken at (R54). -/
def State.firstLevel (s : State) (i : DigitalInput) : State :=
  if (s.inputs.digital i).level.isNone then s.digitalChange i else s

/-- The first sample of the E-stop loop (R54). -/
def State.firstEstop (s : State) : State :=
  if s.inputs.estop.level.isNone then s.estopAssert.estopRelease else s

/-- The digital inputs sampled, and the levels of first samples delivered (R52 to R54). -/
def State.sampleInputs (s : State) (x : Samples) : State :=
  (DigitalInput.all.foldl State.firstLevel (s.withInputs (s.inputs.sampled x))).firstEstop

/-- One millisecond of the running jogs and of the PWM outputs (R70, R88, R119). -/
def State.tickOutputs (s : State) : State :=
  { s with
    positioners := s.positioners.map fun p => p.tickJog.tickValve
    governors := s.governors.map Governor.tick }

/-- MILLISECOND_BOUNDARY: outstanding events first, then the uptime, the running jogs and outputs, the samples
and the loaded time (R160). A level first sampled here counts for the loaded time of this boundary: R63 allows either
order, and this one is the model's choice (log 2). -/
def State.millisecondBoundary (s : State) (x : Samples) : State :=
  let s := s.settle
  let s := (s.withTime s.time.advance).tickOutputs
  (s.sampleInputs x).forTrains State.countLoaded

end Sys2Proof.Machine
end

