-- ==== Sys2Proof/Machine/Events.lean ====
section
/-! DEFINITION. Machine/Events.lean: the meanings of the commands that are no requests: supply, boundaries,
inputs, timers, the store and the ends of frames. -/

namespace Sys2Proof.Machine

/-- What a command does to a part that has power; without power it changes nothing (log 4). -/
def State.whenPowered (s : State) (f : State → State) : Host.Outcome State Fault Refusal :=
  .next (if s.powered then f s else s)

/-- POWER_ON (R169). -/
def execPowerOn (s : State) : Host.Outcome State Fault Refusal := .next s.powerOn

/-- RESTART_START (R170). -/
def execRestartStart (s : State) : Host.Outcome State Fault Refusal := s.whenPowered fun s => s.restartStart

/-- MILLISECOND_BOUNDARY (R160). -/
def execMillisecondBoundary (samples : Samples) (s : State) : Host.Outcome State Fault Refusal :=
  s.whenPowered fun s => s.millisecondBoundary samples

/-- SECOND_BOUNDARY (R160, R161, R38, R40). -/
def execSecondBoundary (s : State) : Host.Outcome State Fault Refusal :=
  s.whenPowered fun s => s.secondBoundary

/-- KEEP_LAPSE (R38). -/
def execKeepLapse (st : Station) (s : State) : Host.Outcome State Fault Refusal :=
  s.whenPowered fun s => s.keepLapse st

/-- WAIT_EXPIRY (R40). -/
def execWaitExpiry (slot : Fin 24) (s : State) : Host.Outcome State Fault Refusal :=
  s.whenPowered fun s => s.waitExpiry slot.val

/-- DIGITAL_CHANGE (R52). -/
def execDigitalChange (input : DigitalInput) (s : State) : Host.Outcome State Fault Refusal :=
  s.whenPowered fun s => s.digitalChange input

/-- ESTOP_ASSERT (R85). -/
def execEstopAssert (s : State) : Host.Outcome State Fault Refusal := s.whenPowered fun s => s.estopAssert

/-- ESTOP_RELEASE (R86). -/
def execEstopRelease (s : State) : Host.Outcome State Fault Refusal := s.whenPowered fun s => s.estopRelease

/-- POSITION_ARRIVAL (R56). -/
def execPositionArrival (t : Train) (reading : Option (BitVec 16))
    (s : State) : Host.Outcome State Fault Refusal :=
  s.whenPowered fun s => s.positionArrival t reading

/-- RECOVERY_EXPIRY (R56, R58). -/
def execRecoveryExpiry (t : Train) (s : State) : Host.Outcome State Fault Refusal :=
  s.whenPowered fun s => s.recoveryExpiry t

/-- PRESSURE_ARRIVAL (R133, R134, R100). -/
def execPressureArrival (t : Train) (loop : LoopReading) (s : State) : Host.Outcome State Fault Refusal :=
  s.whenPowered fun s => s.pressureArrival t loop

/-- POWER_ARRIVAL (R140 to R142, R100). -/
def execPowerArrival (t : Train) (loop : LoopReading) (s : State) : Host.Outcome State Fault Refusal :=
  s.whenPowered fun s => s.powerArrival t loop

/-- SURGE_LEVEL_ARRIVAL (R124, R125). -/
def execSurgeLevelArrival (loop : LoopReading) (s : State) : Host.Outcome State Fault Refusal :=
  s.whenPowered fun s => s.surgeLevelArrival loop

/-- OVERLOAD_DELAY_EXPIRY (R140). -/
def execOverloadDelayExpiry (t : Train) (s : State) : Host.Outcome State Fault Refusal :=
  s.whenPowered fun s => s.overloadDelayExpiry t

/-- CLEARING_EXPIRY (R138). -/
def execClearingExpiry (t : Train) (s : State) : Host.Outcome State Fault Refusal :=
  s.whenPowered fun s => s.clearingExpiry t

/-- SAMPLE_EXPIRY (R77). -/
def execSampleExpiry (t : Train) (s : State) : Host.Outcome State Fault Refusal :=
  s.whenPowered fun s => s.sampleExpiry t

/-- DRAIN_EXPIRY (R74). -/
def execDrainExpiry (t : Train) (s : State) : Host.Outcome State Fault Refusal :=
  s.whenPowered fun s => s.drainExpiry t

/-- DEAD_TIME_EXPIRY (R76, R71). -/
def execDeadTimeExpiry (t : Train) (s : State) : Host.Outcome State Fault Refusal :=
  s.whenPowered fun s => s.deadTimeExpiry t

/-- MOVE_TIMER_EXPIRY (R80). -/
def execMoveTimerExpiry (t : Train) (s : State) : Host.Outcome State Fault Refusal :=
  s.whenPowered fun s => s.moveTimerExpiry t

/-- JOG_TIME_END (R88, R89). -/
def execJogTimeEnd (t : Train) (s : State) : Host.Outcome State Fault Refusal :=
  s.whenPowered fun s => s.jogTimeEnd t

/-- DWELL_EXPIRY (R101). -/
def execDwellExpiry (s : State) : Host.Outcome State Fault Refusal := s.whenPowered fun s => s.dwellExpiry

/-- TIME_LIMIT_EXPIRY (R106). -/
def execTimeLimitExpiry (s : State) : Host.Outcome State Fault Refusal :=
  s.whenPowered fun s => s.timeLimitExpiry

/-- WEAR_STEP (R64). -/
def execWearStep (t : Train) (s : State) : Host.Outcome State Fault Refusal :=
  s.whenPowered fun s => s.wearStep t

/-- UPDATE_EXPIRY (R114). -/
def execUpdateExpiry (t : Train) (s : State) : Host.Outcome State Fault Refusal :=
  s.whenPowered fun s => s.updateExpiry t

/-- STORE_WRITE_COMPLETE (R166). -/
def execStoreWriteComplete (success : Bool) (s : State) : Host.Outcome State Fault Refusal :=
  s.whenPowered fun s => s.writeCompleted success

/-- LINK_BYTE_RECEIVED (R173). -/
def execLinkByteReceived (l : Link) (b : Byte) (s : State) : Host.Outcome State Fault Refusal :=
  s.whenPowered fun s => s.linkByte l b

/-- INTER_BYTE_GAP (R173). -/
def execInterByteGap (l : Link) (s : State) : Host.Outcome State Fault Refusal :=
  s.whenPowered fun s => s.interByteGap l

/-- REPLY_SENT (R173, R170). -/
def execReplySent (l : Link) (s : State) : Host.Outcome State Fault Refusal :=
  s.whenPowered fun s => s.replySent l

/-- LOSS_OF_POWER (R164). -/
def execLossOfPower (s : State) : Host.Outcome State Fault Refusal := s.whenPowered fun s => s.lossOfPower

end Sys2Proof.Machine
end

