-- ==== Sys2Proof/Machine/Requests.lean ====
section
/-! DEFINITION. Machine/Requests.lean: the meanings of the requests that act on the part. Each is a frame of its
kind taken on its link (log 3). -/

namespace Sys2Proof.Machine

/-- SET_GAP (R31 to R37). -/
def execSetGap (l : Link) (tag station : Byte) (value : Half) (priority : Byte) (keep wait : Half)
    (s : State) : Host.Outcome State Fault Refusal :=
  s.whenPowered fun s => s.takeSetGap ⟨l, tag, station, value, priority, keep, wait⟩

/-- SET_RATE (R31 to R37). -/
def execSetRate (l : Link) (tag station : Byte) (value : Half) (priority : Byte) (keep wait : Half)
    (s : State) : Host.Outcome State Fault Refusal :=
  s.whenPowered fun s => s.takeSetRate ⟨l, tag, station, value, priority, keep, wait⟩

/-- WITHDRAW (R44, R45). -/
def execWithdraw (l : Link) (tag station : Byte) (s : State) : Host.Outcome State Fault Refusal :=
  s.whenPowered fun s => s.takeWithdraw l tag station

/-- SET_MODE (R10). -/
def execSetMode (l : Link) (tag station mode : Byte) (s : State) : Host.Outcome State Fault Refusal :=
  s.whenPowered fun s => s.takeSetMode l tag station mode

/-- SET_PARAMETER (R18). -/
def execSetParameter (l : Link) (tag set number : Byte) (value : Half)
    (s : State) : Host.Outcome State Fault Refusal :=
  s.whenPowered fun s => s.takeSetParameter l tag set number value

/-- JOG (R87). -/
def execJog (l : Link) (tag station direction : Byte) (duty duration : Half)
    (s : State) : Host.Outcome State Fault Refusal :=
  s.whenPowered fun s => s.takeJog l tag station direction duty duration

/-- START_ZERO (R97). -/
def execStartZero (l : Link) (tag station : Byte) (s : State) : Host.Outcome State Fault Refusal :=
  s.whenPowered fun s => s.takeStartZero l tag station

/-- ABORT_ZERO (R108). -/
def execAbortZero (l : Link) (tag station : Byte) (s : State) : Host.Outcome State Fault Refusal :=
  s.whenPowered fun s => s.takeAbortZero l tag station

/-- ACKNOWLEDGE (R153, R154). -/
def execAcknowledge (l : Link) (tag code subject : Byte) (s : State) : Host.Outcome State Fault Refusal :=
  s.whenPowered fun s => s.takeAcknowledge l tag code subject

/-- ACKNOWLEDGE_ALL (R155). -/
def execAcknowledgeAll (l : Link) (tag : Byte) (s : State) : Host.Outcome State Fault Refusal :=
  s.whenPowered fun s => s.takeAcknowledgeAll l tag

/-- SAVE_PROFILE (R167). -/
def execSaveProfile (l : Link) (tag : Byte) (s : State) : Host.Outcome State Fault Refusal :=
  s.whenPowered fun s => s.takeSaveProfile l tag

/-- RESTART (R170). -/
def execRestart (l : Link) (tag : Byte) (s : State) : Host.Outcome State Fault Refusal :=
  s.whenPowered fun s => s.takeRestart l tag

/-- SET_CLOCK (R162). -/
def execSetClock (l : Link) (tag : Byte) (value : Word) (s : State) : Host.Outcome State Fault Refusal :=
  s.whenPowered fun s => s.takeSetClock l tag value

/-- CLEAR_LOCK (R176). -/
def execClearLock (l : Link) (tag : Byte) (s : State) : Host.Outcome State Fault Refusal :=
  s.whenPowered fun s => s.takeClearLock l tag

end Sys2Proof.Machine
end

