-- ==== Sys2Proof/Machine/Reads.lean ====
section
/-! DEFINITION. Machine/Reads.lean: the meanings of the six reads. -/

namespace Sys2Proof.Machine

/-- READ_STATION (R48). -/
def execReadStation (l : Link) (tag station : Byte) (s : State) : Host.Outcome State Fault Refusal :=
  s.whenPowered fun s => s.takeReadStation l tag station

/-- READ_WAITING (R47). -/
def execReadWaiting (l : Link) (tag : Byte) (s : State) : Host.Outcome State Fault Refusal :=
  s.whenPowered fun s => s.takeReadWaiting l tag

/-- READ_CONDITIONS (R159). -/
def execReadConditions (l : Link) (tag : Byte) (s : State) : Host.Outcome State Fault Refusal :=
  s.whenPowered fun s => s.takeReadConditions l tag

/-- READ_PARAMETER (R22). -/
def execReadParameter (l : Link) (tag set number : Byte) (s : State) : Host.Outcome State Fault Refusal :=
  s.whenPowered fun s => s.takeReadParameter l tag set number

/-- READ_ZERO_RECORD (R110). -/
def execReadZeroRecord (l : Link) (tag station : Byte) (s : State) : Host.Outcome State Fault Refusal :=
  s.whenPowered fun s => s.takeReadZeroRecord l tag station

/-- READ_CLOCK (R163). -/
def execReadClock (l : Link) (tag : Byte) (s : State) : Host.Outcome State Fault Refusal :=
  s.whenPowered fun s => s.takeReadClock l tag

end Sys2Proof.Machine
end

