-- ==== Sys2Proof/Machine/Dispatch.lean ====
section
/-! DEFINITION. Machine/Dispatch.lean: each command's meaning. -/

namespace Sys2Proof.Machine

def exec (i : Instr) (s : State) : Host.Outcome State Fault Refusal :=
  match i with
  | .powerOn => Sys2Proof.Machine.execPowerOn s
  | .restartStart => Sys2Proof.Machine.execRestartStart s
  | .millisecondBoundary samples => Sys2Proof.Machine.execMillisecondBoundary samples s
  | .secondBoundary => Sys2Proof.Machine.execSecondBoundary s
  | .keepLapse st => Sys2Proof.Machine.execKeepLapse st s
  | .waitExpiry slot => Sys2Proof.Machine.execWaitExpiry slot s
  | .digitalChange input => Sys2Proof.Machine.execDigitalChange input s
  | .estopAssert => Sys2Proof.Machine.execEstopAssert s
  | .estopRelease => Sys2Proof.Machine.execEstopRelease s
  | .positionArrival t reading => Sys2Proof.Machine.execPositionArrival t reading s
  | .recoveryExpiry t => Sys2Proof.Machine.execRecoveryExpiry t s
  | .pressureArrival t loop => Sys2Proof.Machine.execPressureArrival t loop s
  | .powerArrival t loop => Sys2Proof.Machine.execPowerArrival t loop s
  | .surgeLevelArrival loop => Sys2Proof.Machine.execSurgeLevelArrival loop s
  | .overloadDelayExpiry t => Sys2Proof.Machine.execOverloadDelayExpiry t s
  | .clearingExpiry t => Sys2Proof.Machine.execClearingExpiry t s
  | .sampleExpiry t => Sys2Proof.Machine.execSampleExpiry t s
  | .drainExpiry t => Sys2Proof.Machine.execDrainExpiry t s
  | .deadTimeExpiry t => Sys2Proof.Machine.execDeadTimeExpiry t s
  | .moveTimerExpiry t => Sys2Proof.Machine.execMoveTimerExpiry t s
  | .jogTimeEnd t => Sys2Proof.Machine.execJogTimeEnd t s
  | .dwellExpiry => Sys2Proof.Machine.execDwellExpiry s
  | .timeLimitExpiry => Sys2Proof.Machine.execTimeLimitExpiry s
  | .wearStep t => Sys2Proof.Machine.execWearStep t s
  | .updateExpiry t => Sys2Proof.Machine.execUpdateExpiry t s
  | .storeWriteComplete success => Sys2Proof.Machine.execStoreWriteComplete success s
  | .linkByteReceived l b => Sys2Proof.Machine.execLinkByteReceived l b s
  | .interByteGap l => Sys2Proof.Machine.execInterByteGap l s
  | .replySent l => Sys2Proof.Machine.execReplySent l s
  | .setGap l tag station value priority keep wait => Sys2Proof.Machine.execSetGap l tag station value priority keep wait s
  | .setRate l tag station value priority keep wait => Sys2Proof.Machine.execSetRate l tag station value priority keep wait s
  | .withdraw l tag station => Sys2Proof.Machine.execWithdraw l tag station s
  | .setMode l tag station mode => Sys2Proof.Machine.execSetMode l tag station mode s
  | .setParameter l tag set number value => Sys2Proof.Machine.execSetParameter l tag set number value s
  | .jog l tag station direction duty duration => Sys2Proof.Machine.execJog l tag station direction duty duration s
  | .startZero l tag station => Sys2Proof.Machine.execStartZero l tag station s
  | .abortZero l tag station => Sys2Proof.Machine.execAbortZero l tag station s
  | .acknowledge l tag code subject => Sys2Proof.Machine.execAcknowledge l tag code subject s
  | .acknowledgeAll l tag => Sys2Proof.Machine.execAcknowledgeAll l tag s
  | .saveProfile l tag => Sys2Proof.Machine.execSaveProfile l tag s
  | .restart l tag => Sys2Proof.Machine.execRestart l tag s
  | .setClock l tag value => Sys2Proof.Machine.execSetClock l tag value s
  | .clearLock l tag => Sys2Proof.Machine.execClearLock l tag s
  | .readStation l tag station => Sys2Proof.Machine.execReadStation l tag station s
  | .readWaiting l tag => Sys2Proof.Machine.execReadWaiting l tag s
  | .readConditions l tag => Sys2Proof.Machine.execReadConditions l tag s
  | .readParameter l tag set number => Sys2Proof.Machine.execReadParameter l tag set number s
  | .readZeroRecord l tag station => Sys2Proof.Machine.execReadZeroRecord l tag station s
  | .readClock l tag => Sys2Proof.Machine.execReadClock l tag s
  | .lossOfPower => Sys2Proof.Machine.execLossOfPower s

end Sys2Proof.Machine
end

