-- ==== Sys2Proof/Safety.lean ====
section
/-! DEFINITION. Safety.lean: the laws that the manual says the part keeps, and what counts as a safe run. -/

namespace Sys2Proof.Machine

/-! ### The Condition List (R149, R150, R151, R156) -/

/-- What an entry is known by. -/
def Entry.name (e : Entry) : Code × Subject := (e.code, e.subject)

/-- The List keeps its laws: at most 16 entries, no two of one code and subject, a cause inactive only in a
latched entry, counts and overflow within their ranges, and the first-out the oldest TRIP entry listed. -/
def ConditionList.lawful (l : ConditionList) : Prop :=
  l.entries.length ≤ 16 ∧ (l.entries.map Entry.name).Nodup ∧
    (∀ e ∈ l.entries, e.active = false → e.code.latched = true) ∧
    (∀ e ∈ l.entries, 1 ≤ e.count ∧ e.count ≤ 255) ∧
    l.overflow ≤ 65535 ∧ l.firstOut = oldestTrip l.entries

/-! ### The Feed Governors (R112, R119, R120) -/

/-- A Governor keeps its laws: HELD or STOPPED it commands nothing, and its trim lies within its limit. -/
def Governor.lawful (limit : Nat) (g : Governor) : Prop :=
  (g.state ≠ .running → g.command = 0 ∧ g.demand = 0 ∧ g.output.duty = 0) ∧
    -(limit : Int) ≤ g.trim ∧ g.trim ≤ limit

/-- Every Governor keeps its laws. -/
def State.governorsLawful (s : State) : Prop := ∀ t, (s.governor t).lawful (s.feeder t).trimLimit

/-- Every feeder's base rate is its standing target (R2, R113). -/
def State.basesFollow (s : State) : Prop :=
  ∀ t, (s.governor t).base = (s.station (feederOf t)).standing.target

/-- Every demand and every output command lies in 0 to 1000, and so does the duty in force (R111, R119). -/
def State.ratesInRange (s : State) : Prop :=
  ∀ t, (s.governor t).demand ≤ 1000 ∧ (s.governor t).command ≤ 1000 ∧ (s.governor t).output.duty ≤ 1000

/-! ### The Request Board (R25, R27, R43) -/

/-- How many waiting slots a link holds for a station. -/
def Board.waitingOfLink (b : Board) (l : Link) (st : Station) : Nat :=
  b.slots.countP fun o =>
    match o with
    | none => false
    | some r => r.isOf l st

/-- The board keeps its laws: 24 slots, at most one for any link and station, the counter in its range. -/
def Board.lawful (b : Board) : Prop :=
  b.slots.length = 24 ∧ (∀ l st, b.waitingOfLink l st ≤ 1) ∧ 1 ≤ b.counter ∧ b.counter ≤ 4294967295

/-- The numbers of waiting requests and of standing settings other than START are distinct, and each has been
given: it lies from 1 to below the counter (R27). -/
def State.numbersLawful (s : State) : Prop :=
  s.liveNumbers.Nodup ∧ ∀ n ∈ s.liveNumbers, 1 ≤ n ∧ n < s.board.counter

/-- No request that waits for an accepting station outranks its standing setting (R43). The accepting predicate
is as it was last evaluated, which is what R8 judges its changes against (log 22). -/
def State.selectionsMade (s : State) : Prop :=
  ∀ st, (s.station st).lastAccepting = s.accepting st ∧
    (s.accepting st = true → ∀ r, some r ∈ s.board.slots → r.station = st →
      outranks r.priority r.sequence (s.station st).standing = false)

/-! ### The valve drives (R68, R71) -/

/-- A Positioner's drive keeps its laws: on, it is on in DRIVING, JOGGING or LENT with no other drive pending; a
pending drive waits in DEAD_TIME, JOGGING or LENT for its dead time since the last drive end, which had another
direction; and DRIVING has its drive on, DEAD_TIME a drive pending. -/
def Positioner.driveLawful (p : Positioner) : Prop :=
  (∀ d, p.drive = some d →
    p.pendingDrive = none ∧ (p.state = .driving ∨ p.state = .jogging ∨ p.state = .lent)) ∧
  (∀ d, p.pendingDrive = some d →
    (p.state = .deadTime ∨ p.state = .jogging ∨ p.state = .lent) ∧
      p.lastEnd.direction ≠ some d.direction ∧ d.deadTime.start = p.lastEnd.uptime) ∧
  (p.state = .driving → p.drive ≠ none) ∧ (p.state = .deadTime → p.pendingDrive ≠ none)

/-- Every Positioner's drive keeps its laws. -/
def State.drivesLawful (s : State) : Prop := ∀ u, (s.positioner u).driveLawful

/-- The drive of a crusher has not begun between two states, or has begun by the law of R71: the last drive end
has its direction, or the DEAD_TIME in force when it was asked for has passed since. -/
def State.beginsByDeadTime (s t : State) (u : Train) : Prop :=
  ∀ d, (t.positioner u).drive = some d →
    (∃ e, (s.positioner u).drive = some e ∧ e.direction = d.direction) ∨
      (t.positioner u).lastEnd.direction = some d.direction ∨
      ∃ wait,
        (wait = (s.crusher u).deadTime ∨
          ∃ e, (s.positioner u).pendingDrive = some e ∧ wait = e.deadTime.length) ∧
        (wait ≤ elapsed s.now (t.positioner u).lastEnd.uptime ∨
          wait ≤ elapsed t.now (t.positioner u).lastEnd.uptime)

/-- The Positioner of a crusher has started afresh between two states, judged by the error it is left with: within
the settle band, or with the gap absent, it is in IDLE with no move and no GAP_MOVE; beyond it its move is of now, and
it drains first under LOAD_ADJUST NO, or else its full move timer runs and its drive is on or pending (R73, R84). -/
def State.movesAfresh (s t : State) (u : Train) : Prop :=
  let p := s.crusher u
  let q := t.positioner u
  ((∀ g, (t.gap u).gap = some g →
      (((t.station (crusherOf u)).standing.target : Int) - g).natAbs ≤ p.deadband / 2) →
    q.state = .idle ∧ q.drive = none ∧ q.move = none ∧ (t.governor u).holds.gapMove = false) ∧
  ∀ g, (t.gap u).gap = some g →
    let e : Int := ((t.station (crusherOf u)).standing.target : Int) - g
    let way : Direction := if 0 < e then .opening else .closing
    let duty := min p.dutyMax (max p.dutyMin (e.natAbs * p.kp / 16))
    p.deadband / 2 < e.natAbs →
      q.move = some ⟨s.now, p.loadAdjust⟩ ∧ (t.governor u).holds.gapMove = !p.loadAdjust ∧
        (p.loadAdjust = false → p.drainTime ≠ 0 →
          q.state = .draining ∧ q.drive = none ∧ q.drainTimer = some ⟨s.now, p.drainTime * 1000⟩) ∧
        (p.loadAdjust = true ∨ p.drainTime = 0 →
          q.moveTimer = some ⟨s.now, p.moveLimit * 1000⟩ ∧
            (q.lastEnd.direction = some way ∨ p.deadTime ≤ elapsed s.now q.lastEnd.uptime →
              q.state = .driving ∧ q.drive = some ⟨way, duty⟩) ∧
            (q.lastEnd.direction ≠ some way → elapsed s.now q.lastEnd.uptime < p.deadTime →
              q.state = .deadTime ∧ q.drive = none ∧
                q.pendingDrive = some ⟨way, duty, ⟨q.lastEnd.uptime, p.deadTime⟩⟩))

/-! ### The zero touch (R94, R98) -/

/-- One crusher at most is the subject of a touch, and one is while the Sequencer is not IDLE. The subject is
present, in MAINTENANCE and NORMAL with a VALID position, its drive is lent, and its feeder holds CALIBRATION; no
other drive is lent, and no other feeder holds it. -/
def State.touchLawful (s : State) : Prop :=
  (s.sequencer.subject = none ↔ s.sequencer.state = .idle) ∧
  (∀ u, s.sequencer.subject = some u →
    s.present u = true ∧ (s.station (crusherOf u)).mode = .maintenance ∧ (s.gap u).validity = .valid ∧
      (s.supervisor u).relief = .normal) ∧
  ∀ u, ((s.positioner u).state = .lent ↔ s.sequencer.subject = some u) ∧
    ((s.governor u).holds.calibration = true ↔ s.sequencer.subject = some u)

/-! ### The trip latches (R143, R144) -/

/-- A trip latch agrees with the List: CLEAR, its condition is not listed; SET, it is listed and not
acknowledged, with its cause as it stands; SET_ACKNOWLEDGED, it is listed and acknowledged, with its cause
active (R143). -/
def State.latchListed (s : State) (u : Train) (which : TripLatch) : Prop :=
  match (s.supervisor u).latch which with
  | .clear => ∀ e ∈ s.conditions.entries, e.name ≠ (which.code, .crusher u)
  | .set =>
    ∃ e ∈ s.conditions.entries, e.name = (which.code, .crusher u) ∧ e.acknowledged = false ∧
      e.active = (s.supervisor u).causeActive which
  | .setAcknowledged =>
    (s.supervisor u).causeActive which = true ∧
      ∃ e ∈ s.conditions.entries, e.name = (which.code, .crusher u) ∧ e.acknowledged = true ∧ e.active = true

/-- Every trip latch agrees with the List, whose TRIP entries are of crushers, and a feeder holds TRIP while a
latch of its crusher is not CLEAR (R143, R144, R148). -/
def State.tripsListed (s : State) : Prop :=
  (∀ e ∈ s.conditions.entries, e.code.cls = .trip → ∃ u, e.subject = .crusher u) ∧
  (∀ u which, s.latchListed u which) ∧
  ∀ u, (s.governor u).holds.trip = true ↔
    (s.supervisor u).reliefLatch ≠ .clear ∨ (s.supervisor u).powerLatch ≠ .clear

/-! ### Parameters and standing settings (R15 to R17, R19, R21) -/

/-- A profile's parameters lie in their ranges and keep their ordering constraints. -/
def Profile.ok (p : Profile) : Bool :=
  p.line.ok && Train.all.all fun t => (p.crushers.get t).ok && (p.feeders.get t).ok

/-- The working parameters as a profile. -/
def State.working (s : State) : Profile := ⟨s.line, s.crusherParams, s.feederParams⟩

/-- The parameters in use, those stored and those being written keep their ranges and constraints. -/
def State.paramsOk (s : State) : Prop :=
  s.working.ok = true ∧ (∀ p, s.store.readProfile = some p → p.ok = true) ∧
    ∀ p, s.store.writing = some (.profile p) → p.ok = true

/-- A target lies within its station's limits, where a feeder's may also be 0 (R21). -/
def State.withinLimits (s : State) (st : Station) (target : Nat) : Prop :=
  match st.role with
  | .crusher => (s.crusher st.train).gapMin ≤ target ∧ target ≤ (s.crusher st.train).gapMax
  | .feeder =>
    target = 0 ∨ ((s.feeder st.train).rateMin ≤ target ∧ target ≤ (s.feeder st.train).rateMax)

/-- Every standing target lies within its station's limits (R21). -/
def State.targetsWithin (s : State) : Prop := ∀ st, s.withinLimits st (s.station st).standing.target

/-! ### Nothing outstanding, and frames -/

/-- No timer of a train has expired, and nothing counted of it has come to its end. -/
def State.quietTrain (s : State) (u : Train) : Prop :=
  timerExpired ((s.gap u).recovery.map Recovery.timer) s.now = false ∧ s.wearStepDue u = false ∧
    timerExpired (s.supervisor u).clearingTimer s.now = false ∧
    timerExpired (s.supervisor u).overloadTimer s.now = false ∧
    timerExpired (s.positioner u).drainTimer s.now = false ∧
    timerExpired (s.positioner u).moveTimer s.now = false ∧
    (s.positioner u).sampleTimer.expired s.now = false ∧ s.deadTimeDue u = false ∧
    s.jogDue u = false ∧ s.updateDue u = false

/-- Nothing that falls due is outstanding: no boundary, lapse, expiry, change, gap or start. -/
def State.quiet (s : State) : Prop :=
  s.time.secondDue = false ∧ (∀ st, s.lapseDue st = false) ∧ (∀ i, s.board.waitDue i = false) ∧
    (∀ i, (s.inputs.digital i).due = false) ∧ s.inputs.estop.due = false ∧ (∀ u, s.quietTrain u) ∧
    timerExpired s.sequencer.dwellTimer s.now = false ∧
    timerExpired s.sequencer.limitTimer s.now = false ∧ (∀ l, s.gapDue l = false) ∧
    s.restartDue = false

/-- Every record of every other train is as before. -/
def State.othersKept (s t : State) (u : Train) : Prop :=
  ∀ v, v ≠ u →
    t.station (feederOf v) = s.station (feederOf v) ∧ t.station (crusherOf v) = s.station (crusherOf v) ∧
      t.gap v = s.gap v ∧ t.positioner v = s.positioner v ∧ t.zero v = s.zero v ∧
      t.governor v = s.governor v ∧ t.supervisor v = s.supervisor v

/-- What the work of one train never changes: the clocks, the parameters, the inputs, the links, the queue, and
the records of the other trains. -/
def State.workOf (s t : State) (u : Train) : Prop :=
  t.powered = s.powered ∧ t.restart = s.restart ∧ t.time = s.time ∧ t.line = s.line ∧
    t.crusherParams = s.crusherParams ∧ t.feederParams = s.feederParams ∧ t.inputs = s.inputs ∧
    t.links = s.links ∧ t.pending = s.pending ∧ s.othersKept t u

/-! ### A start (R169) -/

/-- The conditions of a load, in the order they are listed: STORE_FAULT for each section that failed, ZERO_UNSET
for each present crusher without a valid zero, WEAR_LIMIT for each crusher at its limit (R169). -/
def State.loadConditions (t : State) (stamp : Stamp) : List Entry :=
  ((if t.store.readProfile.isNone then [StoreSection.profile] else []) ++
        (if t.store.readZero.isNone then [StoreSection.zero] else []) ++
        (if t.store.readWear.isNone then [StoreSection.wear] else [])).map
      (fun sec => ⟨.storeFault, .storeSection sec, stamp, 1, false, true, some (.storeSection sec)⟩) ++
    (Train.all.filter fun u => t.present u && !(t.zero u).valid).map
      (fun u => ⟨.zeroUnset, .crusher u, stamp, 1, false, true, none⟩) ++
    (Train.all.filter fun u => (t.crusher u).wearLimit * 100 ≤ (t.gap u).wear).map
      fun u => ⟨.wearLimit, .crusher u, stamp, 1, false, true, none⟩

/-- The mode a start gives a station: START_MODE while it is present, else OUT_OF_SERVICE (R13). -/
def State.startModeOf (t : State) (st : Station) : Mode :=
  if t.present st.train then
    match st.role with
    | .feeder => (t.feeder st.train).startMode.mode
    | .crusher => (t.crusher st.train).startMode.mode
  else .outOfService

/-- The state of the part at uptime 0 of a start from a store, with the line clock and set flag it has then:
the two tables of R169. -/
def State.startedFrom (t : State) (store : Store) (stamp : Stamp) : Prop :=
  t.powered = true ∧ t.restart = .notTaken ∧ t.time = ⟨0, 0, false, stamp.clock, stamp.isSet⟩ ∧
    t.store = { store with dirty := ⟨false, false, false⟩, writing := none } ∧
    t.working = store.readProfile.getD ⟨LineParams.afterFailedLoad, defaultCrusherParams, defaultFeederParams⟩ ∧
    t.board = ⟨List.replicate 24 none, 1⟩ ∧ t.inputs = FieldInputs.atStart ∧
    t.sequencer = ⟨.idle, none, false, none, none, none, none, none⟩ ∧
    (∀ l, t.link l = ⟨none, false, false, []⟩) ∧
    t.conditions = ⟨t.loadConditions stamp, 0, none⟩ ∧
    ∀ u,
      ((store.readZero.getD (Quad.all ⟨0, false, none⟩)).get u = ⟨(t.zero u).z, (t.zero u).valid, (t.zero u).outcome⟩) ∧
      (t.zero u).rejected = false ∧ (t.zero u).aborted = false ∧
      t.gap u =
        GapMeasurement.atStart ((store.readWear.getD (Quad.all ⟨0, 0⟩)).get u).wear
          ((store.readWear.getD (Quad.all ⟨0, 0⟩)).get u).tenths ∧
      t.station (feederOf u) =
        ⟨t.startModeOf (feederOf u), Standing.start 0, none,
          t.present u && t.startModeOf (feederOf u) = .run⟩ ∧
      t.station (crusherOf u) =
        ⟨t.startModeOf (crusherOf u), Standing.start (t.crusher u).gapMax, none, false⟩ ∧
      t.positioner u =
        Positioner.atStart ⟨t.startModeOf (crusherOf u) ≠ .run, false, false, true, !(t.zero u).valid⟩
          (t.crusher u).sampleInterval ∧
      t.governor u =
        Governor.atStart
          { Holds.empty with
            mode := !(t.startModeOf (feederOf u) = .run && t.startModeOf (crusherOf u) = .run) }
          (t.feeder u).updateInterval ∧
      t.supervisor u = ⟨.normal, false, none, [], none, false, false, .clear, .clear⟩

/-! ### Replies (R173, R177) -/

/-- The part takes requests: it has power and no RESTART has been taken (R170). -/
def State.listening (s : State) : Prop := s.powered = true ∧ s.restart = .notTaken

/-- The part takes requests and the link is UNLOCKED. -/
def State.takesOn (s : State) (l : Link) : Prop := s.listening ∧ (s.link l).locked = false

/-- The state with a reply given to a link to send: the request's tag, its kind plus 80h, the status, the flags
and the body (R177); reply-pending is yes (R173). -/
def State.answered (s : State) (l : Link) (tag kind : Byte) (a : Answer) : State :=
  s.modLink l fun i =>
    { i with
      replyPending := true
      reply := frameOf tag (kind + 0x80#8) (a.status.code :: a.flags.byte :: a.body) }

/-- The link interfaces after a request are those before it with the reply given to the request's link. -/
def State.repliedBy (s t : State) (l : Link) (tag : Byte) (kind : Kind) (a : Answer) : Prop :=
  t.links = (s.answered l tag kind.code a).links

/-! ### Runs -/

/-- A state that keeps every law above. -/
def State.lawful (s : State) : Prop :=
  s.conditions.lawful ∧ s.governorsLawful ∧ s.ratesInRange ∧ s.basesFollow ∧ s.board.lawful ∧
    s.numbersLawful ∧ s.selectionsMade ∧ s.drivesLawful ∧ s.touchLawful ∧ s.tripsListed ∧ s.paramsOk ∧
    s.targetsWithin

/-- A safe run of k steps ends in a next state that keeps every law. -/
def safeRun (k : Nat) (s : State) : Prop :=
  match Sys2Proof.core.run k s with
  | .next t => State.lawful t
  | .fault _ | .refused _ => False

end Sys2Proof.Machine
end

