-- ==== Sys2Proof/Certificates/Slice0/Obligations.lean ====
section
/-! DEFINITION. Certificates/Slice0/Obligations.lean: what the part does, stated for the provers from the
numbered rules of spec/. -/

open Sys2Proof Sys2Proof.Machine


/-! ### The machine -/

/-- A step takes the command at the front of the queue. On an empty queue the part idles (log 1), and a part
without supply takes no command but POWER_ON (log 4): these two are the model's choices. -/
def Obligations.StepTakesTheFrontCommand : Prop :=
  (∀ (c : Instr) (rest : List Instr) (s : State),
    step (s.withPending (c :: rest)) = exec c (s.withPending rest)) ∧
  (∀ s : State, s.pending = [] → step s = .next s) ∧
  (∀ (c : Instr) (s : State), s.powered = false → c ≠ .powerOn → exec c s = .next s)

/-- Every command answers a next state and leaves the queue as it stands. -/
def Obligations.EveryCommandAnswersNext : Prop :=
  ∀ (c : Instr) (s : State), ∃ t, exec c s = .next t ∧ t.pending = s.pending

/-- The state after reset keeps every law of Safety.lean. That state is the model's choice of a part whose store
was never written, log 5. -/
def Obligations.ResetKeepsEveryLaw : Prop := State.reset.lawful

/-! ### Laws that every step keeps -/

/-- The Condition List keeps at most 16 entries, no two of one code and subject, inactive causes in latched
entries alone, counts of 1 to 255, and the oldest listed TRIP entry as first-out. -/
def Obligations.ConditionListLawKept : Prop :=
  ∀ s t : State, s.conditions.lawful → step s = .next t → t.conditions.lawful

/-- A Governor that is HELD or STOPPED commands 0, a trim stays within its limit, and demands and output
commands stay within 0 to 1000. -/
def Obligations.GovernorLawsKept : Prop :=
  ∀ s t : State, s.paramsOk → s.governorsLawful ∧ s.ratesInRange → step s = .next t →
    t.governorsLawful ∧ t.ratesInRange

/-- The board keeps 24 slots, at most one for a link and station, and its counter in range. The numbers of waiting
requests and of standing settings other than START stay distinct, and below the counter. No request that waits for
an accepting station outranks its standing setting, the predicate being as last evaluated (log 22), where a touch
keeps its law as well. -/
def Obligations.BoardLawKept : Prop :=
  (∀ s t : State, s.board.lawful → step s = .next t → t.board.lawful) ∧
  (∀ s t : State, s.board.lawful → s.numbersLawful → step s = .next t → t.numbersLawful) ∧
  (∀ s t : State, s.board.lawful → s.numbersLawful → s.touchLawful → s.selectionsMade →
    step s = .next t → t.selectionsMade)

/-- Parameters in use, those a start would read from the store and those being written keep their ranges and
ordering constraints. -/
def Obligations.ParametersKeepTheirRanges : Prop :=
  ∀ s t : State, s.paramsOk → step s = .next t → t.paramsOk

/-- Standing targets stay within their stations' limits, and every feeder's base rate stays its standing target. -/
def Obligations.TargetsStayWithinLimits : Prop :=
  ∀ s t : State, s.paramsOk → s.targetsWithin → s.basesFollow → step s = .next t →
    t.targetsWithin ∧ t.basesFollow

/-- A Positioner's drive is on in DRIVING, JOGGING or LENT alone, with none pending; a pending drive waits out the
dead time since the last drive end, which had another direction. The OPEN and CLOSE drives are never active
together, and every drive that begins in a step has the direction of the last drive end, or begins when the
DEAD_TIME in force when it was asked for has passed since that end, in uptime modulo its span (log 8). A drive is lent
where a touch has its subject alone, by the touch's own law. -/
def Obligations.DriveLawKept : Prop :=
  (∀ s t : State, s.touchLawful → s.drivesLawful → step s = .next t →
    t.drivesLawful ∧ ∀ u, s.beginsByDeadTime t u) ∧
  (∀ (s : State) (u : Train), (s.positioner u).outputActive .opening = false ∨
    (s.positioner u).outputActive .closing = false)

/-- One crusher at most is the subject of a zero touch, and only while the Sequencer is not IDLE: present, in
MAINTENANCE and NORMAL, with a VALID position. Its drive alone is lent, and its feeder alone holds CALIBRATION. -/
def Obligations.TouchLawKept : Prop :=
  ∀ s t : State, s.touchLawful → step s = .next t → t.touchLawful

/-- A trip latch that is set has its condition listed, acknowledged just when the latch is, with its cause active
just while the latch's cause is; a CLEAR latch has none listed; and a feeder holds TRIP while a latch of its
crusher is not CLEAR. A latch in SET_ACKNOWLEDGED clears where its crusher's train is made absent (R145), which R23
would leave set: that is the model's choice, log 23. -/
def Obligations.TripLatchesStayListed : Prop :=
  ∀ s t : State, s.conditions.lawful → s.tripsListed → step s = .next t → t.tripsListed

/-! ### Frames and links -/

/-- A frame's kind and body read as a request exactly when that request is sent in that frame. That the body of SET
MODE is the station and then the mode is the model's choice, log 29. -/
def Obligations.RequestsAndFramesAgree : Prop :=
  ∀ (i : Instr) (l : Link) (tag kind : Byte) (body : List Byte),
    decodeRequest l tag kind body = some i ↔
      ∃ k : Kind, k.code = kind ∧ encodeRequest i = some ⟨l, tag, k, body⟩

/-- The frame of a request, received byte by byte in HUNTING with no reply pending, does what the
request does: a request command stands for its frame, log 3, and that of SET MODE has the station before the mode,
log 29. -/
def Obligations.FrameByBytesIsItsRequest : Prop :=
  ∀ (i : Instr) (f : RequestFrame) (rest : List Instr) (s : State),
    encodeRequest i = some f → s.listening → (s.link f.link).receiving = none →
      (s.link f.link).replyPending = false →
      Sys2Proof.core.run f.bytes.length (s.withPending (f.bytes.map (.linkByteReceived f.link) ++ rest)) =
        exec i (s.withPending rest)

/-- A whole frame whose CRC differs, or that comes while a reply is pending, changes nothing; one of an unknown
kind, or of a body length wrong for its kind, is refused FORMAT, changes nothing else and locks no link. -/
def Obligations.BadFramesChangeNothing : Prop :=
  (∀ (l : Link) (tag kind : Byte) (body : List Byte) (crc : Half) (rest : List Instr) (s : State),
     s.listening → (s.link l).receiving = none → body.length ≤ 40 →
       (crc ≠ crc16 (frameCore tag kind body) ∨ (s.link l).replyPending = true) →
       Sys2Proof.core.run (body.length + 6)
           (s.withPending
             ((Config.sync :: (frameCore tag kind body ++ halfBytes crc)).map (.linkByteReceived l) ++ rest)) =
         .next (s.withPending rest)) ∧
  (∀ (l : Link) (tag kind : Byte) (body : List Byte) (rest : List Instr) (s : State),
     s.listening → (s.link l).receiving = none → (s.link l).replyPending = false → body.length ≤ 40 →
       decodeRequest l tag kind body = none →
       Sys2Proof.core.run (body.length + 6)
           (s.withPending ((frameOf tag kind body).map (.linkByteReceived l) ++ rest)) =
         .next ((s.withPending rest).answered l tag kind (Answer.refuse .format)))

/-- In HUNTING a byte other than C5h is discarded and C5h begins a frame; a length outside 2 to 42 discards the
frame begun; once a RESTART has been taken every byte is discarded. A gap of more than 5 ms discards the part of
a frame taken, and the byte that ends it is judged in HUNTING; a shorter gap discards nothing. That the gap is
counted in whole ms of uptime is the model's reading, log 10. The end of a reply makes reply-pending no, and that
of the reply to a RESTART is noted. -/
def Obligations.BytesAreJudgedByReceiveState : Prop :=
  (∀ (l : Link) (b : Byte) (s : State), s.powered = true →
     (s.restart ≠ .notTaken → exec (.linkByteReceived l b) s = .next s) ∧
     (s.restart = .notTaken → (s.link l).receiving = none → b ≠ 0xC5#8 →
       exec (.linkByteReceived l b) s = .next s) ∧
     (s.restart = .notTaken → (s.link l).receiving = none → b = 0xC5#8 →
       exec (.linkByteReceived l b) s =
         .next (s.modLink l fun i => { i with receiving := some ⟨[0xC5#8], s.now⟩ })) ∧
     (∀ r, s.restart = .notTaken → (s.link l).receiving = some r → r.bytes = [0xC5#8] →
       elapsed s.now r.lastByte ≤ 5 → (b.toNat < 2 ∨ 42 < b.toNat) →
       exec (.linkByteReceived l b) s = .next (s.modLink l fun i => { i with receiving := none }))) ∧
  (∀ (l : Link) (r : Receiving) (s : State), s.powered = true → (s.link l).receiving = some r →
     (5 < elapsed s.now r.lastByte →
       exec (.interByteGap l) s = .next (s.modLink l fun i => { i with receiving := none }) ∧
         ∀ b, s.restart = .notTaken → exec (.linkByteReceived l b) s =
           exec (.linkByteReceived l b) (s.modLink l fun i => { i with receiving := none })) ∧
     (elapsed s.now r.lastByte ≤ 5 → exec (.interByteGap l) s = .next s)) ∧
  (∀ (l : Link) (s : State), s.powered = true → (s.link l).replyPending = true →
     exec (.replySent l) s =
       .next
         ((s.modLink l fun i => { i with replyPending := false }).withRestart
           (if l = .sv ∧ s.restart = .replying then .replied else s.restart)))

/-- No request is taken once a RESTART has been. Of the others, one of a LOCKED link is answered LINK_LOCKED
unless it is a read or CLEAR LOCK; a kind its link's role does not allow, and a setting request of a link
outside the station's AUTHORITY, are answered NOT_AUTHORISED, the link becomes LOCKED and the onset of
LINK_LOCKED is reported; and fields that name no defined value are refused FORMAT without a lock. -/
def Obligations.RequestsAreJudgedInOrder : Prop :=
  (∀ (i : Instr) (f : RequestFrame) (s : State), encodeRequest i = some f →
    let refused (t : State) (status : Status) : Host.Outcome State Fault Refusal :=
      .next (t.answered f.link f.tag f.kind.code (Answer.refuse status))
    (s.restart ≠ .notTaken → exec i s = .next s) ∧
    (s.listening → (s.link f.link).locked = true → f.kind.isRead = false → f.kind ≠ .clearLock →
      exec i s = refused s .linkLocked) ∧
    (s.takesOn f.link → f.kind.allowed f.link = false →
      exec i s =
        refused ((s.onset .linkLocked (.link f.link) none).modLink f.link fun k => { k with locked := true })
          .notAuthorised) ∧
    (s.takesOn f.link → f.kind.allowed f.link = true → wellFormed i = false →
      exec i s = refused s .format)) ∧
  ∀ (l : Link) (tag b priority : Byte) (value keep wait : Half) (st : Station) (s : State), s.takesOn l →
    priority.toNat ≤ 15 → wait.toNat ≤ 3600 → b.toNat = st.number → s.present st.train = true →
    (s.authority st).has l = false →
    let barred : State := (s.onset .linkLocked (.link l) none).modLink l fun k => { k with locked := true }
    (st.role = .crusher →
      exec (.setGap l tag b value priority keep wait) s =
        .next (barred.answered l tag 0x01#8 (Answer.refuse .notAuthorised))) ∧
    (st.role = .feeder →
      exec (.setRate l tag b value priority keep wait) s =
        .next (barred.answered l tag 0x02#8 (Answer.refuse .notAuthorised)))

/-! ### Start, supply and store -/

/-- POWER_ON starts the part from its store with the line clock at 0 and not set. On a part that has power a
write in progress is cut short first: that much is the model's choice, log 4. RESTART_START starts the part,
once the reply to the RESTART has been sent in full and the store is not WRITING, with the line clock and its
set flag kept; before that it changes nothing. The raw levels of
the inputs not yet sampled are the model's choice too, log 6, and so is that the clock kept does not count a second
reached and not yet taken, log 9. -/
def Obligations.StartsLoadTheStore : Prop :=
  (∀ s : State, ∃ t, exec .powerOn s = .next t ∧ t.startedFrom s.store.cutShort ⟨0, false⟩ ∧
     t.pending = s.pending) ∧
  (∀ s : State, s.powered = true →
     (s.restart = .replied → s.store.writing = none →
       ∃ t, exec .restartStart s = .next t ∧ t.startedFrom s.store ⟨s.time.lineClock, s.time.clockSet⟩ ∧
         t.pending = s.pending) ∧
     (s.restart ≠ .replied ∨ s.store.writing ≠ none → exec .restartStart s = .next s))

/-- Loss of power leaves the three sections, but that of a write cut short fails its check; and every output is
de-energized, which follows section 9.4 and the model's choice for a part without supply, log 4. A profile whose
write completes is in use after a loss of power and a power-on; one whose write is cut short by the loss is not:
the defaults are, with no train present and STORE_FAULT for PROFILE the first condition listed. A section is read
just where the check value stored with it is the CRC-16 of its contents; how contents are laid out as bytes is the
model's choice, log 7. -/
def Obligations.LossOfPowerKeepsTheSections : Prop :=
  (∀ s : State, s.powered = true → ∃ t, exec .lossOfPower s = .next t ∧ t.powered = false ∧
    t.pending = s.pending ∧ t.store.dirty = ⟨false, false, false⟩ ∧ t.store.writing = none ∧
    (let cut := s.store.writing.map WriteJob.sec
     (cut = some .profile → t.store.readProfile = none) ∧
     (cut ≠ some .profile → t.store.profile = s.store.profile) ∧
     (cut = some .zero → t.store.readZero = none) ∧
     (cut ≠ some .zero → t.store.zero = s.store.zero) ∧
     (cut = some .wear → t.store.readWear = none) ∧
     (cut ≠ some .wear → t.store.wear = s.store.wear)) ∧
    (∀ u d, t.valveOutput u d = 0) ∧ (∀ u, t.rateOutput u = 0) ∧ ∀ c, t.beaconLit c = false) ∧
  (∀ (s : State) (p : Profile), s.powered = true → s.store.writing = some (.profile p) →
    s.store.dirty = ⟨false, false, false⟩ →
    (∃ t, Sys2Proof.core.run 3 (s.withPending [.storeWriteComplete true, .lossOfPower, .powerOn]) = .next t ∧
      t.powered = true ∧ t.working = p ∧ t.conditions.listed .storeFault (.storeSection .profile) = false) ∧
    ∃ t, Sys2Proof.core.run 2 (s.withPending [.lossOfPower, .powerOn]) = .next t ∧
      t.powered = true ∧
      t.working = ⟨LineParams.afterFailedLoad, defaultCrusherParams, defaultFeederParams⟩ ∧
      (∀ u, t.present u = false) ∧
      t.conditions.entries.head? =
        some ⟨.storeFault, .storeSection .profile, ⟨0, false⟩, 1, false, true, some (.storeSection .profile)⟩) ∧
  ∀ (st : Store) (p : Profile) (z : Quad StoredZero) (w : Quad StoredWear),
    (st.readProfile = some p ↔ st.profile = some ⟨p, crc16 p.bytes⟩) ∧
    (st.readZero = some z ↔ st.zero = some ⟨z, crc16 (zeroBytes z)⟩) ∧
    (st.readWear = some w ↔ st.wear = some ⟨w, crc16 (wearBytes w)⟩)

/-- A write that succeeds leaves its contents in its section, with their CRC-16 as its check value, and the other
sections as they were, and ends the cause of STORE_FAULT for it; with a
dirty set that is not empty the next write starts at once: ZERO before WEAR before PROFILE, with the working
values as they stand. One that fails puts the section back in the dirty set, reports STORE_FAULT and starts no
write. SAVE PROFILE marks PROFILE dirty and is answered DONE: in WRITING it starts nothing, in IDLE it starts
the write of the first dirty section. The bytes of a section's contents, over which its CRC-16 is computed, are the
model's choice, log 7. -/
def Obligations.StoreWritesFollowTheDirtySet : Prop :=
  (∀ (st : Store) (p : Profile) (z : Quad StoredZero) (w : Quad StoredWear),
     st.written (.profile p) = { st with profile := some ⟨p, crc16 p.bytes⟩ } ∧
     st.written (.zero z) = { st with zero := some ⟨z, crc16 (zeroBytes z)⟩ } ∧
     st.written (.wear w) = { st with wear := some ⟨w, crc16 (wearBytes w)⟩ }) ∧
  (∀ (s : State) (job : WriteJob), s.powered = true → s.store.writing = some job →
     (s.store.dirty = ⟨false, false, false⟩ ∨ s.restart ≠ .notTaken →
       exec (.storeWriteComplete true) s =
         .next
           ((s.withStore { s.store.written job with writing := none }).modConditions fun l =>
             l.causeEnded .storeFault (.storeSection job.sec))) ∧
     exec (.storeWriteComplete false) s =
       .next
         ((s.withStore
             { s.store with dirty := s.store.dirty.put job.sec true, writing := none }).modConditions fun l =>
           l.onset .storeFault (.storeSection job.sec) (some (.storeSection job.sec)) s.stamp)) ∧
  (∀ (s : State) (job : WriteJob), s.powered = true → s.restart = .notTaken →
     s.store.writing = some job → s.store.dirty ≠ ⟨false, false, false⟩ →
     ∃ t sec, exec (.storeWriteComplete true) s = .next t ∧
       sec = (if s.store.dirty.zero then .zero else if s.store.dirty.wear then .wear else .profile) ∧
       t =
         (s.withStore
             { s.store.written job with
               dirty := s.store.dirty.put sec false
               writing := some (s.sectionContents sec) }).modConditions fun l =>
           l.causeEnded .storeFault (.storeSection job.sec)) ∧
  (∀ (tag : Byte) (s : State), s.takesOn .sv →
     ∃ store, exec (.saveProfile .sv tag) s =
         .next ((s.withStore store).answered .sv tag 0x0B#8 (Answer.done [])) ∧
       (s.store.writing ≠ none →
         store = { s.store with dirty := { s.store.dirty with profile := true } }) ∧
       (s.store.writing = none → s.store.dirty.zero = true →
         store =
           { s.store with
             dirty := { s.store.dirty with profile := true, zero := false }
             writing := some (s.sectionContents .zero) }) ∧
       (s.store.writing = none → s.store.dirty.zero = false → s.store.dirty.wear = true →
         store =
           { s.store with
             dirty := { s.store.dirty with profile := true, wear := false }
             writing := some (s.sectionContents .wear) }) ∧
       (s.store.writing = none → s.store.dirty.zero = false → s.store.dirty.wear = false →
         store =
           { s.store with
             dirty := ⟨false, false, false⟩
             writing := some (.profile s.working) }))

/-- RESTART is answered DONE, and the part waits for the end of that reply. SET CLOCK sets the line clock to the
value and its set flag, and is answered DONE with the value; a second reached and not yet taken still counts after it,
which is the model's choice, log 9. CLEAR LOCK unlocks its link in either lock state,
ends the cause of LINK_LOCKED if the link was LOCKED, and is answered DONE. -/
def Obligations.RestartClockAndLockRequests : Prop :=
  (∀ (tag : Byte) (s : State), s.takesOn .sv →
     exec (.restart .sv tag) s =
       .next ((s.withRestart .replying).answered .sv tag 0x0C#8 (Answer.done []))) ∧
  (∀ (tag : Byte) (value : Word) (s : State), s.takesOn .lc →
     exec (.setClock .lc tag value) s =
       .next
         ((s.withTime { s.time with lineClock := value.toNat, clockSet := true }).answered .lc tag 0x0D#8
           (Answer.done (wordBytes value)))) ∧
  (∀ (l : Link) (tag : Byte) (s : State), s.listening →
     exec (.clearLock l tag) s =
       .next
         (((s.modConditions fun c =>
               if (s.link l).locked then c.causeEnded .linkLocked (.link l) else c).modLink l fun k =>
             { k with locked := false }).answered l tag 0x0E#8 (Answer.done [])))

/-! ### The Condition List -/

/-- An onset report keeps the List's law and takes the first case that applies: a recurrence, a new entry at the
tail, and with the List full an eviction for a TRIP or an overflow. The end of a cause removes an unlatched entry and an
acknowledged latched one, and leaves a latched entry that is not acknowledged with its cause inactive; the other
entries and the overflow count stay. -/
def Obligations.ReportsActOnTheList : Prop :=
  (∀ (l : ConditionList) (code : Code) (sub : Subject) (detail : Option Detail) (stamp : Stamp), l.lawful →
     let m := l.onset code sub detail stamp
     let fresh : Entry := ⟨code, sub, stamp, 1, false, true, detail⟩
     m.lawful ∧
     (∀ before e after, l.entries = before ++ e :: after → e.code = code → e.subject = sub →
       m =
         { l with
           entries :=
             before ++
               { e with
                 count := if e.count < 255 then e.count + 1 else 255
                 acknowledged := false
                 active := true
                 detail := if detail.isSome then detail else e.detail } :: after }) ∧
     ((∀ e ∈ l.entries, e.name ≠ (code, sub)) → l.entries.length < 16 →
       m.entries = l.entries ++ [fresh] ∧ m.overflow = l.overflow ∧
         m.firstOut =
           if l.firstOut = none ∧ code.cls = .trip then some ⟨code, sub, stamp⟩ else l.firstOut) ∧
     ((∀ e ∈ l.entries, e.name ≠ (code, sub)) → l.entries.length = 16 → code.cls ≠ .trip →
       m = { l with overflow := if l.overflow < 65535 then l.overflow + 1 else 65535 }) ∧
     (∀ before e after, (∀ e ∈ l.entries, e.name ≠ (code, sub)) → l.entries.length = 16 →
       code.cls = .trip → l.entries = before ++ e :: after → e.code.cls ≠ .trip →
       ((e.active = false ∧ ∀ d ∈ before, d.code.cls = .trip ∨ d.active = true) ∨
         ((∀ d ∈ l.entries, d.code.cls = .trip ∨ d.active = true) ∧ ∀ d ∈ before, d.code.cls = .trip)) →
       m.entries = before ++ after ++ [fresh] ∧
         m.overflow = (if l.overflow < 65535 then l.overflow + 1 else 65535) ∧
         m.firstOut = if l.firstOut = none then some ⟨code, sub, stamp⟩ else l.firstOut)) ∧
  (∀ (l : ConditionList) (code : Code) (sub : Subject), l.lawful →
     let m := l.causeEnded code sub
     m.lawful ∧ m.overflow = l.overflow ∧
     ((∀ e ∈ l.entries, e.name ≠ (code, sub)) → m = l) ∧
     ∀ before e after, l.entries = before ++ e :: after → e.code = code → e.subject = sub →
       (code.latched = false ∨ e.acknowledged = true → m.entries = before ++ after) ∧
       (code.latched = true → e.acknowledged = false →
         m.entries = before ++ { e with active := false } :: after))

/-- The beacon of a class flashes while an unacknowledged entry of it is listed, is steady while only
acknowledged ones are, and is off otherwise; flashing, it is lit in the first 500 ms of each uptime second. A valve
output is energized for the duty in force while the drive is on in its direction, else for 0, and a rate output for
its Governor's, INVERTED for the rest of 1000. A drive that begins at its dead time's end, and one that ends with its
jog, reach the outputs at once. A polarity that is written changes the output at once and the duty not at all. The
duty in force is that of the period in progress, log 12. -/
def Obligations.OutputsFollowTheirBlocks : Prop :=
  (∀ (s : State) (cls : ConditionClass),
      (s.conditions.beacon cls = .flashing ↔
        ∃ e ∈ s.conditions.entries, e.code.cls = cls ∧ e.acknowledged = false) ∧
      (s.conditions.beacon cls = .steady ↔
        (∃ e ∈ s.conditions.entries, e.code.cls = cls) ∧
          ∀ e ∈ s.conditions.entries, e.code.cls = cls → e.acknowledged = true) ∧
      (s.conditions.beacon cls = .off ↔ ∀ e ∈ s.conditions.entries, e.code.cls ≠ cls) ∧
      (s.beaconLit cls = true ↔ s.powered = true ∧
        (s.conditions.beacon cls = .steady ∨
          s.conditions.beacon cls = .flashing ∧ s.time.millis < 500))) ∧
  (let shown (polarity : Polarity) (duty : Nat) : Nat :=
      match polarity with
      | .normal => duty
      | .inverted => 1000 - duty
    let polarity (s : State) (u : Train) : Direction → Polarity
      | .opening => (s.crusher u).openPolarity
      | .closing => (s.crusher u).closePolarity
    (∀ (u : Train) (s : State), s.powered = true →
      (∀ d e, (s.positioner u).drive = some e →
        s.valveOutput u d =
          shown (polarity s u d) (if e.direction = d then (s.positioner u).valve.duty else 0)) ∧
      (∀ d, (s.positioner u).drive = none → s.valveOutput u d = shown (polarity s u d) 0) ∧
      s.rateOutput u = shown (s.feeder u).outputPolarity (s.governor u).output.duty) ∧
    (∀ (u : Train) (q : PendingDrive) (d : Direction) (s : State), s.powered = true →
      (s.positioner u).pendingDrive = some q → q.deadTime.length ≤ elapsed s.now q.deadTime.start →
      ∃ t, exec (.deadTimeExpiry u) s = .next t ∧
        t.valveOutput u d = shown (polarity s u d) (if q.direction = d then q.duty else 0)) ∧
    (∀ (u : Train) (j : Jog) (d : Direction) (s : State), s.powered = true →
      (s.positioner u).state = .jogging → (s.positioner u).jog = some j → j.remaining = 0 →
      (s.positioner u).reasons.isEmpty = false →
      ∃ t, exec (.jogTimeEnd u) s = .next t ∧ t.valveOutput u d = shown (polarity s u d) 0) ∧
    ∀ (u : Train) (tag : Byte) (s : State), s.takesOn .sv →
      let written (v : Polarity) : Half := BitVec.ofNat 16 v.code
      ((s.station (crusherOf u)).mode ≠ .run → s.isSubject u = false → ∀ v,
        (∃ t, exec (.setParameter .sv tag (byteOf (crusherOf u).number) 38#8 (written v)) s = .next t ∧
          t.positioners = s.positioners ∧ (t.crusher u).openPolarity = v ∧
          t.valveOutput u .opening = shown v ((s.positioner u).outputDuty .opening) ∧
          t.valveOutput u .closing = s.valveOutput u .closing) ∧
        ∃ t, exec (.setParameter .sv tag (byteOf (crusherOf u).number) 39#8 (written v)) s = .next t ∧
          t.positioners = s.positioners ∧ (t.crusher u).closePolarity = v ∧
          t.valveOutput u .closing = shown v ((s.positioner u).outputDuty .closing) ∧
          t.valveOutput u .opening = s.valveOutput u .opening) ∧
      ((s.station (feederOf u)).mode ≠ .run → ∀ v,
        ∃ t, exec (.setParameter .sv tag (byteOf (feederOf u).number) 12#8 (written v)) s = .next t ∧
          t.governors = s.governors ∧ (t.feeder u).outputPolarity = v ∧
          t.rateOutput u = shown v (s.governor u).output.duty))

/-! ### Boundaries, countdowns and digital inputs -/

/-- With nothing outstanding and every first sample taken, a millisecond boundary advances the uptime by 1 ms
across its wraps, counts a running jog whose drive is on and the loaded time of a loaded crusher, runs the
output periods, and changes nothing else but the inputs. That the output periods are counted at these boundaries is
the model's choice, log 12. A sample that differs from the debounced level is counted, and the twentieth makes the
change due; one that equals it returns the count to 0. An open E-stop loop is due at once, a closed one after twenty
samples. The first sample of an input gives its debounced level at that boundary, with the count at 0; that its
change is delivered within the boundary is the model's choice, log 2. -/
def Obligations.MillisecondBoundaryAdvancesUptime : Prop :=
  (∀ (x : Samples) (s : State), s.powered = true → s.quiet →
      (∀ i, (s.inputs.digital i).level ≠ none) → s.inputs.estop.level ≠ none →
      ∃ t, exec (.millisecondBoundary x) s = .next t ∧
        t = { s with
              time := t.time, inputs := t.inputs, gaps := t.gaps, positioners := t.positioners,
              governors := t.governors } ∧
        t.time =
          (if s.time.millis + 1 < 1000 then { s.time with millis := s.time.millis + 1 }
          else { s.time with
                  millis := 0, seconds := (s.time.seconds + 1) % 4294967296, secondDue := true }) ∧
        (∀ u, t.gap u =
          if s.present u = true ∧ (s.inputs.running.get u).level = some true ∧
              ∃ a, s.inputs.power.get u = some a ∧ (s.crusher u).loadedPower ≤ a.scaled then
            { s.gap u with loadedTime := (s.gap u).loadedTime + 1 }
          else s.gap u) ∧
        (∀ u, t.governor u =
          { s.governor u with
            output :=
              if (s.governor u).output.phase < 9 then
                ⟨(s.governor u).output.duty, (s.governor u).output.phase + 1⟩
              else ⟨(s.governor u).command, 0⟩ }) ∧
        ∀ u, t.positioner u =
          { s.positioner u with
            jog :=
              if (s.positioner u).drive.isSome ∧ (s.positioner u).state = .jogging then
                (s.positioner u).jog.map fun j => { j with remaining := j.remaining - 1 }
              else (s.positioner u).jog
            valve :=
              match (s.positioner u).drive with
              | none => (s.positioner u).valve
              | some d =>
                if (s.positioner u).valve.phase < 4 then
                  ⟨(s.positioner u).valve.duty, (s.positioner u).valve.phase + 1⟩
                else ⟨d.duty, 0⟩ }) ∧
  (∀ (x : Samples) (s : State), s.powered = true → s.quiet →
     ∃ t, exec (.millisecondBoundary x) s = .next t ∧
       (∀ i v, (s.inputs.digital i).level = some v → x.level i = v →
         t.inputs.digital i = ⟨v, some v, 0, false⟩) ∧
       (∀ i v, (s.inputs.digital i).level = some v → x.level i ≠ v → (s.inputs.digital i).count < 20 →
         t.inputs.digital i =
           ⟨!v, some v, (s.inputs.digital i).count + 1, (s.inputs.digital i).count = 19⟩) ∧
       (s.inputs.estop.level = some true →
         t.inputs.estop = ⟨x.estopLoop, some true, 0, !x.estopLoop⟩) ∧
       (s.inputs.estop.level = some false → x.estopLoop = false →
         t.inputs.estop = ⟨false, some false, 0, false⟩) ∧
       (s.inputs.estop.level = some false → x.estopLoop = true → s.inputs.estop.count < 20 →
         t.inputs.estop =
           ⟨true, some false, s.inputs.estop.count + 1, s.inputs.estop.count = 19⟩)) ∧
  (∀ (x : Samples) (s : State), s.powered = true → s.quiet →
     ∃ t, exec (.millisecondBoundary x) s = .next t ∧
       (∀ i, (s.inputs.digital i).level = none →
         t.inputs.digital i = ⟨x.level i, some (x.level i), 0, false⟩) ∧
       (s.inputs.estop.level = none →
         t.inputs.estop = ⟨x.estopLoop, some x.estopLoop, 0, false⟩))

/-- At a second boundary every keep and every wait decreases by 1 and the line clock advances by 1, wrapping. A
slot whose wait has reached 0 is freed, and nothing else changes. A keep that has reached 0 lapses: the priority
becomes 0 and the keep absent, and where the station has no waiting request or is not accepting nothing else
changes. At an accepting station the best waiting request is applied if it outranks the standing setting, and its
slot freed: the target is its value within the limits, and the last-applied record names it. A feeder's base rate
becomes the target. That an item which has reached 0 stands until its own command comes is the model's choice,
log 25, and so is that the clock advances from whatever it holds at the command, log 9. -/
def Obligations.SecondBoundaryCountsDown : Prop :=
  (∀ s : State, s.powered = true → s.time.secondDue = true →
     ∃ t, exec .secondBoundary s = .next t ∧
       t = { s with time := t.time, feeders := t.feeders, crushers := t.crushers, board := t.board } ∧
       t.time =
         { s.time with lineClock := (s.time.lineClock + 1) % 4294967296, secondDue := false } ∧
       (∀ st, t.station st =
         { s.station st with
           standing :=
             { (s.station st).standing with keep := (s.station st).standing.keep.map fun k => k - 1 } }) ∧
       t.board.counter = s.board.counter ∧
       t.board.slots = s.board.slots.map fun o => o.map fun r => { r with wait := r.wait - 1 }) ∧
  (∀ (i : Fin 24) (r : Slot) (s : State), s.powered = true → s.board.slots[i.val]? = some (some r) →
     r.wait = 0 →
     exec (.waitExpiry i) s = .next (s.withBoard { s.board with slots := s.board.slots.set i.val none })) ∧
  (∀ (st : Station) (s : State), s.powered = true → (s.station st).standing.keep = some 0 →
     s.accepting st = false ∨ s.board.waitingFor st = 0 →
     exec (.keepLapse st) s =
       .next (s.modStation st fun r => { r with standing := { r.standing with priority := 0, keep := none } })) ∧
  (∀ (st : Station) (i : Nat) (r : Slot) (s : State), s.powered = true →
     (s.station st).standing.keep = some 0 → s.accepting st = true →
     s.board.slots[i]? = some (some r) → r.station = st →
     (∀ j q, s.board.slots[j]? = some (some q) → q.station = st → j ≠ i →
       q.priority < r.priority ∨ q.priority = r.priority ∧ q.sequence < r.sequence) →
     let outranks := 0 < r.priority ∨
       ∀ l tag n, (s.station st).standing.origin = .request l tag n → n < r.sequence
     (¬outranks →
       exec (.keepLapse st) s =
         .next (s.modStation st fun r =>
           { r with standing := { r.standing with priority := 0, keep := none } })) ∧
     (outranks → (s.station st).lastAccepting = true →
       ∃ t, exec (.keepLapse st) s = .next t ∧ s.workOf t st.train ∧
         t.board = { s.board with slots := s.board.slots.set i none } ∧
         (t.station st).standing =
           ⟨s.limited st r.value, r.priority, .request r.source r.tag r.sequence, r.keep⟩ ∧
         (t.station st).lastApplied = some ⟨r.source, r.tag⟩ ∧ (t.station st).mode = (s.station st).mode ∧
         (st.role = .feeder → s.basesFollow → (t.governor st.train).base = s.limited st r.value)))

/-- A change of a running contact or a conveyor contact makes the sampled level the debounced one. A running
contact adds or removes CRUSHER_STOPPED at the feeder of a present train; the surge bin's conveyor adds or
removes CONVEYOR at the feeder of train 0, the product conveyor at those of trains 1 to 3, each with its
condition. The contacts of an absent train, and the relief switch of a crusher under ANALOG, change their
debounced level and nothing else. -/
def Obligations.DigitalChangesSetTheHolds : Prop :=
  (∀ (level : Bool) (s : State), s.powered = true →
     let judged (c : Hold) (g : Governor) : Governor := if level then g.release c else g.hold c
     let listed (code : Code) (l : ConditionList) : ConditionList :=
       if level then l.causeEnded code .line else l.onset code .line none s.stamp
     (∀ u, (s.inputs.running.get u).due = true → (s.inputs.running.get u).raw = level →
       s.present u = true → level = true ∨ s.isSubject u = false →
       exec (.digitalChange (.running u)) s =
         .next
           ((s.withInputs
               { s.inputs with
                 running := s.inputs.running.set u ⟨level, some level, 0, false⟩ }).modGovernor u
             (judged .crusherStopped))) ∧
     (s.inputs.surgeConveyor.due = true → s.inputs.surgeConveyor.raw = level →
       exec (.digitalChange .surgeConveyor) s =
         .next
           (((s.withInputs { s.inputs with surgeConveyor := ⟨level, some level, 0, false⟩ }).modGovernor .t0
             (judged .conveyor)).modConditions (listed .surgeConveyorStopped))) ∧
     (s.inputs.productConveyor.due = true → s.inputs.productConveyor.raw = level →
       exec (.digitalChange .productConveyor) s =
         .next
           (((((s.withInputs { s.inputs with productConveyor := ⟨level, some level, 0, false⟩ }).modGovernor .t1
             (judged .conveyor)).modGovernor .t2 (judged .conveyor)).modGovernor .t3
             (judged .conveyor)).modConditions (listed .productConveyorStopped)))) ∧
  (∀ (u : Train) (s : State), s.powered = true →
     (s.present u = false → (s.inputs.running.get u).due = true →
       exec (.digitalChange (.running u)) s =
         .next (s.withInputs
           { s.inputs with
             running :=
               s.inputs.running.set u
                 ⟨(s.inputs.running.get u).raw, some (s.inputs.running.get u).raw, 0, false⟩ })) ∧
     (s.present u = false ∨ (s.crusher u).reliefSource = .analog →
       (s.inputs.reliefSwitch.get u).due = true →
       exec (.digitalChange (.reliefSwitch u)) s =
         .next (s.withInputs
           { s.inputs with
             reliefSwitch :=
               s.inputs.reliefSwitch.set u
                 ⟨(s.inputs.reliefSwitch.get u).raw, some (s.inputs.reliefSwitch.get u).raw, 0, false⟩ })))

/-- A cause added to a hold set stops the feeder at once: demand, command and output are 0. A cause removed
leaves them as they stand, and the others stay held. -/
def Obligations.HoldsStopTheFeeder : Prop :=
  ∀ (limit : Nat) (g : Governor) (c d : Hold), g.lawful limit →
    (g.hold c).holds.has c = true ∧ (g.release c).holds.has c = false ∧
      (d ≠ c → (g.hold c).holds.has d = g.holds.has d ∧ (g.release c).holds.has d = g.holds.has d) ∧
      (g.hold c).state = .held ∧ (g.hold c).command = 0 ∧ (g.hold c).demand = 0 ∧
      (g.hold c).output.duty = 0 ∧ (g.hold c).base = g.base ∧ (g.hold c).trim = g.trim ∧
      (g.hold c).updateTimer = g.updateTimer ∧ (g.hold c).capBound = g.capBound ∧
      (g.release c) = { g with holds := g.holds.put c false, output := (g.release c).output } ∧
      (g.release c).output.duty = g.output.duty ∧
      ((g.release c).state = .running ↔ (∀ e, e ≠ c → g.holds.has e = false) ∧ g.base ≠ 0)

/-- The E-stop stops the line at once: every Positioner holds ESTOP with its drive off, every feeder holds ESTOP
and is commanded 0, a running touch has ended, and where none ran the onset of ESTOP is all that the Condition
List sees. -/
def Obligations.EstopStopsTheLine : Prop :=
  ∀ s : State, s.powered = true → s.inputs.estop.due = true → s.inputs.estop.raw = false →
    s.governorsLawful →
    (∀ u, (s.positioner u).reasons.estop = false) →
    (∀ u, (s.positioner u).drive = none ∨
      (s.positioner u).state = .driving ∧ (s.positioner u).reasons.isEmpty = true ∨
      (s.positioner u).state = .jogging ∨ (s.positioner u).state = .lent ∧ s.sequencer.subject = some u) →
    ∃ t, exec .estopAssert s = .next t ∧
      t.inputs = { s.inputs with estop := ⟨false, some false, 0, false⟩ } ∧ t.estopAsserted = true ∧
      (∀ u, (t.positioner u).reasons.estop = true ∧ (t.positioner u).drive = none ∧
        (t.governor u).holds.estop = true ∧ (t.governor u).command = 0 ∧
        (t.governor u).output.duty = 0) ∧
      t.sequencer.subject = none ∧
      (∀ u, s.sequencer.subject = some u →
        (t.zero u).outcome.map TouchOutcome.result = some .abortedEstop) ∧
      (s.sequencer.subject = none →
        t.conditions = s.conditions.onset .estop .line none s.stamp ∧ t.zeros = s.zeros ∧
          t.store = s.store) ∧
      t.time = s.time ∧ t.line = s.line ∧ t.crusherParams = s.crusherParams ∧
      t.feederParams = s.feederParams ∧ t.links = s.links ∧ t.board = s.board ∧ t.gaps = s.gaps ∧
      t.feeders = s.feeders ∧ t.crushers = s.crushers ∧ t.supervisors = s.supervisors

/-- The release of the E-stop removes ESTOP everywhere. Where every Positioner keeps another reason or is not
SUSPENDED, nothing else changes but the condition's cause, which ends. -/
def Obligations.EstopReleaseRemovesItsHolds : Prop :=
  ∀ s : State, s.powered = true → s.inputs.estop.due = true → s.inputs.estop.raw = true →
    ∃ t, exec .estopRelease s = .next t ∧
      t.inputs = { s.inputs with estop := ⟨true, some true, 0, false⟩ } ∧ t.estopAsserted = false ∧
      (∀ u, (t.positioner u).reasons.estop = false ∧ (t.governor u).holds.estop = false) ∧
      ((∀ u, (s.positioner u).state = .suspended → (s.positioner u).reasons.mode = true ∨
          (s.positioner u).reasons.relief = true ∨ (s.positioner u).reasons.position = true ∨
          (s.positioner u).reasons.noZero = true) →
        t = { s with
              inputs := t.inputs
              positioners :=
                s.positioners.map fun p => { p with reasons := { p.reasons with estop := false } }
              governors := s.governors.map fun g => g.release .estop
              conditions := s.conditions.causeEnded .estop .line })

/-! ### Readings, the measured gap and the position -/

/-- A reading of an absent crusher is kept, raw and scaled by span/4096, and does nothing else; a loop below 4
mA reads 0 and one above 20 mA reads 4095. At a position arrival in the window of a VALID position the measured
gap becomes the smaller of 3000 and floor((p − Z) × K / 1024) + floor(W / 100), the first term 0 where p ≤ Z;
with no valid zero it is absent. -/
def Obligations.ReadingsAreKeptAndMeasured : Prop :=
  (∀ (u : Train) (s : State), s.powered = true → s.present u = false →
     (∀ r : BitVec 16, exec (.positionArrival u (some r)) s =
       .next (s.withInputs { s.inputs with position := s.inputs.position.set u (some r.toNat) })) ∧
     exec (.positionArrival u none) s = .next s ∧
     ∀ (loop : LoopReading) (raw : Nat),
       raw = (match loop with | .below => 0 | .raw r => r.toNat | .above => 4095) →
       exec (.pressureArrival u loop) s =
         .next (s.withInputs
           { s.inputs with
             pressure :=
               s.inputs.pressure.set u (some ⟨raw, raw * (s.crusher u).pressureSpan / 4096⟩) }) ∧
       exec (.powerArrival u loop) s =
         .next (s.withInputs
           { s.inputs with
             power := s.inputs.power.set u (some ⟨raw, raw * (s.crusher u).powerSpan / 4096⟩) })) ∧
  (∀ (u : Train) (r : BitVec 16) (s : State), s.powered = true → s.present u = true →
     (s.gap u).validity = .valid → (s.crusher u).posLow ≤ r.toNat → r.toNat ≤ (s.crusher u).posHigh →
     let kept := s.withInputs { s.inputs with position := s.inputs.position.set u (some r.toNat) }
     let measured : GapMeasurement :=
       { s.gap u with
         gap :=
           if (s.zero u).valid then
             some
               (min 3000
                 ((if r.toNat ≤ (s.zero u).z then 0
                   else (r.toNat - (s.zero u).z) * (s.crusher u).gain / 1024) + (s.gap u).wear / 100))
           else none }
     ((s.isSubject u = false ∨ s.sequencer.state ≠ .backoff) → (s.positioner u).state ≠ .jogging →
       exec (.positionArrival u (some r)) s = .next (kept.modGap u fun _ => measured)) ∧
     ((s.isSubject u = false ∨ s.sequencer.state ≠ .backoff ∨
         ∃ target, s.sequencer.target = some target ∧ r.toNat < target) →
       ∃ t, exec (.positionArrival u (some r)) s = .next t ∧ t.gap u = measured ∧ t.inputs = kept.inputs))

/-- An arrival outside the window, or a failed one, makes a VALID position not valid: the measured gap is
absent, POSITION is held, the crusher stops accepting, and POSITION_FAULT is reported if it did not stand. A
DRIVING Positioner switches its drive off and is SUSPENDED with its move kept; one in IDLE is SUSPENDED. In
NOT_VALID an arrival in the window starts a recovery of 1000 ms, and in RECOVERING one in the window leaves it
running: either holds for the expiry the gap that the reading gives with the zero, the gain and the wear in force at
that arrival, absent with no valid zero, and changes nothing else. In either state one outside the window, or a failed
one, leaves NOT_VALID with no recovery, and reports POSITION_FAULT if it did not stand. At the recovery's expiry the
position is VALID: the measured gap is that of the latest reading, held since its arrival, POSITION is removed, and a
standing POSITION_FAULT ends. -/
def Obligations.PositionIsLostAndRecovers : Prop :=
  (∀ (u : Train) (reading : Option (BitVec 16)) (s : State), s.powered = true → s.present u = true →
     (∀ r, reading = some r → r.toNat < (s.crusher u).posLow ∨ (s.crusher u).posHigh < r.toNat) →
     (s.gap u).validity = .valid → (s.gap u).firstReadingDue = false → s.isSubject u = false →
     (s.positioner u).state ≠ .jogging →
     ∃ t, exec (.positionArrival u reading) s = .next t ∧
       t = { s with
             crushers := t.crushers, inputs := t.inputs, gaps := t.gaps, positioners := t.positioners,
             conditions := t.conditions } ∧
       s.othersKept t u ∧
       t.gap u =
         { s.gap u with validity := .notValid, recovery := none, gap := none, faultStanding := true } ∧
       t.station (crusherOf u) = { s.station (crusherOf u) with lastAccepting := false } ∧
       t.accepting (crusherOf u) = false ∧ (t.positioner u).reasons.position = true ∧
       t.conditions =
         (if (s.gap u).faultStanding then s.conditions
         else s.conditions.onset .positionFault (.crusher u) none s.stamp) ∧
       (∀ d, (s.positioner u).state = .driving → (s.positioner u).reasons.isEmpty = true →
         (s.positioner u).drive = some d →
         (t.positioner u).state = .suspended ∧ (t.positioner u).drive = none ∧
           (t.positioner u).lastEnd = ⟨s.now, some d.direction⟩ ∧ (t.positioner u).moveTimer = none ∧
           (t.positioner u).move = (s.positioner u).move) ∧
       ((s.positioner u).state = .idle → (s.positioner u).reasons.isEmpty = true →
         (t.positioner u).state = .suspended)) ∧
  (∀ (u : Train) (r : BitVec 16) (s : State), s.powered = true → s.present u = true →
     (s.gap u).firstReadingDue = false → (s.positioner u).state ≠ .jogging →
     (s.isSubject u = false ∨ s.sequencer.state ≠ .backoff) →
     let kept := s.withInputs { s.inputs with position := s.inputs.position.set u (some r.toNat) }
     let inside := (s.crusher u).posLow ≤ r.toNat ∧ r.toNat ≤ (s.crusher u).posHigh
     let gap : Option Nat :=
       if (s.zero u).valid then some (measuredGap r.toNat (s.zero u).z (s.crusher u).gain (s.gap u).wear)
       else none
     ((s.gap u).validity = .notValid → inside →
       exec (.positionArrival u (some r)) s =
         .next (kept.modGap u fun g =>
           { g with validity := .recovering, recovery := some ⟨⟨s.now, 1000⟩, gap⟩ })) ∧
     ((s.gap u).validity = .recovering → inside →
       exec (.positionArrival u (some r)) s =
         .next (kept.modGap u fun g => { g with recovery := g.recovery.map fun k => ⟨k.timer, gap⟩ }))) ∧
  (∀ (u : Train) (reading : Option (BitVec 16)) (s : State), s.powered = true → s.present u = true →
     (∀ r, reading = some r → r.toNat < (s.crusher u).posLow ∨ (s.crusher u).posHigh < r.toNat) →
     (s.gap u).validity = .recovering ∨ (s.gap u).validity = .notValid →
     (s.gap u).firstReadingDue = false → (s.positioner u).state ≠ .jogging →
     (s.isSubject u = false ∨ s.sequencer.state ≠ .backoff) → (s.positioner u).reasons.position = true →
     ∃ t, exec (.positionArrival u reading) s = .next t ∧
       t = { s with
             crushers := t.crushers, inputs := t.inputs, gaps := t.gaps, conditions := t.conditions } ∧
       s.othersKept t u ∧
       t.gap u =
         { s.gap u with validity := .notValid, recovery := none, gap := none, faultStanding := true } ∧
       t.station (crusherOf u) = { s.station (crusherOf u) with lastAccepting := false } ∧
       t.conditions =
         (if (s.gap u).faultStanding then s.conditions
         else s.conditions.onset .positionFault (.crusher u) none s.stamp)) ∧
  (∀ (u : Train) (k : Recovery) (s : State), s.powered = true → (s.gap u).validity = .recovering →
     (s.gap u).recovery = some k → k.timer.length ≤ elapsed s.now k.timer.start →
     (s.gap u).firstReadingDue = false →
     ∃ t, exec (.recoveryExpiry u) s = .next t ∧ s.workOf t u ∧
       t.gap u =
         { s.gap u with
           validity := .valid
           recovery := none
           faultStanding := false
           gap := if (s.zero u).valid then k.gap else none } ∧
       (t.positioner u).reasons.position = false ∧ t.zeros = s.zeros ∧ t.sequencer = s.sequencer ∧
       ((s.gap u).faultStanding = true → t.conditions.listed .positionFault (.crusher u) = false) ∧
       ((s.positioner u).state ≠ .suspended → (s.gap u).faultStanding = false →
         s.board.waitingFor (crusherOf u) = 0 → t.conditions = s.conditions ∧ t.governors = s.governors))

/-- The first position reading after a start writes the crusher's START setting: its target the measured gap of
that arrival within the limits, or GAP_MAX where none is present. The first one after its train is made present finds
the position NOT_VALID: it writes GAP_MAX, and starts a recovery of 1000 ms, holding the gap it gives, where it lies in the window, or reports
POSITION_FAULT where it does not. -/
def Obligations.FirstReadingWritesTheStartTarget : Prop :=
  (∀ (u : Train) (reading : Option (BitVec 16)) (s : State), s.powered = true → s.present u = true →
    (s.gap u).validity = .unchecked → (s.gap u).firstReadingDue = true →
    s.board.waitingFor (crusherOf u) = 0 → s.isSubject u = false →
    ∃ t, exec (.positionArrival u reading) s = .next t ∧ (t.gap u).firstReadingDue = false ∧
      t.zeros = s.zeros ∧ t.board = s.board ∧
      (∀ r, reading = some r → (s.crusher u).posLow ≤ r.toNat → r.toNat ≤ (s.crusher u).posHigh →
        (t.gap u).validity = .valid ∧ (t.positioner u).reasons.position = false ∧
          (t.station (crusherOf u)).standing =
            Standing.start
              (if (s.zero u).valid then
                clamp (s.crusher u).gapMin (s.crusher u).gapMax
                  (measuredGap r.toNat (s.zero u).z (s.crusher u).gain (s.gap u).wear)
              else (s.crusher u).gapMax)) ∧
      ((∀ r, reading = some r → r.toNat < (s.crusher u).posLow ∨ (s.crusher u).posHigh < r.toNat) →
        (t.gap u).validity = .notValid ∧ (t.gap u).faultStanding = true ∧
          (t.positioner u).reasons.position = true ∧
          (t.station (crusherOf u)).standing = Standing.start (s.crusher u).gapMax)) ∧
  ∀ (u : Train) (reading : Option (BitVec 16)) (s : State), s.powered = true → s.present u = true →
    (s.gap u).validity = .notValid → (s.gap u).firstReadingDue = true → (s.gap u).gap = none →
    (s.positioner u).reasons.position = true → (s.positioner u).state = .suspended ∨ (s.positioner u).state = .fault →
    s.isSubject u = false →
    let inside := ∃ r, reading = some r ∧ (s.crusher u).posLow ≤ r.toNat ∧ r.toNat ≤ (s.crusher u).posHigh
    ∃ t, exec (.positionArrival u reading) s = .next t ∧
      t = { s with
            crushers := t.crushers, inputs := t.inputs, gaps := t.gaps, conditions := t.conditions } ∧
      s.othersKept t u ∧ (t.gap u).firstReadingDue = false ∧
      (t.station (crusherOf u)).standing = Standing.start (s.crusher u).gapMax ∧
      (inside →
        (t.gap u).validity = .recovering ∧
          (∀ r, reading = some r →
            (t.gap u).recovery =
              some ⟨⟨s.now, 1000⟩,
                if (s.zero u).valid then
                  some (measuredGap r.toNat (s.zero u).z (s.crusher u).gain (s.gap u).wear)
                else none⟩) ∧
          t.conditions = s.conditions) ∧
      (¬inside →
        (t.gap u).validity = .notValid ∧ (t.gap u).faultStanding = true ∧
          t.conditions =
            (if (s.gap u).faultStanding then s.conditions
            else s.conditions.onset .positionFault (.crusher u) none s.stamp))

/-! ### Relief, overload and trips -/

/-- Under ANALOG the relief detector has hysteresis: between its two thresholds nothing changes but the reading,
and the end of relief starts the clearing timer at CLEARING_TIME seconds. Under SWITCH the detector follows the
relief switch, through SWITCH_INVERT, at its change and at a pressure arrival: an active level is a relief onset, and
an inactive one in RELIEVING starts the clearing timer. Before the switch's first sample there is no level to judge,
log 20. -/
def Obligations.ReliefDetectorFollowsItsSource : Prop :=
  (∀ (u : Train) (loop : LoopReading) (s : State), s.powered = true → s.present u = true →
     (s.crusher u).reliefSource = .analog → s.isSubject u = false →
     let a := analogOf loop (s.crusher u).pressureSpan
     let kept := s.withInputs { s.inputs with pressure := s.inputs.pressure.set u (some a) }
     ((s.supervisor u).detectorActive = false → a.scaled < (s.crusher u).reliefLevel →
       exec (.pressureArrival u loop) s = .next kept) ∧
     ((s.supervisor u).detectorActive = true →
       (s.crusher u).reliefLevel - (s.crusher u).reliefHyst ≤ a.scaled →
       exec (.pressureArrival u loop) s = .next kept) ∧
     ((s.supervisor u).detectorActive = true → (s.supervisor u).relief = .relieving →
       a.scaled < (s.crusher u).reliefLevel - (s.crusher u).reliefHyst →
       exec (.pressureArrival u loop) s =
         .next (kept.modSupervisor u fun v =>
           { v with
             detectorActive := false
             relief := .clearing
             clearingTimer := some ⟨s.now, (s.crusher u).clearingTime * 1000⟩ }))) ∧
  (∀ (u : Train) (s : State), s.powered = true → s.present u = true → (s.crusher u).reliefSource = .switch →
     (s.inputs.reliefSwitch.get u).due = true →
     let raw := (s.inputs.reliefSwitch.get u).raw
     let kept := s.withInputs
       { s.inputs with reliefSwitch := s.inputs.reliefSwitch.set u ⟨raw, some raw, 0, false⟩ }
     ((s.supervisor u).detectorActive = (raw != (s.crusher u).switchInvert) →
       exec (.digitalChange (.reliefSwitch u)) s = .next kept) ∧
     ((s.supervisor u).detectorActive = true → raw = (s.crusher u).switchInvert →
       (s.supervisor u).relief = .relieving →
       exec (.digitalChange (.reliefSwitch u)) s =
         .next (kept.modSupervisor u fun v =>
           { v with
             detectorActive := false
             relief := .clearing
             clearingTimer := some ⟨s.now, (s.crusher u).clearingTime * 1000⟩ })) ∧
     ((s.supervisor u).detectorActive = false → raw ≠ (s.crusher u).switchInvert →
       ∃ t, exec (.digitalChange (.reliefSwitch u)) s = .next t ∧ t.inputs = kept.inputs ∧
         (t.supervisor u).detectorActive = true ∧ (t.supervisor u).relief = .relieving ∧
         (t.governor u).holds.relief = true ∧ (t.positioner u).reasons.relief = true)) ∧
  (∀ (u : Train) (loop : LoopReading) (s : State), s.powered = true → s.present u = true →
     (s.crusher u).reliefSource = .switch → s.isSubject u = false →
     let kept := s.withInputs
       { s.inputs with
         pressure := s.inputs.pressure.set u (some (analogOf loop (s.crusher u).pressureSpan)) }
     ((s.inputs.reliefSwitch.get u).level = none → exec (.pressureArrival u loop) s = .next kept) ∧
     ∀ level, (s.inputs.reliefSwitch.get u).level = some level →
       ((s.supervisor u).detectorActive = (level != (s.crusher u).switchInvert) →
         exec (.pressureArrival u loop) s = .next kept) ∧
       ((s.supervisor u).detectorActive = true → level = (s.crusher u).switchInvert →
         (s.supervisor u).relief = .relieving →
         exec (.pressureArrival u loop) s =
           .next (kept.modSupervisor u fun v =>
             { v with
               detectorActive := false
               relief := .clearing
               clearingTimer := some ⟨s.now, (s.crusher u).clearingTime * 1000⟩ })) ∧
       ((s.supervisor u).detectorActive = false → level ≠ (s.crusher u).switchInvert →
         ∃ t, exec (.pressureArrival u loop) s = .next t ∧ t.inputs = kept.inputs ∧
           (t.supervisor u).detectorActive = true ∧ (t.supervisor u).relief = .relieving ∧
           (t.governor u).holds.relief = true ∧ (t.positioner u).reasons.relief = true))

/-- A relief onset stops the feeder with its trim at the floor, switches the drive off under reason RELIEF,
makes the crusher stop accepting, and is entered in the relief history. RELIEF_COUNT onsets within
RELIEF_WINDOW, or a latch already set, set the latch of REPEATED_RELIEF and hold TRIP. -/
def Obligations.ReliefOnsetStopsTheTrain : Prop :=
  ∀ (u : Train) (loop : LoopReading) (s : State), s.powered = true → s.present u = true →
    (s.crusher u).reliefSource = .analog → s.isSubject u = false →
    (s.supervisor u).detectorActive = false →
    (s.crusher u).reliefLevel ≤ (analogOf loop (s.crusher u).pressureSpan).scaled →
    (s.governor u).lawful (s.feeder u).trimLimit → (s.positioner u).reasons.relief = false →
    ((s.positioner u).drive = none ∨ (s.positioner u).state = .jogging ∨
      (s.positioner u).state = .driving ∧ (s.positioner u).reasons.isEmpty = true) →
    let entered :=
      (if (s.supervisor u).history.length < 4 then (s.supervisor u).history
        else (s.supervisor u).history.drop 1) ++ [s.time.seconds]
    let within :=
      entered.countP fun x =>
        (s.time.seconds + 4294967296 - x) % 4294967296 ≤ (s.crusher u).reliefWindow
    let trips := (s.crusher u).reliefCount ≤ within ∨ (s.supervisor u).reliefLatch ≠ .clear
    ∃ t, exec (.pressureArrival u loop) s = .next t ∧
      t = { s with
            crushers := t.crushers, inputs := t.inputs, positioners := t.positioners,
            governors := t.governors, supervisors := t.supervisors, conditions := t.conditions } ∧
      s.othersKept t u ∧ t.accepting (crusherOf u) = false ∧
      t.station (crusherOf u) = { s.station (crusherOf u) with lastAccepting := false } ∧
      (t.supervisor u).relief = .relieving ∧ (t.supervisor u).detectorActive = true ∧
      (t.supervisor u).clearingTimer = none ∧ (t.supervisor u).history = entered ∧
      (t.governor u).holds.relief = true ∧ (t.governor u).trim = -((s.feeder u).trimLimit : Int) ∧
      (t.governor u).command = 0 ∧ (t.governor u).demand = 0 ∧ (t.governor u).base = (s.governor u).base ∧
      (t.positioner u).reasons.relief = true ∧ (t.positioner u).drive = none ∧
      (trips →
        (t.supervisor u).reliefLatch = .set ∧ (t.governor u).holds.trip = true ∧
          t.conditions =
            (s.conditions.onset .repeatedRelief (.crusher u) none s.stamp).onset .relief (.crusher u) none
              s.stamp) ∧
      (¬trips →
        (t.supervisor u).reliefLatch = .clear ∧
          (t.governor u).holds.trip = (s.governor u).holds.trip ∧
          t.conditions = s.conditions.onset .relief (.crusher u) none s.stamp)

/-- At the clearing timer's expiry the relief state becomes RESTORING, reason RELIEF is removed, and the latch
of REPEATED_RELIEF takes the end of its cause; hold RELIEF stays until the Positioner reaches IDLE, at once or
later. -/
def Obligations.ClearingExpiryRestores : Prop :=
  ∀ (u : Train) (k : Timer) (s : State), s.powered = true → (s.supervisor u).relief = .clearing →
    (s.supervisor u).clearingTimer = some k → k.length ≤ elapsed s.now k.start →
    ∃ t, exec (.clearingExpiry u) s = .next t ∧ s.workOf t u ∧
      (t.supervisor u).clearingTimer = none ∧ (t.positioner u).reasons.relief = false ∧
      (t.supervisor u).reliefLatch =
        (if (s.supervisor u).reliefLatch = .setAcknowledged then .clear
        else (s.supervisor u).reliefLatch) ∧
      ((t.supervisor u).relief = .restoring ∧
          (t.governor u).holds.relief = (s.governor u).holds.relief ∨
        (t.supervisor u).relief = .normal ∧ (t.governor u).holds.relief = false ∧
          t.conditions.listed .relief (.crusher u) = false) ∧
      ((s.positioner u).state ≠ .suspended ∨ (s.positioner u).reasons.mode = true →
        (s.station (crusherOf u)).mode ≠ .run → (t.supervisor u).relief = .restoring ∧
          t.conditions =
            if (s.supervisor u).reliefLatch = .clear then s.conditions
            else s.conditions.causeEnded .repeatedRelief (.crusher u))

/-- Power at or above OVERLOAD_LEVEL starts the overload delay and keeps it running; power below it stops the
delay; and in an episode power at or below RESUME_LEVEL ends the episode. At the expiry of the overload delay
the episode begins: the trim takes its floor, the feeder holds OVERLOAD and OVERLOAD is reported. -/
def Obligations.OverloadEpisodesFollowThePower : Prop :=
  (∀ (u : Train) (loop : LoopReading) (s : State), s.powered = true → s.present u = true →
     let a := analogOf loop (s.crusher u).powerSpan
     let kept := s.withInputs { s.inputs with power := s.inputs.power.set u (some a) }
     (∃ t, exec (.powerArrival u loop) s = .next t ∧ t.inputs = kept.inputs ∧
       (t.supervisor u).overload =
         ((s.supervisor u).overload && decide ((s.crusher u).resumeLevel < a.scaled)) ∧
       (t.supervisor u).overloadTimer =
         (if (s.supervisor u).overload then (s.supervisor u).overloadTimer
         else if a.scaled < (s.crusher u).overloadLevel then none
         else if (s.supervisor u).overloadTimer.isSome then (s.supervisor u).overloadTimer
         else some ⟨s.now, (s.crusher u).overloadDelay⟩) ∧
       (t.governor u).trim = (s.governor u).trim ∧
       ((s.supervisor u).overload = true → a.scaled ≤ (s.crusher u).resumeLevel →
         (t.governor u).holds.overload = false ∧ t.conditions.listed .overload (.crusher u) = false)) ∧
     ((s.isSubject u = false ∨ s.sequencer.state ≠ .approach) → (s.supervisor u).tripCause = false →
      a.scaled < (s.crusher u).tripLevel →
      ((s.supervisor u).overload = false → (s.crusher u).overloadLevel ≤ a.scaled →
        exec (.powerArrival u loop) s =
          .next (kept.modSupervisor u fun v =>
            { v with
              overloadTimer :=
                if v.overloadTimer.isSome then v.overloadTimer
                else some ⟨s.now, (s.crusher u).overloadDelay⟩ })) ∧
      ((s.supervisor u).overload = false → a.scaled < (s.crusher u).overloadLevel →
        exec (.powerArrival u loop) s =
          .next (kept.modSupervisor u fun v => { v with overloadTimer := none })) ∧
      ((s.supervisor u).overload = true → (s.crusher u).resumeLevel < a.scaled →
        exec (.powerArrival u loop) s = .next kept) ∧
      ((s.supervisor u).overload = true → a.scaled ≤ (s.crusher u).resumeLevel →
        exec (.powerArrival u loop) s =
          .next
            (((kept.modSupervisor u fun v => { v with overload := false }).modGovernor u fun g =>
              g.release .overload).modConditions fun l => l.causeEnded .overload (.crusher u))))) ∧
  (∀ (u : Train) (k : Timer) (s : State), s.powered = true → (s.supervisor u).overloadTimer = some k →
     k.length ≤ elapsed s.now k.start →
     exec (.overloadDelayExpiry u) s =
       .next
         (((s.modSupervisor u fun v => { v with overload := true, overloadTimer := none }).modGovernor u fun g =>
           ({ g with trim := -((s.feeder u).trimLimit : Int) } : Governor).hold .overload).modConditions fun l =>
             l.onset .overload (.crusher u) none s.stamp))

/-- Power at or above TRIP_LEVEL sets the latch of POWER_TRIP, reports it with the power as its detail and stops
the feeder under TRIP; power at or below RESUME_LEVEL ends the cause, which clears an acknowledged latch. -/
def Obligations.PowerTripLatches : Prop :=
  ∀ (u : Train) (loop : LoopReading) (s : State), s.powered = true → s.present u = true →
    (s.isSubject u = false ∨ s.sequencer.state ≠ .approach) →
    let p := (analogOf loop (s.crusher u).powerSpan).scaled
    ((s.supervisor u).tripCause = false → (s.crusher u).tripLevel ≤ p → (s.crusher u).resumeLevel < p →
      (s.governor u).lawful (s.feeder u).trimLimit →
      ∃ t, exec (.powerArrival u loop) s = .next t ∧ s.othersKept t u ∧
        t = { s with
              inputs := t.inputs, governors := t.governors, supervisors := t.supervisors,
              conditions := t.conditions } ∧
        (t.supervisor u).powerLatch = .set ∧ (t.supervisor u).tripCause = true ∧
        (t.governor u).holds.trip = true ∧ (t.governor u).command = 0 ∧
        t.conditions = s.conditions.onset .powerTrip (.crusher u) (some (.power p)) s.stamp) ∧
    ((s.supervisor u).tripCause = true → p ≤ (s.crusher u).resumeLevel →
      (s.supervisor u).overload = false →
      ∃ t, exec (.powerArrival u loop) s = .next t ∧ s.othersKept t u ∧
        t = { s with
              inputs := t.inputs, governors := t.governors, supervisors := t.supervisors,
              conditions := t.conditions } ∧
        (t.supervisor u).tripCause = false ∧
        (t.supervisor u).powerLatch =
          (if (s.supervisor u).powerLatch = .setAcknowledged then .clear
          else (s.supervisor u).powerLatch) ∧
        ((s.supervisor u).powerLatch = .setAcknowledged → (s.supervisor u).reliefLatch = .clear →
          (t.governor u).holds.trip = false) ∧
        t.conditions =
          if (s.supervisor u).powerLatch = .clear then s.conditions
          else s.conditions.causeEnded .powerTrip (.crusher u))

/-- A surge level arrival is kept, scaled to per mille, and each feeder of a present train judges LEVEL: train 0
adds it from SURGE_HIGH and removes it below SURGE_SLOW, trains 1 to 3 add it up to SURGE_LOW and remove it from
SURGE_RESUME. SURGE_HIGH follows train 0's hold, and SURGE_LOW the first and the last of the secondary holds; that
the report of SURGE_HIGH comes first at one arrival is the model's choice, log 24. -/
def Obligations.SurgeLevelHoldsTheFeeders : Prop :=
  ∀ (loop : LoopReading) (s : State), s.powered = true → s.line.surgeLow < s.line.surgeResume →
    let level := rawReading loop * 1000 / 4096
    ∃ t, exec (.surgeLevelArrival loop) s = .next t ∧
      t = { s with inputs := t.inputs, governors := t.governors, conditions := t.conditions } ∧
      t.inputs = { s.inputs with surge := some ⟨rawReading loop, level⟩ } ∧
      (∀ u, s.present u = false → t.governor u = s.governor u) ∧
      (∀ u, s.present u = true →
        t.governor u =
          if u = .t0 then
            (if (s.governor u).holds.level then
              (if level < s.line.surgeSlow then (s.governor u).release .level else s.governor u)
            else if s.line.surgeHigh ≤ level then (s.governor u).hold .level else s.governor u)
          else
            (if (s.governor u).holds.level then
              (if s.line.surgeResume ≤ level then (s.governor u).release .level else s.governor u)
            else if level ≤ s.line.surgeLow then (s.governor u).hold .level else s.governor u)) ∧
      let high (l : ConditionList) : ConditionList :=
        if (s.governor .t0).holds.level = false ∧ (t.governor .t0).holds.level = true then
          l.onset .surgeHigh .line none s.stamp
        else if (s.governor .t0).holds.level = true ∧ (t.governor .t0).holds.level = false then
          l.causeEnded .surgeHigh .line
        else l
      let low (l : ConditionList) : ConditionList :=
        if s.secondaryLevelHeld = false ∧ t.secondaryLevelHeld = true then l.onset .surgeLow .line none s.stamp
        else if s.secondaryLevelHeld = true ∧ t.secondaryLevelHeld = false then l.causeEnded .surgeLow .line
        else l
      t.conditions = low (high s.conditions)

/-! ### Moves and jogs -/

/-- A sample in IDLE starts no move within the drift band. Beyond it a move starts: after draining with GAP_MOVE
held under LOAD_ADJUST NO, and at once under LOAD_ADJUST YES or with DRAIN_TIME 0, the move timer running. At the
drain's expiry a move outside its settle band starts its timer and asks for its drive; one within it ends without
driving. -/
def Obligations.MovesStartByDriftAndDrain : Prop :=
  (∀ (u : Train) (g : Nat) (s : State), s.powered = true → (s.positioner u).state = .idle →
      (s.positioner u).sampleTimer.length ≤ elapsed s.now (s.positioner u).sampleTimer.start →
      (s.gap u).gap = some g →
      let e : Int := ((s.station (crusherOf u)).standing.target : Int) - g
      let p := s.crusher u
      let again : Timer := ⟨s.now, p.sampleInterval⟩
      (e.natAbs ≤ p.deadband →
        exec (.sampleExpiry u) s = .next (s.modPositioner u fun q => { q with sampleTimer := again })) ∧
      (p.deadband < e.natAbs → p.loadAdjust = false → p.drainTime ≠ 0 →
        exec (.sampleExpiry u) s =
          .next
            ((s.modGovernor u fun g => g.hold .gapMove).modPositioner u fun q =>
              { q with
                state := .draining
                move := some ⟨s.now, false⟩
                drainTimer := some ⟨s.now, p.drainTime * 1000⟩
                sampleTimer := again })) ∧
      (p.deadband < e.natAbs → p.loadAdjust = true ∨ p.drainTime = 0 →
        ∃ t, exec (.sampleExpiry u) s = .next t ∧
          t = { s with positioners := t.positioners, governors := t.governors } ∧ s.othersKept t u ∧
          t.governor u =
            (if p.loadAdjust then (s.governor u).release .gapMove else (s.governor u).hold .gapMove) ∧
          (t.governor u).holds.gapMove = !p.loadAdjust ∧
          (t.positioner u).move = some ⟨s.now, p.loadAdjust⟩ ∧
          (t.positioner u).moveTimer = some ⟨s.now, p.moveLimit * 1000⟩ ∧
          (t.positioner u).sampleTimer = again ∧
          ((s.positioner u).drive = none →
            (if (s.positioner u).lastEnd.direction = some (if 0 < e then .opening else .closing) ∨
                p.deadTime ≤ elapsed s.now (s.positioner u).lastEnd.uptime then
              (t.positioner u).state = .driving ∧
                (t.positioner u).drive = some ⟨if 0 < e then .opening else .closing, p.moveDuty e⟩
            else
              (t.positioner u).state = .deadTime ∧ (t.positioner u).drive = none ∧
                (t.positioner u).pendingDrive =
                  some
                    ⟨if 0 < e then .opening else .closing, p.moveDuty e,
                      ⟨(s.positioner u).lastEnd.uptime, p.deadTime⟩⟩)))) ∧
  ∀ (u : Train) (k : Timer) (m : Move) (g : Nat) (s : State), s.powered = true →
    (s.positioner u).state = .draining → (s.positioner u).drainTimer = some k →
    k.length ≤ elapsed s.now k.start → (s.positioner u).drive = none → (s.positioner u).move = some m →
    (s.gap u).gap = some g →
    let e : Int := ((s.station (crusherOf u)).standing.target : Int) - g
    let p := s.crusher u
    let way : Direction := if 0 < e then .opening else .closing
    (p.deadband / 2 < e.natAbs →
      (s.positioner u).lastEnd.direction = some way ∨
        p.deadTime ≤ elapsed s.now (s.positioner u).lastEnd.uptime →
      exec (.drainExpiry u) s =
        .next (s.modPositioner u fun q =>
          { q with
            state := .driving
            drainTimer := none
            moveTimer := some ⟨s.now, p.moveLimit * 1000⟩
            drive := some ⟨way, p.moveDuty e⟩
            pendingDrive := none
            valve := ⟨p.moveDuty e, 0⟩ })) ∧
    (p.deadband / 2 < e.natAbs → (s.positioner u).lastEnd.direction ≠ some way →
      elapsed s.now (s.positioner u).lastEnd.uptime < p.deadTime →
      exec (.drainExpiry u) s =
        .next (s.modPositioner u fun q =>
          { q with
            state := .deadTime
            drainTimer := none
            moveTimer := some ⟨s.now, p.moveLimit * 1000⟩
            pendingDrive := some ⟨way, p.moveDuty e, ⟨q.lastEnd.uptime, p.deadTime⟩⟩ })) ∧
    (e.natAbs ≤ p.deadband / 2 → (s.supervisor u).relief ≠ .restoring →
      exec (.drainExpiry u) s =
        .next
          ((s.modPositioner u fun q =>
              { q with
                state := .idle
                drainTimer := none
                pendingDrive := none
                move := none
                moveTimer := none
                lastDuration := some (min (elapsed s.now m.start) 4294967294) }).modGovernor u fun g =>
            g.release .gapMove))

/-- A sample in DRIVING or DEAD_TIME outside the settle band takes the duty of the new error, the smaller of
DUTY_MAX and the larger of DUTY_MIN and floor(|e| × KP / 16); a reversed error in DRIVING switches the drive off
and makes the other direction the pending drive for the dead time; one in DEAD_TIME drives the other way at once where
that is the direction of the last drive end or its dead time has passed, and else makes it the pending drive. In the
states that run no move, the sample restarts its timer alone. -/
def Obligations.SampleSteersTheMove : Prop :=
  ∀ (u : Train) (g : Nat) (s : State), s.powered = true →
    (s.positioner u).sampleTimer.length ≤ elapsed s.now (s.positioner u).sampleTimer.start →
    (s.gap u).gap = some g →
    let e : Int := ((s.station (crusherOf u)).standing.target : Int) - g
    let p := s.crusher u
    let duty := min p.dutyMax (max p.dutyMin (e.natAbs * p.kp / 16))
    let again : Timer := ⟨s.now, p.sampleInterval⟩
    (∀ d, (s.positioner u).state = .driving → (s.positioner u).drive = some d → p.deadband / 2 < e.natAbs →
      (d.direction = .opening ↔ 0 < e) →
      exec (.sampleExpiry u) s =
        .next (s.modPositioner u fun q =>
          { q with drive := some ⟨d.direction, duty⟩, sampleTimer := again })) ∧
    (∀ d, (s.positioner u).state = .driving → (s.positioner u).drive = some d → p.deadband / 2 < e.natAbs →
      ¬(d.direction = .opening ↔ 0 < e) → 0 < p.deadTime →
      exec (.sampleExpiry u) s =
        .next (s.modPositioner u fun q =>
          { q with
            state := .deadTime
            drive := none
            lastEnd := ⟨s.now, some d.direction⟩
            pendingDrive := some ⟨d.direction.other, duty, ⟨s.now, p.deadTime⟩⟩
            valve := ⟨0, 0⟩
            sampleTimer := again })) ∧
    (∀ d, (s.positioner u).state = .deadTime → (s.positioner u).pendingDrive = some d →
      p.deadband / 2 < e.natAbs → (d.direction = .opening ↔ 0 < e) →
      exec (.sampleExpiry u) s =
        .next (s.modPositioner u fun q =>
          { q with pendingDrive := some ⟨d.direction, duty, d.deadTime⟩, sampleTimer := again })) ∧
    (∀ d, (s.positioner u).state = .deadTime → (s.positioner u).pendingDrive = some d →
      (s.positioner u).drive = none → p.deadband / 2 < e.natAbs → ¬(d.direction = .opening ↔ 0 < e) →
      ((s.positioner u).lastEnd.direction = some d.direction.other ∨
          p.deadTime ≤ elapsed s.now (s.positioner u).lastEnd.uptime →
        exec (.sampleExpiry u) s =
          .next (s.modPositioner u fun q =>
            { q with
              state := .driving
              drive := some ⟨d.direction.other, duty⟩
              pendingDrive := none
              valve := ⟨duty, 0⟩
              sampleTimer := again })) ∧
      ((s.positioner u).lastEnd.direction ≠ some d.direction.other →
        elapsed s.now (s.positioner u).lastEnd.uptime < p.deadTime →
        exec (.sampleExpiry u) s =
          .next (s.modPositioner u fun q =>
            { q with
              pendingDrive := some ⟨d.direction.other, duty, ⟨q.lastEnd.uptime, p.deadTime⟩⟩
              sampleTimer := again }))) ∧
    ((s.positioner u).state ≠ .idle → (s.positioner u).state ≠ .driving →
      (s.positioner u).state ≠ .deadTime →
      exec (.sampleExpiry u) s = .next (s.modPositioner u fun q => { q with sampleTimer := again }))

/-- A sample in DRIVING or DEAD_TIME that finds the error within the settle band, or the gap absent, ends the
move: the drive is off with its end written, the duration is the uptime since the move's start, the Positioner
is IDLE and GAP_MOVE is removed. Out of RESTORING nothing else changes; in RESTORING the relief state is NORMAL,
hold RELIEF is removed and the cause of RELIEF ends, and where the station was accepting, or nothing waits for
it, no selection runs. -/
def Obligations.MoveEndsWithinTheSettleBand : Prop :=
  (∀ (u : Train) (m : Move) (s : State), s.powered = true →
     (s.positioner u).sampleTimer.length ≤ elapsed s.now (s.positioner u).sampleTimer.start →
     ((s.positioner u).state = .driving ∨ (s.positioner u).state = .deadTime) →
     (∀ g, (s.gap u).gap = some g →
       (((s.station (crusherOf u)).standing.target : Int) - g).natAbs ≤ (s.crusher u).deadband / 2) →
     (s.positioner u).move = some m → (s.supervisor u).relief ≠ .restoring →
     exec (.sampleExpiry u) s =
       .next
         ((s.modPositioner u fun q =>
             { q with
               state := .idle
               drive := none
               pendingDrive := none
               lastEnd := match q.drive with | none => q.lastEnd | some d => ⟨s.now, some d.direction⟩
               valve := match q.drive with | none => q.valve | some _ => ⟨0, 0⟩
               move := none
               moveTimer := none
               lastDuration := some (min (elapsed s.now m.start) 4294967294)
               sampleTimer := ⟨s.now, (s.crusher u).sampleInterval⟩ }).modGovernor u fun g =>
           g.release .gapMove)) ∧
  (∀ (u : Train) (s : State), s.powered = true →
     (s.positioner u).sampleTimer.length ≤ elapsed s.now (s.positioner u).sampleTimer.start →
     ((s.positioner u).state = .driving ∨ (s.positioner u).state = .deadTime) →
     (∀ g, (s.gap u).gap = some g →
       (((s.station (crusherOf u)).standing.target : Int) - g).natAbs ≤ (s.crusher u).deadband / 2) →
     (s.supervisor u).relief = .restoring →
     (s.station (crusherOf u)).lastAccepting = true ∨ s.board.waitingFor (crusherOf u) = 0 →
     ∃ t, exec (.sampleExpiry u) s = .next t ∧ s.workOf t u ∧ (t.supervisor u).relief = .normal ∧
       (t.governor u).holds.relief = false ∧ (t.governor u).holds.gapMove = false ∧
       t.conditions = s.conditions.causeEnded .relief (.crusher u) ∧ t.board = s.board ∧
       (t.positioner u).state = .idle ∧ (t.positioner u).drive = none ∧
       (t.station (crusherOf u)).standing = (s.station (crusherOf u)).standing)

/-- At the dead-time expiry the pending drive begins at the pending duty: a move enters DRIVING, a jog goes on,
and a lent drive arms the contact of a touch in APPROACH. At the move timer's expiry the Positioner enters FAULT
with its drive off and its move kept, the crusher stops accepting, and MOVE_TIMEOUT is reported with its cause
ended at once. A jog whose drive has run its time ends with its drive off, SUSPENDED under a reason still held;
one with time to run is left alone. -/
def Obligations.DriveTimersExpire : Prop :=
  (∀ (u : Train) (d : PendingDrive) (s : State), s.powered = true →
     (s.positioner u).pendingDrive = some d →
     let begun (q : Positioner) : Positioner :=
       { q with drive := some ⟨d.direction, d.duty⟩, pendingDrive := none, valve := ⟨d.duty, 0⟩ }
     (elapsed s.now d.deadTime.start < d.deadTime.length → exec (.deadTimeExpiry u) s = .next s) ∧
     (d.deadTime.length ≤ elapsed s.now d.deadTime.start → (s.positioner u).state = .deadTime →
       exec (.deadTimeExpiry u) s =
         .next (s.modPositioner u fun q => { begun q with state := .driving })) ∧
     (d.deadTime.length ≤ elapsed s.now d.deadTime.start → (s.positioner u).state = .jogging →
       exec (.deadTimeExpiry u) s = .next (s.modPositioner u begun)) ∧
     (d.deadTime.length ≤ elapsed s.now d.deadTime.start → (s.positioner u).state = .lent →
       exec (.deadTimeExpiry u) s =
         .next ((s.modPositioner u begun).modSequencer fun q =>
           if s.sequencer.state = .approach then { q with armed := true } else q))) ∧
  (∀ (u : Train) (k : Timer) (s : State), s.powered = true →
     ((s.positioner u).state = .driving ∨ (s.positioner u).state = .deadTime) →
     (s.positioner u).moveTimer = some k → k.length ≤ elapsed s.now k.start →
     exec (.moveTimerExpiry u) s =
       .next
         (((s.modPositioner u fun q =>
               { q with
                 state := .fault
                 drive := none
                 pendingDrive := none
                 lastEnd := match q.drive with | none => q.lastEnd | some d => ⟨s.now, some d.direction⟩
                 valve := match q.drive with | none => q.valve | some _ => ⟨0, 0⟩
                 moveTimer := none }).modStation (crusherOf u) fun r =>
             { r with lastAccepting := false }).modConditions fun l =>
           (l.onset .moveTimeout (.crusher u) none s.stamp).causeEnded .moveTimeout (.crusher u))) ∧
  (∀ (u : Train) (j : Jog) (s : State), s.powered = true → (s.positioner u).state = .jogging →
     (s.positioner u).jog = some j →
     (0 < j.remaining → exec (.jogTimeEnd u) s = .next s) ∧
     (j.remaining = 0 → (s.positioner u).reasons.isEmpty = false →
       exec (.jogTimeEnd u) s =
         .next (s.modPositioner u fun q =>
           { q with
             state := .suspended
             drive := none
             pendingDrive := none
             lastEnd := match q.drive with | none => q.lastEnd | some d => ⟨s.now, some d.direction⟩
             valve := match q.drive with | none => q.valve | some _ => ⟨0, 0⟩
             jog := none })))

/-- A new target applied to a crusher is judged as its Positioner stands: IDLE starts a move beyond the settle band;
DRIVING and DEAD_TIME start the move timer again with the full MOVE_LIMIT and end the move within the band, or go on at
the duty of the new error, or reverse; the move keeps its start. In the other states nothing happens. When the last
reason of a SUSPENDED Positioner goes, by the E-stop's release, a recovery, a clearing or a SET MODE to RUN, it starts
a fresh move beyond the settle band or enters IDLE; so does one whose FAULT is acknowledged with no reason held, and
one whose jog is ended by a SET MODE to RUN with no other reason held, its drive off. An acknowledged FAULT with a
reason held leaves SUSPENDED and the move kept. -/
def Obligations.MovesAreRetargetedAndResumed : Prop :=
  (∀ (l : Link) (tag b priority : Byte) (value keep wait : Half) (u : Train) (s : State),
    s.takesOn l → priority.toNat ≤ 15 → wait.toNat ≤ 3600 → b.toNat = (crusherOf u).number →
    s.accepting (crusherOf u) = true → (s.station (crusherOf u)).lastAccepting = true →
    (s.crusher u).authority.has l = true → (s.station (crusherOf u)).standing.keep ≠ some 0 →
    s.board.counter < 4294967295 →
    let old := (s.station (crusherOf u)).standing
    let p := s.crusher u
    let q := s.positioner u
    let taken : Nat := if l = .lc then min priority.toNat 7 else priority.toNat
    let target : Nat := min (max value.toNat p.gapMin) p.gapMax
    let full : Option Timer := some ⟨s.now, p.moveLimit * 1000⟩
    old.priority < taken ∨
      old.priority = taken ∧ (∀ k g n, old.origin = .request k g n → n < s.board.counter) →
    target ≠ old.target →
    ∃ t, exec (.setGap l tag b value priority keep wait) s = .next t ∧
      (t.station (crusherOf u)).standing.target = target ∧
      (q.state ≠ .idle → q.state ≠ .driving → q.state ≠ .deadTime → t.positioner u = q) ∧
      ((∀ g, (s.gap u).gap = some g → ((target : Int) - g).natAbs ≤ p.deadband / 2) →
        (q.state = .idle → t.positioner u = q) ∧
        ∀ m, q.state = .driving ∨ q.state = .deadTime → q.move = some m →
          (t.positioner u).state = .idle ∧ (t.positioner u).drive = none ∧
            (t.positioner u).pendingDrive = none ∧ (t.positioner u).move = none ∧
            (t.positioner u).moveTimer = none ∧
            (t.positioner u).lastDuration = some (min (elapsed s.now m.start) 4294967294) ∧
            (t.governor u).holds.gapMove = false) ∧
      ∀ g, (s.gap u).gap = some g → p.deadband / 2 < ((target : Int) - g).natAbs →
        let e : Int := (target : Int) - g
        let duty := min p.dutyMax (max p.dutyMin (e.natAbs * p.kp / 16))
        (q.state = .idle → q.drive = none → s.movesAfresh t u) ∧
        (∀ d, q.state = .driving → q.drive = some d →
          ((d.direction = .opening ↔ 0 < e) →
            t.positioner u = { q with drive := some ⟨d.direction, duty⟩, moveTimer := full }) ∧
          (¬(d.direction = .opening ↔ 0 < e) → 0 < p.deadTime →
            t.positioner u =
              { q with
                state := .deadTime
                drive := none
                lastEnd := ⟨s.now, some d.direction⟩
                pendingDrive := some ⟨d.direction.other, duty, ⟨s.now, p.deadTime⟩⟩
                valve := ⟨0, 0⟩
                moveTimer := full })) ∧
        ∀ d, q.state = .deadTime → q.pendingDrive = some d → q.drive = none →
          ((d.direction = .opening ↔ 0 < e) →
            t.positioner u =
              { q with pendingDrive := some ⟨d.direction, duty, d.deadTime⟩, moveTimer := full }) ∧
          (¬(d.direction = .opening ↔ 0 < e) →
            (q.lastEnd.direction = some d.direction.other ∨ p.deadTime ≤ elapsed s.now q.lastEnd.uptime →
              t.positioner u =
                { q with
                  state := .driving
                  drive := some ⟨d.direction.other, duty⟩
                  pendingDrive := none
                  valve := ⟨duty, 0⟩
                  moveTimer := full }) ∧
            (q.lastEnd.direction ≠ some d.direction.other → elapsed s.now q.lastEnd.uptime < p.deadTime →
              t.positioner u =
                { q with
                  pendingDrive := some ⟨d.direction.other, duty, ⟨q.lastEnd.uptime, p.deadTime⟩⟩
                  moveTimer := full }))) ∧
  (∀ (u : Train) (s : State), s.powered = true → (s.positioner u).drive = none →
    s.board.waitingFor (crusherOf u) = 0 →
    let q := s.positioner u
    let resumes (r : Reason) (c : Instr) : Prop :=
      q.state = .suspended → (∀ x, q.reasons.has x = true ↔ x = r) → ∃ t, exec c s = .next t ∧ s.movesAfresh t u
    (s.inputs.estop.due = true → s.inputs.estop.raw = true → resumes .estop .estopRelease) ∧
    (∀ k, (s.gap u).validity = .recovering → (s.gap u).recovery = some k →
      k.timer.length ≤ elapsed s.now k.timer.start → (s.gap u).firstReadingDue = false → resumes .position (.recoveryExpiry u)) ∧
    (∀ k, (s.supervisor u).relief = .clearing → (s.supervisor u).clearingTimer = some k →
      k.length ≤ elapsed s.now k.start → resumes .relief (.clearingExpiry u)) ∧
    ∀ (l : Link) (tag b : Byte), s.takesOn l → l ≠ .lc → b.toNat = (crusherOf u).number →
      (s.present u = true → s.isSubject u = false → (s.station (crusherOf u)).mode = .maintenance →
        resumes .mode (.setMode l tag b 0#8)) ∧
      (q.state = .fault → ∃ t, exec (.acknowledge l tag 10#8 b) s = .next t ∧
        (q.reasons.isEmpty = true → s.movesAfresh t u) ∧
        (q.reasons.isEmpty = false → t.positioner u = { q with state := .suspended }))) ∧
  (∀ (u : Train) (j : Jog) (s : State), s.powered = true → s.board.waitingFor (crusherOf u) = 0 →
    (s.positioner u).state = .jogging → (s.positioner u).jog = some j → j.remaining = 0 →
    (s.positioner u).reasons.isEmpty = true →
    ∃ t, exec (.jogTimeEnd u) s = .next t ∧ s.movesAfresh t u) ∧
  ∀ (l : Link) (tag b : Byte) (u : Train) (s : State), s.takesOn l → l ≠ .lc →
    b.toNat = (crusherOf u).number → s.present u = true → s.isSubject u = false →
    s.board.waitingFor (crusherOf u) = 0 → (s.station (crusherOf u)).mode = .maintenance →
    (s.positioner u).state = .jogging → (∀ x, (s.positioner u).reasons.has x = true ↔ x = .mode) →
    ∃ t, exec (.setMode l tag b 0#8) s = .next t ∧ s.movesAfresh t u ∧ (t.positioner u).jog = none ∧
      (t.station (crusherOf u)).mode = .run ∧ (t.positioner u).reasons.isEmpty = true ∧
      ∀ d, (s.positioner u).drive = some d →
        (t.positioner u).lastEnd = ⟨s.now, some d.direction⟩

/-- A JOG that passes its checks enters JOGGING with its duty clamped to DUTY_MAX, asks for its drive and is
answered DONE with the duty taken; a CLOSE jog at or below GAP_MIN ends at once without driving. At a position
arrival in the window a CLOSE jog ends where the measured gap of that arrival is present and at most GAP_MIN, with its
drive off, SUSPENDED under a reason still held; any other jog goes on. -/
def Obligations.JogDrivesTheValve : Prop :=
  (∀ (u : Train) (tag direction : Byte) (duty duration : Half) (s : State), s.takesOn .sv →
      jogFieldsOk direction duration = true → s.present u = true → s.isSubject u = false →
      (s.station (crusherOf u)).mode = .maintenance → (s.positioner u).state ≠ .fault →
      (s.positioner u).reasons.estop = false → (s.positioner u).reasons.relief = false →
      let p := s.crusher u
      let way : Direction := if direction = 1#8 then .opening else .closing
      let taken := min duty.toNat p.dutyMax
      let answer : Answer :=
        ⟨.done, ⟨decide (taken ≠ duty.toNat), false, false, false, false⟩, halfBytes (BitVec.ofNat 16 taken)⟩
      let ends := way = .closing ∧ ∃ g, (s.gap u).gap = some g ∧ g ≤ p.gapMin
      let jogging (q : Positioner) : Positioner :=
        { q with state := .jogging, jog := some ⟨way, taken, duration.toNat⟩ }
      (∀ d, ¬ends → (s.positioner u).drive = some d → d.direction = way →
        exec (.jog .sv tag (byteOf (crusherOf u).number) direction duty duration) s =
          .next ((s.modPositioner u fun q => { jogging q with drive := some ⟨way, taken⟩ }).answered .sv tag
            0x06#8 answer)) ∧
      (¬ends → (s.positioner u).drive = none →
        (s.positioner u).lastEnd.direction = some way ∨
          p.deadTime ≤ elapsed s.now (s.positioner u).lastEnd.uptime →
        exec (.jog .sv tag (byteOf (crusherOf u).number) direction duty duration) s =
          .next ((s.modPositioner u fun q =>
              { jogging q with
                drive := some ⟨way, taken⟩, pendingDrive := none, valve := ⟨taken, 0⟩ }).answered .sv tag
            0x06#8 answer)) ∧
      (¬ends → (s.positioner u).drive = none → (s.positioner u).lastEnd.direction ≠ some way →
        elapsed s.now (s.positioner u).lastEnd.uptime < p.deadTime →
        exec (.jog .sv tag (byteOf (crusherOf u).number) direction duty duration) s =
          .next ((s.modPositioner u fun q =>
              { jogging q with
                pendingDrive := some ⟨way, taken, ⟨q.lastEnd.uptime, p.deadTime⟩⟩ }).answered .sv tag 0x06#8
            answer)) ∧
      (∀ d, ¬ends → (s.positioner u).drive = some d → d.direction ≠ way → 0 < p.deadTime →
        exec (.jog .sv tag (byteOf (crusherOf u).number) direction duty duration) s =
          .next ((s.modPositioner u fun q =>
              { jogging q with
                drive := none
                lastEnd := ⟨s.now, some d.direction⟩
                pendingDrive := some ⟨way, taken, ⟨s.now, p.deadTime⟩⟩
                valve := ⟨0, 0⟩ }).answered .sv tag 0x06#8 answer)) ∧
      (ends → (s.positioner u).reasons.isEmpty = false →
        ∃ t, exec (.jog .sv tag (byteOf (crusherOf u).number) direction duty duration) s = .next t ∧
          s.repliedBy t .sv tag .jog answer ∧ (t.positioner u).state = .suspended ∧
          (t.positioner u).drive = none ∧ (t.positioner u).jog = none ∧
          t = { s with positioners := t.positioners, links := t.links })) ∧
  ∀ (u : Train) (r : BitVec 16) (j : Jog) (s : State), s.powered = true → s.present u = true →
    (s.gap u).validity = .valid → (s.crusher u).posLow ≤ r.toNat → r.toNat ≤ (s.crusher u).posHigh →
    s.isSubject u = false → (s.positioner u).state = .jogging → (s.positioner u).jog = some j →
    let gap : Option Nat :=
      if (s.zero u).valid then some (measuredGap r.toNat (s.zero u).z (s.crusher u).gain (s.gap u).wear)
      else none
    let measured : State :=
      (s.withInputs { s.inputs with position := s.inputs.position.set u (some r.toNat) }).modGap u fun g =>
        { g with gap := gap }
    (j.direction = .opening ∨ (∀ g, gap = some g → (s.crusher u).gapMin < g) →
      exec (.positionArrival u (some r)) s = .next measured) ∧
    ∀ g, j.direction = .closing → gap = some g → g ≤ (s.crusher u).gapMin →
      (s.positioner u).reasons.isEmpty = false →
      exec (.positionArrival u (some r)) s =
        .next (measured.modPositioner u fun q =>
          { q with
            state := .suspended
            drive := none
            pendingDrive := none
            lastEnd := match q.drive with | none => q.lastEnd | some d => ⟨s.now, some d.direction⟩
            valve := match q.drive with | none => q.valve | some _ => ⟨0, 0⟩
            jog := none })

/-! ### Zero touch, wear and the feed update -/

/-- A START ZERO that passes its checks lends the drive, holds CALIBRATION, starts the time limit and asks for a
CLOSE drive at CREEP_DUTY: it begins at once, with contact armed, or waits for the dead time. A running jog ends first
with its drive off, so the dead time is counted from that end. An E-stop loop not yet sampled counts as RELEASED: the
model's choice, log 6. -/
def Obligations.StartZeroStartsTheTouch : Prop :=
  ∀ (u : Train) (a : Analog) (tag : Byte) (s : State), s.takesOn .sv → s.present u = true →
    s.sequencer.state = .idle → (s.station (crusherOf u)).mode = .maintenance →
    (s.positioner u).state = .jogging ∨ (s.positioner u).state = .suspended ∧ (s.positioner u).drive = none →
    s.estopAsserted = false → (s.supervisor u).relief = .normal → (s.gap u).validity = .valid →
    (s.inputs.running.get u).level = some true → s.inputs.power.get u = some a →
    a.scaled ≤ (s.crusher u).emptyPower →
    let ended : DriveEnd :=
      match (s.positioner u).drive with
      | none => (s.positioner u).lastEnd
      | some d => ⟨s.now, some d.direction⟩
    ∃ t, exec (.startZero .sv tag (byteOf (crusherOf u).number)) s = .next t ∧
      t = { s with
            positioners := t.positioners, sequencer := t.sequencer, governors := t.governors,
            links := t.links } ∧
      s.repliedBy t .sv tag .startZero (Answer.done []) ∧ s.othersKept t u ∧
      t.governor u = (s.governor u).hold .calibration ∧ (t.governor u).holds.calibration = true ∧
      t.sequencer.state = .approach ∧ t.sequencer.subject = some u ∧ t.sequencer.start = some s.now ∧
      t.sequencer.limitTimer = some ⟨s.now, (s.crusher u).zeroTimeLimit * 1000⟩ ∧
      t.sequencer.dwellTimer = none ∧ t.sequencer.contact = none ∧ t.sequencer.target = none ∧
      (t.positioner u).state = .lent ∧ (t.positioner u).reasons = (s.positioner u).reasons ∧
      (t.positioner u).lastEnd = ended ∧
      ((s.positioner u).state = .jogging → (t.positioner u).jog = none) ∧
      (ended.direction = some .closing ∨ (s.crusher u).deadTime ≤ elapsed s.now ended.uptime →
        (t.positioner u).drive = some ⟨.closing, (s.crusher u).creepDuty⟩ ∧
          (t.positioner u).pendingDrive = none ∧ t.sequencer.armed = true) ∧
      (ended.direction ≠ some .closing → elapsed s.now ended.uptime < (s.crusher u).deadTime →
        (t.positioner u).drive = none ∧ t.sequencer.armed = false ∧
          (t.positioner u).pendingDrive =
            some ⟨.closing, (s.crusher u).creepDuty, ⟨ended.uptime, (s.crusher u).deadTime⟩⟩)

/-- In APPROACH with contact armed a pressure at or above CONTACT_LEVEL enters DWELL with its timer; unarmed it
is not judged; and in DWELL a pressure below the level returns to APPROACH. At the dwell's expiry the latest
reading is the contact, the backoff target lies ceil(BACKOFF × 1024 / GAIN) counts above it, and the CLOSE drive
gives way to an OPEN drive that waits for the dead time. That the GAIN in force at the expiry serves, also where no
position reading has arrived since it was written, is the model's choice, log 26. -/
def Obligations.TouchFindsItsContact : Prop :=
  (∀ (u : Train) (loop : LoopReading) (s : State), s.powered = true → s.present u = true →
     (s.crusher u).reliefSource = .analog → (s.supervisor u).detectorActive = false →
     s.sequencer.subject = some u →
     let a := analogOf loop (s.crusher u).pressureSpan
     let kept := s.withInputs { s.inputs with pressure := s.inputs.pressure.set u (some a) }
     a.scaled < (s.crusher u).reliefLevel →
     (s.sequencer.state = .approach → s.sequencer.armed = true → (s.crusher u).contactLevel ≤ a.scaled →
       exec (.pressureArrival u loop) s =
         .next (kept.modSequencer fun q =>
           { q with state := .dwell, dwellTimer := some ⟨s.now, (s.crusher u).contactDwell⟩ })) ∧
     (s.sequencer.state = .approach → s.sequencer.armed = false ∨ a.scaled < (s.crusher u).contactLevel →
       exec (.pressureArrival u loop) s = .next kept) ∧
     (s.sequencer.state = .dwell → a.scaled < (s.crusher u).contactLevel →
       exec (.pressureArrival u loop) s =
         .next (kept.modSequencer fun q => { q with state := .approach, dwellTimer := none })) ∧
     (s.sequencer.state = .dwell → (s.crusher u).contactLevel ≤ a.scaled →
       exec (.pressureArrival u loop) s = .next kept)) ∧
  (∀ (u : Train) (p duty : Nat) (k : Timer) (s : State), s.powered = true → s.sequencer.subject = some u →
     s.sequencer.state = .dwell → s.sequencer.dwellTimer = some k → k.length ≤ elapsed s.now k.start →
     s.inputs.position.get u = some p → (s.positioner u).drive = some ⟨.closing, duty⟩ →
     0 < (s.crusher u).deadTime → 0 < (s.crusher u).gain →
     ∃ target, exec .dwellExpiry s =
         .next
           ((s.modSequencer fun q =>
               { q with
                 state := .backoff, dwellTimer := none, contact := some p, target := some (p + target)
               }).modPositioner u fun q =>
             { q with
               drive := none
               lastEnd := ⟨s.now, some .closing⟩
               pendingDrive := some ⟨.opening, (s.crusher u).creepDuty, ⟨s.now, (s.crusher u).deadTime⟩⟩
               valve := ⟨0, 0⟩ }) ∧
       (s.crusher u).backoff * 1024 ≤ target * (s.crusher u).gain ∧
       ∀ less, (s.crusher u).backoff * 1024 ≤ less * (s.crusher u).gain → target ≤ less)

/-- A reading at or above the backoff target commits the touch. A shift of a valid zero beyond ZERO_SHIFT_MAX is
rejected, leaving zero and wear: ZERO_REJECTED is reported and its cause ends. Any other contact is accepted: it
becomes the zero, W becomes 0 and is marked for the store, the measured gap is absent, NO_ZERO goes, and the causes of
ZERO_UNSET and of WEAR_LIMIT end where they stood. Either way the outcome is written with the touch's duration and
stamp, the drive is returned and CALIBRATION removed; the board, the Supervisors, the feeder's setting and the
crusher's mode, setting and last-applied record stay. That the gap of a zero valid before becomes absent is the
model's choice, log 27. -/
def Obligations.TouchCommitsAtTheBackoffTarget : Prop :=
  ∀ (u : Train) (r : BitVec 16) (contact target : Nat) (s : State), s.powered = true →
    s.present u = true → s.sequencer.subject = some u → s.sequencer.state = .backoff →
    s.sequencer.contact = some contact → s.sequencer.target = some target → target ≤ r.toNat →
    (s.gap u).validity = .valid → (s.crusher u).posLow ≤ r.toNat → r.toNat ≤ (s.crusher u).posHigh →
    (s.positioner u).state = .lent → (s.station (crusherOf u)).mode = .maintenance →
    let zero := s.zero u
    let shift := if contact ≤ zero.z then zero.z - contact else contact - zero.z
    let rejected := zero.valid = true ∧ (s.crusher u).zeroShiftMax < shift
    ∃ t o, exec (.positionArrival u (some r)) s = .next t ∧ (t.zero u).outcome = some o ∧
      s.workOf { t with inputs := s.inputs } u ∧ o.wear = (s.gap u).wear ∧
      o.stamp = ⟨s.time.lineClock, s.time.clockSet⟩ ∧
      o.wearFound =
        (if zero.valid then
          some
            (if contact ≤ zero.z then
              ((min (shift * (s.crusher u).gain / 1024) 3000 : Nat) : Int)
            else -((min (shift * (s.crusher u).gain / 1024) 3000 : Nat) : Int))
        else none) ∧
      t.sequencer = ⟨.idle, none, false, none, none, none, none, none⟩ ∧
      (t.positioner u).state = .suspended ∧ (t.positioner u).drive = none ∧
      (t.positioner u).pendingDrive = none ∧ (t.positioner u).move = (s.positioner u).move ∧
      (∀ d, (s.positioner u).drive = some d → (t.positioner u).lastEnd = ⟨s.now, some d.direction⟩) ∧
      (t.governor u).holds.calibration = false ∧ t.governor u = (s.governor u).release .calibration ∧
      (t.store.dirty.zero = true ∨ t.store.writing.map WriteJob.sec = some .zero) ∧
      (∀ k, s.sequencer.start = some k → o.duration = elapsed s.now k) ∧
      (t.zero u).aborted = zero.aborted ∧ t.board = s.board ∧ t.supervisors = s.supervisors ∧
      t.station (feederOf u) = s.station (feederOf u) ∧
      t.station (crusherOf u) =
        { s.station (crusherOf u) with lastAccepting := (t.station (crusherOf u)).lastAccepting } ∧
      (rejected →
        o.result = .rejectedShift ∧ o.zBefore = some zero.z ∧ o.zAfter = some zero.z ∧
          (t.zero u).z = zero.z ∧ (t.zero u).valid = true ∧ (t.zero u).rejected = true ∧
          (t.gap u).wear = (s.gap u).wear ∧ (t.positioner u).reasons = (s.positioner u).reasons ∧
          t.conditions =
            (s.conditions.onset .zeroRejected (.crusher u) none s.stamp).causeEnded .zeroRejected
              (.crusher u)) ∧
      (¬rejected →
        o.result = .accepted ∧ o.zBefore = (if zero.valid then some zero.z else none) ∧
          o.zAfter = some contact ∧ (t.zero u).z = contact ∧ (t.zero u).valid = true ∧
          (t.zero u).rejected = zero.rejected ∧
          t.gap u = { s.gap u with wear := 0, gap := none } ∧
          (t.positioner u).reasons = { (s.positioner u).reasons with noZero := false } ∧
          t.store.dirty.wear = true ∧
          let set := if zero.valid then s.conditions else s.conditions.causeEnded .zeroUnset (.crusher u)
          t.conditions =
            if 0 < (s.crusher u).wearLimit ∧ (s.crusher u).wearLimit * 100 ≤ (s.gap u).wear then
              set.causeEnded .wearLimit (.crusher u)
            else set)

/-- A running touch is aborted by its time limit, its request, a relief onset, a stopped crusher, load in
APPROACH and a lost position, each with its own result: the outcome is written with the touch's duration and stamp, the
aborted latch set, the drive returned and off, CALIBRATION removed, and the zero left as it was. ZERO_ABORTED is
reported with the result as its detail and its cause ends, and the List takes no other report but REPEATED_RELIEF
before it and RELIEF after it at a relief onset, and POSITION_FAULT at a lost position, failed or outside the window.
That this comes after it, and that a reading outside the window aborts where it reaches the backoff target too, are
the model's choices, log 24. Of a power arrival the List is stated where the reading is no matter of overload or trip. An
ABORT ZERO is answered DONE and changes no other train, board, setting or parameter. -/
def Obligations.EventsAbortTheTouch : Prop :=
  (∀ (u : Train) (s : State), s.takesOn .sv → s.present u = true → s.sequencer.subject = some u →
     s.sequencer.state ≠ .idle → (s.positioner u).state = .lent → (s.gap u).validity = .valid →
     (s.gap u).firstReadingDue = false →
     let told (result : TouchResult) (before : ConditionList) : ConditionList :=
       (before.onset .zeroAborted (.crusher u) (some (.result result)) s.stamp).causeEnded .zeroAborted (.crusher u)
     let aborts (c : Instr) (result : TouchResult) (lists : ConditionList → Prop) : Prop :=
       ∃ t o, exec c s = .next t ∧ (t.zero u).outcome = some o ∧ o.result = result ∧
         o.stamp = ⟨s.time.lineClock, s.time.clockSet⟩ ∧
         (∀ k, s.sequencer.start = some k → o.duration = elapsed s.now k) ∧ lists t.conditions ∧
         o.zBefore = (if (s.zero u).valid then some (s.zero u).z else none) ∧ o.zAfter = o.zBefore ∧
         o.wearFound = none ∧ o.wear = (s.gap u).wear ∧ (t.zero u).z = (s.zero u).z ∧
         (t.zero u).valid = (s.zero u).valid ∧ (t.zero u).aborted = true ∧
         (t.gap u).wear = (s.gap u).wear ∧
         t.sequencer = ⟨.idle, none, false, none, none, none, none, none⟩ ∧
         (t.positioner u).state = .suspended ∧ (t.positioner u).drive = none ∧
         (t.positioner u).pendingDrive = none ∧ (t.governor u).holds.calibration = false ∧
         (t.store.dirty.zero = true ∨ t.store.writing.map WriteJob.sec = some .zero)
     (∀ k, s.sequencer.limitTimer = some k → k.length ≤ elapsed s.now k.start →
       aborts .timeLimitExpiry .abortedTimeout fun l => l = told .abortedTimeout s.conditions) ∧
     (∀ tag, aborts (.abortZero .sv tag (byteOf (crusherOf u).number)) .abortedRequest fun l =>
       l = told .abortedRequest s.conditions) ∧
     (∀ loop, (s.crusher u).reliefSource = .analog → (s.supervisor u).detectorActive = false →
       (s.crusher u).reliefLevel ≤ (analogOf loop (s.crusher u).pressureSpan).scaled →
       let entered :=
         (if (s.supervisor u).history.length < 4 then (s.supervisor u).history
           else (s.supervisor u).history.drop 1) ++ [s.time.seconds]
       let within :=
         entered.countP fun x =>
           (s.time.seconds + 4294967296 - x) % 4294967296 ≤ (s.crusher u).reliefWindow
       aborts (.pressureArrival u loop) .abortedRelief fun l =>
         l = (told .abortedRelief
           (if (s.crusher u).reliefCount ≤ within ∨ (s.supervisor u).reliefLatch ≠ .clear then
             s.conditions.onset .repeatedRelief (.crusher u) none s.stamp
           else s.conditions)).onset .relief (.crusher u) none s.stamp) ∧
     ((s.inputs.running.get u).due = true → (s.inputs.running.get u).raw = false →
       aborts (.digitalChange (.running u)) .abortedStopped fun l => l = told .abortedStopped s.conditions) ∧
     (∀ loop, s.sequencer.state = .approach →
       (s.crusher u).emptyPower < (analogOf loop (s.crusher u).powerSpan).scaled →
       aborts (.powerArrival u loop) .abortedLoaded fun l =>
         (s.supervisor u).overload = false → (s.supervisor u).tripCause = false →
         (analogOf loop (s.crusher u).powerSpan).scaled < (s.crusher u).tripLevel →
         l = told .abortedLoaded s.conditions) ∧
     ∀ reading : Option (BitVec 16),
       (∀ r, reading = some r → r.toNat < (s.crusher u).posLow ∨ (s.crusher u).posHigh < r.toNat) →
       aborts (.positionArrival u reading) .abortedPosition fun l =>
         l = if (s.gap u).faultStanding then told .abortedPosition s.conditions
           else (told .abortedPosition s.conditions).onset .positionFault (.crusher u) none s.stamp) ∧
  (∀ (u : Train) (tag : Byte) (s : State), s.takesOn .sv → s.present u = true →
     s.sequencer.subject = some u →
     ∃ t, exec (.abortZero .sv tag (byteOf (crusherOf u).number)) s = .next t ∧
       s.repliedBy t .sv tag .abortZero (Answer.done []) ∧ s.othersKept t u ∧
       t = { s with
             positioners := t.positioners, sequencer := t.sequencer, zeros := t.zeros,
             governors := t.governors, conditions := t.conditions, store := t.store, links := t.links } ∧
       t.conditions =
         (s.conditions.onset .zeroAborted (.crusher u) (some (.result .abortedRequest)) s.stamp).causeEnded
           .zeroAborted (.crusher u))

/-- A wear step adds 1 to the tenth-hours and WEAR_RATE to W, each held at its largest value, and returns the
loaded time to 0; the tenth step marks WEAR dirty, and WEAR_LIMIT is reported when W reaches it. -/
def Obligations.WearStepAddsWear : Prop :=
  ∀ (u : Train) (s : State), s.powered = true → 360000 ≤ (s.gap u).loadedTime →
    ∃ t, exec (.wearStep u) s = .next t ∧
      t = { s with gaps := t.gaps, store := t.store, conditions := t.conditions } ∧ s.othersKept t u ∧
      t.gap u =
        { s.gap u with
          loadedTime := 0
          tenths := min ((s.gap u).tenths + 1) 999999
          wear := min ((s.gap u).wear + (s.crusher u).wearRate) 65535
          wearSteps := if (s.gap u).wearSteps < 9 then (s.gap u).wearSteps + 1 else 0 } ∧
      ((s.gap u).wearSteps < 9 → t.store = s.store) ∧
      (9 ≤ (s.gap u).wearSteps →
        t.store.dirty.wear = true ∨ t.store.writing.map WriteJob.sec = some .wear) ∧
      ((s.gap u).wear ≤ 65535 →
        t.conditions =
          if (s.gap u).wear < (s.crusher u).wearLimit * 100 ∧
              (s.crusher u).wearLimit * 100 ≤ min ((s.gap u).wear + (s.crusher u).wearRate) 65535 then
            s.conditions.onset .wearLimit (.crusher u) none s.stamp
          else s.conditions)

/-- At the update timer's expiry a RUNNING Governor trims against the power of its crusher unless it stands or
is capped, forms D as B + X within RATE_MIN to RATE_MAX (train 0 capped at SLOW_RATE from SURGE_SLOW up), and
ramps C toward D; HELD and STOPPED only start the timer again. That the SURGE_SLOW in force at the update serves, also
where no level reading has arrived since it was written, is the model's choice, log 28. -/
def Obligations.UpdateTrimsAndRamps : Prop :=
  ∀ (u : Train) (s : State), s.powered = true →
    (s.governor u).updateTimer.length ≤ elapsed s.now (s.governor u).updateTimer.start →
    let g := s.governor u
    let p := s.feeder u
    let again : Timer := ⟨s.now, p.updateInterval⟩
    let within (x : Int) : Int := min (max ((g.base : Int) + x) p.rateMin) p.rateMax
    let capped := u = .t0 ∧ ∃ a, s.inputs.surge = some a ∧ s.line.surgeSlow ≤ a.scaled
    let bound := capped ∧ (p.slowRate : Int) < within g.trim
    ((g.holds.isEmpty = false ∨ g.base = 0) →
      exec (.updateExpiry u) s = .next (s.modGovernor u fun g => { g with updateTimer := again })) ∧
    (g.holds.isEmpty = true → 0 < g.base →
      ∃ t, exec (.updateExpiry u) s = .next t ∧ t = { s with governors := t.governors } ∧
        s.othersKept t u ∧
        t.governor u =
          { g with
            trim := (t.governor u).trim, demand := (t.governor u).demand,
            command := (t.governor u).command, capBound := (t.governor u).capBound,
            updateTimer := again } ∧
        ((t.governor u).capBound = true ↔ bound) ∧
        (g.command = 0 ∨ bound ∨ s.inputs.power.get u = none → (t.governor u).trim = g.trim) ∧
        (∀ a, 0 < g.command → ¬bound → s.inputs.power.get u = some a →
          (t.governor u).trim =
            if p.loadTarget + p.loadBand < a.scaled then
              max (g.trim - p.trimDown) (-(p.trimLimit : Int))
            else if a.scaled + p.loadBand < p.loadTarget then min (g.trim + p.trimUp) p.trimLimit
            else g.trim) ∧
        (¬capped → ((t.governor u).demand : Int) = within (t.governor u).trim) ∧
        (capped → ((t.governor u).demand : Int) = min (within (t.governor u).trim) p.slowRate) ∧
        (t.governor u).command =
          (if g.command < (t.governor u).demand then min (t.governor u).demand (g.command + p.rampUp)
          else if (t.governor u).demand < g.command then max (t.governor u).demand (g.command - p.rampDown)
          else g.command))

/-! ### Requests of stations and settings -/

/-- A SET GAP, SET RATE, WITHDRAW, SET MODE, JOG, START ZERO or ABORT ZERO of a station above 7 or of an absent one is
refused BAD_STATION, and a READ STATION or READ ZERO RECORD of a station above 7; one of them that names a station of
the other role is refused WRONG_KIND. A JOG of a touch's subject is refused BUSY, and one of a
crusher out of MAINTENANCE, in FAULT or under ESTOP or RELIEF WRONG_MODE. A START ZERO while a touch runs is refused
BUSY, and where one of its conditions fails WRONG_MODE: that an input not yet sampled finds the crusher not running,
and the E-stop RELEASED, is the model's choice, log 6. An ABORT ZERO of a crusher that is no subject is refused
WRONG_MODE. An ACKNOWLEDGE whose subject is of another kind than its code's is refused WRONG_KIND, and of a crusher's
code a station above 7 BAD_STATION and a feeder WRONG_KIND. SET PARAMETER and READ PARAMETER are refused by
their checks in the order of chapter 1: BAD_STATION, WRONG_KIND, FORMAT, WRONG_MODE for a station in RUN or,
of the line's set, any present one, and BUSY. Nothing changes but the reply. -/
def Obligations.StationAndParameterChecksRefuse : Prop :=
  (∀ (l : Link) (tag b priority direction : Byte) (value keep wait duty duration : Half) (s : State),
     s.takesOn l → settingFieldsOk priority wait = true → jogFieldsOk direction duration = true →
     let refused (c : Instr) (kind : Kind) (status : Status) : Prop :=
       exec c s = .next (s.answered l tag kind.code (Answer.refuse status))
     ((7 < b.toNat ∨ ∃ st : Station, b.toNat = st.number ∧ s.present st.train = false) →
       refused (.setGap l tag b value priority keep wait) .setGap .badStation ∧
       refused (.setRate l tag b value priority keep wait) .setRate .badStation ∧
       refused (.withdraw l tag b) .withdraw .badStation ∧
       (l ≠ .lc → ∀ mode : Byte, mode.toNat ≤ 2 → refused (.setMode l tag b mode) .setMode .badStation) ∧
       (l = .sv → refused (.jog l tag b direction duty duration) .jog .badStation ∧
         refused (.startZero l tag b) .startZero .badStation ∧
         refused (.abortZero l tag b) .abortZero .badStation)) ∧
     (7 < b.toNat →
       refused (.readStation l tag b) .readStation .badStation ∧
       refused (.readZeroRecord l tag b) .readZeroRecord .badStation) ∧
     (∀ u, b.toNat = (feederOf u).number →
       refused (.readZeroRecord l tag b) .readZeroRecord .wrongKind ∧
       (s.present u = true →
         refused (.setGap l tag b value priority keep wait) .setGap .wrongKind ∧
         (l = .sv → refused (.jog l tag b direction duty duration) .jog .wrongKind ∧
           refused (.startZero l tag b) .startZero .wrongKind ∧
           refused (.abortZero l tag b) .abortZero .wrongKind))) ∧
     (∀ u, b.toNat = (crusherOf u).number → s.present u = true →
       refused (.setRate l tag b value priority keep wait) .setRate .wrongKind ∧
       (l = .sv →
         (s.isSubject u = true → refused (.jog l tag b direction duty duration) .jog .busy) ∧
         (s.isSubject u = false →
           (s.station (crusherOf u)).mode ≠ .maintenance ∨ (s.positioner u).state = .fault ∨
             (s.positioner u).reasons.estop = true ∨ (s.positioner u).reasons.relief = true →
           refused (.jog l tag b direction duty duration) .jog .wrongMode) ∧
         (s.sequencer.state ≠ .idle → refused (.startZero l tag b) .startZero .busy) ∧
         (s.sequencer.state = .idle →
           (s.station (crusherOf u)).mode ≠ .maintenance ∨ (s.positioner u).state = .fault ∨
             s.estopAsserted = true ∨ (s.supervisor u).relief ≠ .normal ∨ (s.gap u).validity ≠ .valid ∨
             (s.inputs.running.get u).level ≠ some true ∨
             (∀ a, s.inputs.power.get u = some a → (s.crusher u).emptyPower < a.scaled) →
           refused (.startZero l tag b) .startZero .wrongMode) ∧
         (s.isSubject u = false → refused (.abortZero l tag b) .abortZero .wrongMode))) ∧
     (l ≠ .lc → ∀ (code : Code) (field : Byte),
       let f := field.toNat
       let ack : Instr := .acknowledge l tag (byteOf code.number) field
       (∀ kind : SubjectKind,
         (kind = .none ∧ f = 255 ∨ kind = .crusher ∧ f ≤ 63 ∨ kind = .link ∧ 64 ≤ f ∧ f ≤ 66 ∨
           kind = .storeSection ∧ 128 ≤ f ∧ f ≤ 130) →
         kind ≠ code.subjectKind → refused ack .acknowledge .wrongKind) ∧
       (code.subjectKind = .crusher →
         (8 ≤ f → f ≤ 63 → refused ack .acknowledge .badStation) ∧
         ∀ u, f = (feederOf u).number → refused ack .acknowledge .wrongKind))) ∧
  (∀ (tag b number : Byte) (value : Half) (s : State), s.takesOn .sv →
     let refused (status : Status) : Prop :=
       exec (.setParameter .sv tag b number value) s = .next (s.answered .sv tag 0x05#8 (Answer.refuse status))
     let unread (status : Status) : Prop :=
       exec (.readParameter .sv tag b number) s = .next (s.answered .sv tag 0x13#8 (Answer.refuse status))
     (7 < b.toNat → b.toNat < 255 → refused .badStation ∧ unread .badStation) ∧
     (∀ count, (b.toNat = 255 ∧ count = 5) ∨ (∃ u, b.toNat = (feederOf u).number ∧ count = 14) ∨
         (∃ u, b.toNat = (crusherOf u).number ∧ count = 41) →
       number.toNat = 0 ∨ count < number.toNat → refused .wrongKind ∧ unread .wrongKind) ∧
     ∀ set p, ParamSet.ofByte b = some set → set.param number.toNat = some p →
       (∀ k, p.range = .named k → k ≤ value.toNat → refused .format) ∧
       ((∀ k, p.range = .named k → value.toNat < k) →
         ((∀ st, set = .station st → (s.station st).mode = .run → refused .wrongMode) ∧
           (∀ st : Station, set = .line → s.present st.train = true → (s.station st).mode = .run →
             refused .wrongMode) ∧
           (∀ u, set = .station (crusherOf u) → (s.station (crusherOf u)).mode ≠ .run →
             s.isSubject u = true → refused .busy) ∧
           ∀ u, p = .line .trainsPresent →
             (∀ st : Station, s.present st.train = true → (s.station st).mode ≠ .run) →
             s.sequencer.subject = some u → (trainSetOf value.toNat).get u = false → refused .busy)))

/-- A setting request that passes its checks takes the counter's number and frees its link's slot for the
station. At an accepting station it is applied if it outranks the standing setting; otherwise it takes the
lowest free slot, or with no wait is refused OUTRANKED or NOT_ACCEPTING. The reply carries the value and
priority as bounded. -/
def Obligations.SettingRequestIsDecided : Prop :=
  ∀ (l : Link) (tag b priority : Byte) (value keep wait : Half) (st : Station) (s : State),
    s.takesOn l → priority.toNat ≤ 15 → wait.toNat ≤ 3600 → b.toNat = st.number →
    s.present st.train = true → (s.authority st).has l = true → (s.station st).standing.keep ≠ some 0 →
    s.board.counter < 4294967295 →
    let p := s.crusher st.train
    let f := s.feeder st.train
    let c : Instr := match st.role with
      | .crusher => .setGap l tag b value priority keep wait
      | .feeder => .setRate l tag b value priority keep wait
    let kind : Kind := match st.role with
      | .crusher => .setGap
      | .feeder => .setRate
    let bounded : Nat := match st.role with
      | .crusher => min (max value.toNat p.gapMin) p.gapMax
      | .feeder => if value.toNat = 0 then 0 else min (max value.toNat f.rateMin) f.rateMax
    let taken : Nat := if l = .lc then min priority.toNat 7 else priority.toNat
    let kept : Option Nat := if keep.toNat = 0 then none else some keep.toNat
    let number := s.board.counter
    let mine (o : Option Slot) : Bool := o.any fun r => r.source = l && r.station = st
    let freed : List (Option Slot) := s.board.slots.map fun o => if mine o then none else o
    let board : Board := ⟨freed, number + 1⟩
    let answer (status : Status) (slot : Byte) : Answer :=
      ⟨status,
        ⟨decide (bounded ≠ value.toNat), decide (taken ≠ priority.toNat), s.board.slots.any mine, false, false⟩,
        halfBytes (BitVec.ofNat 16 bounded) ++ [byteOf taken] ++ wordBytes (BitVec.ofNat 32 number) ++ [slot]⟩
    let outranks : Prop := (s.station st).standing.priority < taken ∨
      (s.station st).standing.priority = taken ∧
        ∀ k g n, (s.station st).standing.origin = .request k g n → n < number
    (s.accepting st = true → (s.station st).lastAccepting = true → outranks →
      ∃ t, exec c s = .next t ∧ s.repliedBy t l tag kind (answer .applied 0xFF#8) ∧ t.board = board ∧
        (t.station st).standing = ⟨bounded, taken, .request l tag number, kept⟩ ∧
        (t.station st).lastApplied = some ⟨l, tag⟩ ∧ (t.station st).mode = (s.station st).mode ∧
        t.store = s.store ∧ t.zeros = s.zeros ∧ t.gaps = s.gaps ∧ t.sequencer = s.sequencer ∧
        s.workOf { t with links := s.links } st.train) ∧
    (s.accepting st = true → ¬outranks → wait.toNat = 0 →
      exec c s = .next ((s.withBoard board).answered l tag kind.code (answer .outranked 0xFF#8))) ∧
    (s.accepting st = false → wait.toNat = 0 →
      exec c s = .next ((s.withBoard board).answered l tag kind.code (answer .notAccepting 0xFF#8))) ∧
    ∀ i, (s.accepting st = false ∨ ¬outranks) → 0 < wait.toNat → freed[i]? = some none →
      (∀ j, j < i → freed[j]? ≠ some none) →
      exec c s =
        .next
          ((s.withBoard
              { board with
                slots := freed.set i (some ⟨st, bounded, taken, l, tag, number, kept, wait.toNat⟩) }).answered
            l tag kind.code (answer .waiting (byteOf i)))

/-- A request given the largest number brings a renumbering once it is decided, refused, placed or applied: every
live number, the request's own among them where it was placed or applied, is replaced by its place among them, and the
counter takes their count and 1. Nothing else of a slot or a standing setting changes by it. The reply carries the
number given, log 15. -/
def Obligations.LargestNumberRenumbers : Prop :=
  ∀ (l : Link) (tag b priority : Byte) (value keep wait : Half) (st : Station) (s : State),
    s.takesOn l → priority.toNat ≤ 15 → wait.toNat ≤ 3600 → b.toNat = st.number →
    s.present st.train = true → (s.authority st).has l = true → (s.station st).standing.keep ≠ some 0 →
    s.board.counter = 4294967295 →
    let c : Instr := match st.role with
      | .crusher => .setGap l tag b value priority keep wait
      | .feeder => .setRate l tag b value priority keep wait
    let kind : Kind := match st.role with
      | .crusher => .setGap
      | .feeder => .setRate
    let bounded := s.limited st value.toNat
    let taken : Nat := if l = .lc then min priority.toNat 7 else priority.toNat
    let kept : Option Nat := if keep.toNat = 0 then none else some keep.toNat
    let mine (o : Option Slot) : Bool := o.any fun r => r.source = l && r.station = st
    let freed : List (Option Slot) := s.board.slots.map fun o => if mine o then none else o
    let answer (status : Status) (slot : Byte) : Answer :=
      ⟨status,
        ⟨decide (bounded ≠ value.toNat), decide (taken ≠ priority.toNat), s.board.slots.any mine, false, false⟩,
        halfBytes (BitVec.ofNat 16 bounded) ++ [byteOf taken] ++ wordBytes 0xFFFFFFFF#32 ++ [slot]⟩
    let outranks : Prop := (s.station st).standing.priority < taken ∨
      (s.station st).standing.priority = taken ∧
        ∀ k g n, (s.station st).standing.origin = .request k g n → n < 4294967295
    let renumbered (slots : List (Option Slot)) (standing : Station → Standing) (t : State) : Prop :=
      let live : List Nat :=
        (slots.filterMap fun o => o.map Slot.sequence) ++
          Station.all.filterMap fun x =>
            match (standing x).origin with
            | .start => none
            | .request _ _ n => some n
      let place (n : Nat) : Nat := live.countP (fun m => decide (m < n)) + 1
      t.board = ⟨slots.map (fun o => o.map fun r => { r with sequence := place r.sequence }),
        live.length + 1⟩ ∧
      ∀ x, (t.station x).standing =
        { standing x with
          origin := match (standing x).origin with
            | .start => .start
            | .request k g n => .request k g (place n) }
    let others (t : State) : Prop :=
      t = { s with board := t.board, feeders := t.feeders, crushers := t.crushers, links := t.links } ∧
      ∀ x, t.station x = { s.station x with standing := (t.station x).standing }
    let as (x : Station) : Standing := (s.station x).standing
    (s.accepting st = false ∨ ¬outranks → wait.toNat = 0 →
      ∃ t, exec c s = .next t ∧ others t ∧ renumbered freed as t ∧
        s.repliedBy t l tag kind
          (answer (if s.accepting st then .outranked else .notAccepting) 0xFF#8)) ∧
    (∀ i, (s.accepting st = false ∨ ¬outranks) → 0 < wait.toNat → freed[i]? = some none →
      (∀ j, j < i → freed[j]? ≠ some none) →
      ∃ t, exec c s = .next t ∧ others t ∧
        renumbered (freed.set i (some ⟨st, bounded, taken, l, tag, 4294967295, kept, wait.toNat⟩)) as t ∧
        s.repliedBy t l tag kind (answer .waiting (byteOf i))) ∧
    (s.accepting st = true → (s.station st).lastAccepting = true → outranks →
      ∃ t, exec c s = .next t ∧
        renumbered freed
          (fun x => if x = st then ⟨bounded, taken, .request l tag 4294967295, kept⟩ else as x) t ∧
        (t.station st).lastApplied = some ⟨l, tag⟩ ∧ t.store = s.store ∧ t.zeros = s.zeros ∧
        t.gaps = s.gaps ∧ t.inputs = s.inputs ∧
        s.repliedBy t l tag kind (answer .applied 0xFF#8))

/-- WITHDRAW frees its link's slot for the station and, where the standing setting is its link's, takes its
priority and keep away and, at an accepting station, applies the best of the other slots that outranks it. The
reply tells which of the two it found. -/
def Obligations.WithdrawFreesAndReleases : Prop :=
  ∀ (l : Link) (tag b : Byte) (st : Station) (s : State), s.takesOn l → b.toNat = st.number →
    s.present st.train = true →
    let mine (o : Option Slot) : Bool := o.any fun r => r.source = l && r.station = st
    let freed : State :=
      s.withBoard { s.board with slots := s.board.slots.map fun o => if mine o then none else o }
    let released : State :=
      freed.modStation st fun r => { r with standing := { r.standing with priority := 0, keep := none } }
    let answer (standing : Bool) : Answer :=
      ⟨.done, ⟨false, false, false, s.board.slots.any mine, standing⟩, []⟩
    ((∀ g n, (s.station st).standing.origin ≠ .request l g n) →
      exec (.withdraw l tag b) s = .next (freed.answered l tag 0x03#8 (answer false))) ∧
    (∀ g n, (s.station st).standing.origin = .request l g n →
      (s.accepting st = false ∨ ∀ r, some r ∈ freed.board.slots → r.station ≠ st) →
      exec (.withdraw l tag b) s = .next (released.answered l tag 0x03#8 (answer true))) ∧
    ∀ g n i r, (s.station st).standing.origin = .request l g n → s.accepting st = true →
      (s.station st).lastAccepting = true → freed.board.slots[i]? = some (some r) → r.station = st →
      (∀ j q, freed.board.slots[j]? = some (some q) → q.station = st → j ≠ i →
        q.priority < r.priority ∨ q.priority = r.priority ∧ q.sequence < r.sequence) →
      (0 < r.priority ∨ n < r.sequence) →
      ∃ t, exec (.withdraw l tag b) s = .next t ∧ s.repliedBy t l tag .withdraw (answer true) ∧
        s.workOf { t with links := s.links } st.train ∧
        t.board = { freed.board with slots := freed.board.slots.set i none } ∧
        (t.station st).standing =
          ⟨s.limited st r.value, r.priority, .request r.source r.tag r.sequence, r.keep⟩ ∧
        (t.station st).lastApplied = some ⟨r.source, r.tag⟩

/-- SET MODE out of OUT_OF_SERVICE to RUN is refused WRONG_MODE, of the subject of a touch BUSY. Any other takes
the mode and is answered DONE: out of RUN the station stops accepting and its train's feeder holds MODE;
OUT_OF_SERVICE frees the station's slots; into RUN hold MODE goes if the train's other station is in RUN; and a
feeder's best waiting request is applied. A crusher out of RUN suspends its Positioner under reason MODE: where no
reason was held, IDLE is SUSPENDED, DRAINING loses its drain timer, DRIVING its drive with the last drive end written,
and DEAD_TIME its pending drive, the move kept; in FAULT, or under another reason, the reason alone is added. A running
jog ends with the change, its drive off, SUSPENDED under a reason that is held. The mode a station has changes
nothing. -/
def Obligations.SetModeTakesTheMode : Prop :=
  ∀ (l : Link) (tag b m : Byte) (st : Station) (mode : Mode) (s : State), s.takesOn l → l ≠ .lc →
    b.toNat = st.number → s.present st.train = true →
    m.toNat = (match mode with | .run => 0 | .maintenance => 1 | .outOfService => 2) →
    let busy := st.role = .crusher ∧ s.isSubject st.train = true
    let barred := (s.station st).mode = .outOfService ∧ mode = .run
    let other := match st.role with
      | .feeder => crusherOf st.train
      | .crusher => feederOf st.train
    let freed := s.board.slots.map fun o => if o.any fun r => r.station = st then none else o
    (busy → exec (.setMode l tag b m) s = .next (s.answered l tag 0x04#8 (Answer.refuse .busy))) ∧
    (¬busy → barred →
      exec (.setMode l tag b m) s = .next (s.answered l tag 0x04#8 (Answer.refuse .wrongMode))) ∧
    (¬busy → (s.station st).mode = mode → mode ≠ .outOfService →
      exec (.setMode l tag b m) s = .next (s.answered l tag 0x04#8 (Answer.done []))) ∧
    (¬busy → (s.station st).mode = .outOfService → mode = .outOfService →
      exec (.setMode l tag b m) s =
        .next ((s.withBoard { s.board with slots := freed }).answered l tag 0x04#8 (Answer.done []))) ∧
    (¬busy → ¬barred → (s.station st).mode ≠ mode →
      ∃ t, exec (.setMode l tag b m) s = .next t ∧ s.repliedBy t l tag .setMode (Answer.done []) ∧
        s.workOf { t with links := s.links } st.train ∧ t.store = s.store ∧ t.zeros = s.zeros ∧
        t.gaps = s.gaps ∧ t.sequencer = s.sequencer ∧ (t.station st).mode = mode ∧
        (t.station other).mode = (s.station other).mode ∧
        (t.station other).standing = (s.station other).standing ∧
        (st.role = .feeder → t.positioners = s.positioners) ∧
        (st.role = .crusher →
          let q := s.positioner st.train
          let held (p : Positioner) : Positioner := { p with reasons := { p.reasons with mode := true } }
          let free := q.reasons.isEmpty = true
          (t.positioner st.train).reasons.mode = decide (mode ≠ .run) ∧
          (mode ≠ .run →
            (q.state ≠ .jogging →
              t.governor st.train = (s.governor st.train).hold .mode ∧ t.conditions = s.conditions) ∧
            (free → q.state = .idle → t.positioner st.train = held { q with state := .suspended }) ∧
            (free → q.state = .draining →
              t.positioner st.train = held { q with state := .suspended, drainTimer := none }) ∧
            (∀ d, free → q.state = .driving → q.drive = some d →
              t.positioner st.train =
                held { q with
                  state := .suspended
                  drive := none
                  lastEnd := ⟨s.now, some d.direction⟩
                  valve := ⟨0, 0⟩
                  moveTimer := none }) ∧
            (free → q.state = .deadTime →
              t.positioner st.train =
                held { q with state := .suspended, pendingDrive := none, moveTimer := none }) ∧
            (q.state ≠ .jogging →
              ¬free ∨ q.state = .suspended ∨ q.state = .fault ∨ q.state = .lent →
              t.positioner st.train = held q)) ∧
          (q.state = .jogging → q.reasons.mode = true →
            mode ≠ .run ∨ ({ q.reasons with mode := false } : Reasons).isEmpty = false →
            t.positioner st.train =
              { q with
                state := .suspended
                reasons := { q.reasons with mode := decide (mode ≠ .run) }
                drive := none
                pendingDrive := none
                lastEnd := match q.drive with | none => q.lastEnd | some d => ⟨s.now, some d.direction⟩
                valve := match q.drive with | none => q.valve | some _ => ⟨0, 0⟩
                jog := none })) ∧
        (mode ≠ .run →
          (t.governor st.train).holds.mode = true ∧ t.accepting st = false ∧
            (t.station st).standing = (s.station st).standing ∧
            (t.station st).lastApplied = (s.station st).lastApplied ∧
            t.board = if mode = .outOfService then { s.board with slots := freed } else s.board) ∧
        (mode = .run →
          (t.governor st.train).holds.mode = decide ((s.station other).mode ≠ .run) ∧
            ((∀ r, some r ∈ s.board.slots → r.station ≠ st) →
              t.board = s.board ∧ (t.station st).standing = (s.station st).standing) ∧
            ∀ i r, st.role = .feeder → (s.station st).lastAccepting = false →
              s.board.slots[i]? = some (some r) → r.station = st →
              (∀ j q, s.board.slots[j]? = some (some q) → q.station = st → j ≠ i →
                q.priority < r.priority ∨ q.priority = r.priority ∧ q.sequence < r.sequence) →
              ((s.station st).standing.priority < r.priority ∨
                (s.station st).standing.priority = r.priority ∧
                  ∀ k g n, (s.station st).standing.origin = .request k g n → n < r.sequence) →
              t.board = { s.board with slots := s.board.slots.set i none } ∧
                (t.station st).standing =
                  ⟨s.limited st r.value, r.priority, .request r.source r.tag r.sequence, r.keep⟩))

/-! ### Parameters -/

/-- A SET PARAMETER that passes its checks stores a named value as sent, and of a number the value nearest to it
within the parameter's range and its ordering bounds, and is answered DONE with the value stored. No other
parameter changes. A standing target is brought within limits just written, and nothing else of the setting
changes. A WEAR_LIMIT written is judged at once: its condition begins where W now stands at 100 times it or above and
did not before, and ends where it did and no longer does. -/
def Obligations.SetParameterStoresTheNearestValue : Prop :=
  ∀ (tag b number : Byte) (value : Half) (set : ParamSet) (p : Param) (s : State), s.takesOn .sv → s.paramsOk →
    ParamSet.ofByte b = some set → set.param number.toNat = some p → p.range.defined value.toNat = true →
    s.paramModeOk p = true → s.paramBusy p value.toNat = false →
    (p = .line .trainsPresent → ∀ u, s.sequencer.subject = some u → s.present u = true) →
    ∃ t v, exec (.setParameter .sv tag b number value) s = .next t ∧
      s.repliedBy t .sv tag .setParameter
        ⟨.done, ⟨decide (v ≠ value.toNat), false, false, false, false⟩, halfBytes (BitVec.ofNat 16 v)⟩ ∧
      t.paramValue p = v ∧ (∀ q, q ≠ p → t.paramValue q = s.paramValue q) ∧
      t.store = s.store ∧ t.time = s.time ∧ t.inputs = s.inputs ∧
      (∀ k, p.range = .named k → v = value.toNat) ∧
      (∀ lo hi, p.range = .numeric lo hi →
        let allowed (w : Nat) : Prop :=
          lo ≤ w ∧ w ≤ hi ∧ ∀ least most, s.paramBounds p = some (least, most) → least ≤ w ∧ w ≤ most
        allowed v ∧ ∀ w, allowed w →
          ((v : Int) - value.toNat).natAbs ≤ ((w : Int) - value.toNat).natAbs) ∧
      (∀ u, p = .crusher u .wearLimit →
        let stands (limit : Nat) : Bool := limit * 100 ≤ (s.gap u).wear
        t.conditions =
          if stands v && !stands (s.crusher u).wearLimit then
            s.conditions.onset .wearLimit (.crusher u) none s.stamp
          else if !stands v && stands (s.crusher u).wearLimit then
            s.conditions.causeEnded .wearLimit (.crusher u)
          else s.conditions) ∧
      (p ≠ .line .trainsPresent →
        t.board = s.board ∧ t.zeros = s.zeros ∧ t.gaps = s.gaps ∧ t.sequencer = s.sequencer ∧
        ∀ st : Station,
          let limit : Prop := match p with
            | .crusher u n => st = crusherOf u ∧ (n = .gapMin ∨ n = .gapMax)
            | .feeder u n => st = feederOf u ∧ (n = .rateMin ∨ n = .rateMax)
            | .line _ => False
          (¬limit → t.station st = s.station st) ∧
          (limit →
            (t.station st).standing =
              { (s.station st).standing with target := t.limited st (s.station st).standing.target } ∧
            (t.station st).mode = (s.station st).mode ∧
            (t.station st).lastApplied = (s.station st).lastApplied))

/-- A write of TRAINS_PRESENT that leaves out a present train, while none is added, makes it absent: both
stations are OUT_OF_SERVICE with no slot waiting and their settings kept, its position is not valid, its episodes
and the causes of their conditions end, and zero, wear and parameters stay. A trip latch that is SET stays SET and one
in SET_ACKNOWLEDGED whose cause ends is cleared, which follows section 7.6 where 1.6 differs, log 23; FAULT stays. A
write that adds an absent train, while none is left out, makes it present: both stations are in MAINTENANCE under MODE
with START settings and no last-applied record, its position is NOT_VALID with its first reading still to come, its
inputs are judged, and ZERO_UNSET is reported where its zero is not valid, after what the inputs bring, log 16. Trains
that stay as they were keep their records. -/
def Obligations.TrainsPresentWriteTakesEffect : Prop :=
  (∀ (tag : Byte) (value : Half) (u : Train) (s : State), s.takesOn .sv → value.toNat < 16 →
      (∀ st : Station, s.present st.train = true → (s.station st).mode ≠ .run) →
      (∀ v, s.sequencer.subject = some v → (trainSetOf value.toNat).get v = true) →
      s.present u = true → (trainSetOf value.toNat) = s.line.trainsPresent.set u false →
      ∃ t, exec (.setParameter .sv tag 0xFF#8 5#8 value) s = .next t ∧
        s.repliedBy t .sv tag .setParameter ⟨.done, ⟨false, false, false, false, false⟩, halfBytes value⟩ ∧
        s.othersKept t u ∧ t.present u = false ∧ (∀ v, v ≠ u → t.present v = s.present v) ∧
        (∀ st : Station, st.train = u →
          (t.station st).mode = .outOfService ∧ (t.station st).standing = (s.station st).standing ∧
            t.accepting st = false) ∧
        t.board.slots =
          s.board.slots.map (fun o => if o.any fun r => r.station.train = u then none else o) ∧
        (t.gap u).validity = .notValid ∧ (t.gap u).gap = none ∧ (t.gap u).faultStanding = false ∧
        (t.gap u).wear = (s.gap u).wear ∧ (t.gap u).tenths = (s.gap u).tenths ∧ t.zeros = s.zeros ∧
        (t.positioner u).reasons.position = true ∧
        ((s.station (crusherOf u)).mode = .maintenance →
          (t.positioner u).reasons.mode = true ∧ (t.governor u).holds.mode = true) ∧
        (t.positioner u).reasons.relief = false ∧ (t.supervisor u).relief = .normal ∧
        (t.supervisor u).clearingTimer = none ∧ (t.supervisor u).overload = false ∧
        (t.supervisor u).tripCause = false ∧ (t.governor u).holds.level = false ∧
        ((s.supervisor u).overload = true → (t.governor u).holds.overload = false) ∧
        (t.governor u).holds.relief = false ∧ t.crusherParams = s.crusherParams ∧
        t.feederParams = s.feederParams ∧ t.store = s.store ∧ t.time = s.time ∧ t.inputs = s.inputs ∧
        (let before := s.supervisor u
         let cleared (latch : Latch) (cause : Bool) : Latch :=
           if latch = .setAcknowledged && cause then .clear else latch
         (t.supervisor u).reliefLatch =
             cleared before.reliefLatch (before.relief = .relieving || before.relief = .clearing) ∧
         (t.supervisor u).powerLatch = cleared before.powerLatch before.tripCause ∧
         (t.governor u).holds.trip =
           (if (t.supervisor u).reliefLatch = before.reliefLatch ∧
               (t.supervisor u).powerLatch = before.powerLatch then
             (s.governor u).holds.trip
           else
             decide ((t.supervisor u).reliefLatch ≠ .clear ∨ (t.supervisor u).powerLatch ≠ .clear)) ∧
         (before.relief ≠ .normal → t.conditions.listed .relief (.crusher u) = false) ∧
         (before.overload = true → t.conditions.listed .overload (.crusher u) = false) ∧
         (∀ e ∈ t.conditions.entries, e.name = (.repeatedRelief, .crusher u) →
           before.reliefLatch ≠ .clear → before.relief = .relieving ∨ before.relief = .clearing →
           e.active = false) ∧
         ∀ e ∈ t.conditions.entries, e.name = (.powerTrip, .crusher u) →
           before.powerLatch ≠ .clear → before.tripCause = true → e.active = false) ∧
        ((s.gap u).faultStanding = true → t.conditions.listed .positionFault (.crusher u) = false) ∧
        ((s.zero u).valid = false → t.conditions.listed .zeroUnset (.crusher u) = false) ∧
        (u = .t0 → (s.governor u).holds.level = true → t.conditions.listed .surgeHigh .line = false) ∧
        (u ≠ .t0 → (s.governor u).holds.level = true →
          (∀ v, v ≠ .t0 → v ≠ u → (s.governor v).holds.level = false) →
          t.conditions.listed .surgeLow .line = false) ∧
        ((s.positioner u).state = .fault → (t.positioner u).state = .fault)) ∧
  ∀ (tag : Byte) (value : Half) (u : Train) (s : State), s.takesOn .sv → value.toNat < 16 →
    (∀ st : Station, s.present st.train = true → (s.station st).mode ≠ .run) →
    (∀ v, s.sequencer.subject = some v → s.present v = true) →
    s.present u = false → (trainSetOf value.toNat) = s.line.trainsPresent.set u true →
    (∀ st : Station, st.train = u → (s.station st).mode = .outOfService) →
    (s.positioner u).state = .suspended ∨ (s.positioner u).state = .fault →
    ∃ t, exec (.setParameter .sv tag 0xFF#8 5#8 value) s = .next t ∧
      s.repliedBy t .sv tag .setParameter ⟨.done, ⟨false, false, false, false, false⟩, halfBytes value⟩ ∧
      s.othersKept t u ∧ t.present u = true ∧ (∀ v, v ≠ u → t.present v = s.present v) ∧
      t.station (feederOf u) = ⟨.maintenance, Standing.start 0, none, false⟩ ∧
      t.station (crusherOf u) = ⟨.maintenance, Standing.start (s.crusher u).gapMax, none, false⟩ ∧
      t.gap u =
        { s.gap u with
          validity := .notValid, recovery := none, gap := none, faultStanding := false
          firstReadingDue := true } ∧
      t.zeros = s.zeros ∧ t.crusherParams = s.crusherParams ∧ t.feederParams = s.feederParams ∧
      t.store = s.store ∧ t.time = s.time ∧ t.inputs = s.inputs ∧ t.sequencer = s.sequencer ∧
      (t.governor u).holds.mode = true ∧ (s.basesFollow → (t.governor u).base = 0) ∧
      (t.positioner u).state = (s.positioner u).state ∧ (t.positioner u).drive = (s.positioner u).drive ∧
      (t.positioner u).reasons.mode = true ∧
      (t.positioner u).reasons.position = (s.positioner u).reasons.position ∧
      (t.governor u).holds.crusherStopped =
        (match (s.inputs.running.get u).level with
        | none => (s.governor u).holds.crusherStopped
        | some running => !running) ∧
      (let unset (l : ConditionList) : ConditionList :=
         if (s.zero u).valid then l else l.onset .zeroUnset (.crusher u) none s.stamp
       let active : Option Bool :=
         match (s.crusher u).reliefSource with
         | .analog => none
         | .switch => (s.inputs.reliefSwitch.get u).level.map fun level => level != (s.crusher u).switchInvert
       (active = none ∨ active = some (s.supervisor u).detectorActive →
         t.conditions = unset s.conditions ∧ t.supervisor u = s.supervisor u) ∧
       (active = some true → (s.supervisor u).detectorActive = false →
         (t.supervisor u).relief = .relieving ∧ (t.governor u).holds.relief = true ∧
           (t.positioner u).reasons.relief = true ∧
           t.conditions =
             unset
               (if (t.supervisor u).reliefLatch = .clear then
                 s.conditions.onset .relief (.crusher u) none s.stamp
               else
                 (s.conditions.onset .repeatedRelief (.crusher u) none s.stamp).onset .relief (.crusher u)
                   none s.stamp)))

/-! ### Acknowledgements and reads -/

/-- ACKNOWLEDGE of a condition: its entry becomes acknowledged, its owner's latch takes the acknowledgement, and
a latched entry whose cause is inactive is removed. The reply says whether an entry was found and was removed. -/
def Obligations.AcknowledgeActsOnEntryAndLatch : Prop :=
  ∀ (l : Link) (tag b field : Byte) (code : Code) (sub : Subject) (s : State), s.takesOn l → l ≠ .lc →
    b.toNat = code.number → field.toNat = sub.code → s.conditions.lawful →
    (match code.subjectKind, sub with
      | .none, .line | .crusher, .crusher _ | .link, .link _ | .storeSection, .storeSection _ => True
      | _, _ => False) →
    (∀ u, sub = .crusher u → code = .moveTimeout → (s.positioner u).state ≠ .fault ∨
      (s.supervisor u).relief ≠ .restoring) →
    let taken (before : Latch) (active : Bool) : Latch :=
      if before = .set then (if active then .setAcknowledged else .clear) else before
    ∃ t found removed, exec (.acknowledge l tag b field) s = .next t ∧
      s.repliedBy t l tag .acknowledge
        (Answer.done [if found then 1#8 else 0#8, if removed then 1#8 else 0#8]) ∧
      (found = true ↔ ∃ e ∈ s.conditions.entries, e.code = code ∧ e.subject = sub) ∧
      (found = false → removed = false ∧ t.conditions = s.conditions) ∧
      t.conditions.lawful ∧ t.conditions.overflow = s.conditions.overflow ∧
      (∀ before e after, s.conditions.entries = before ++ e :: after → e.code = code → e.subject = sub →
        (removed = true ↔ code.latched = true ∧ e.active = false) ∧
        t.conditions.entries =
          before ++ (if removed then [] else [{ e with acknowledged := true }]) ++ after) ∧
      (code.latched = false → t = { s with conditions := t.conditions, links := t.links }) ∧
      ∀ u, sub = .crusher u →
        s.workOf { t with links := s.links } u ∧
        (t.supervisor u).history = (if code = .repeatedRelief then [] else (s.supervisor u).history) ∧
        (t.supervisor u).reliefLatch =
          (if code = .repeatedRelief then
            taken (s.supervisor u).reliefLatch
              ((s.supervisor u).relief = .relieving || (s.supervisor u).relief = .clearing)
          else (s.supervisor u).reliefLatch) ∧
        (t.supervisor u).powerLatch =
          (if code = .powerTrip then taken (s.supervisor u).powerLatch (s.supervisor u).tripCause
          else (s.supervisor u).powerLatch) ∧
        (code = .repeatedRelief ∨ code = .powerTrip →
          ((t.governor u).holds.trip = false ↔
            (t.supervisor u).reliefLatch = .clear ∧ (t.supervisor u).powerLatch = .clear)) ∧
        (t.zero u).rejected = (if code = .zeroRejected then false else (s.zero u).rejected) ∧
        (t.zero u).aborted = (if code = .zeroAborted then false else (s.zero u).aborted) ∧
        (code = .moveTimeout → (s.positioner u).state = .fault → (t.positioner u).state ≠ .fault)

/-- ACKNOWLEDGE ALL acknowledges every entry, passes every latched code to every crusher, removes the latched
entries whose cause is inactive and counts them in its reply, and returns the overflow count to 0. That the
count is of the removals of its third step is the model's choice, log 13. -/
def Obligations.AcknowledgeAllActsOnEveryLatch : Prop :=
  ∀ (l : Link) (tag : Byte) (s : State), s.takesOn l → l ≠ .lc → s.conditions.lawful →
    (∀ u, (s.positioner u).state ≠ .fault ∨ (s.supervisor u).relief ≠ .restoring) →
    let taken (before : Latch) (active : Bool) : Latch :=
      if before = .set then (if active then .setAcknowledged else .clear) else before
    let gone (e : Entry) : Bool := e.code.latched && !e.active
    ∃ t, exec (.acknowledgeAll l tag) s = .next t ∧
      s.repliedBy t l tag .acknowledgeAll (Answer.done [byteOf (s.conditions.entries.countP gone)]) ∧
      t.conditions.lawful ∧ t.conditions.overflow = 0 ∧
      t.conditions.entries =
        (s.conditions.entries.filter fun e => !gone e).map (fun e => { e with acknowledged := true }) ∧
      t.time = s.time ∧ t.store = s.store ∧ t.inputs = s.inputs ∧ t.gaps = s.gaps ∧
      ∀ u, (t.supervisor u).history = [] ∧
        (t.supervisor u).reliefLatch =
          taken (s.supervisor u).reliefLatch
            ((s.supervisor u).relief = .relieving || (s.supervisor u).relief = .clearing) ∧
        (t.supervisor u).powerLatch = taken (s.supervisor u).powerLatch (s.supervisor u).tripCause ∧
        ((t.governor u).holds.trip = false ↔
          (t.supervisor u).reliefLatch = .clear ∧ (t.supervisor u).powerLatch = .clear) ∧
        (t.zero u).rejected = false ∧ (t.zero u).aborted = false ∧
        ((s.positioner u).state = .fault → (t.positioner u).state ≠ .fault)

/-- The six reads are answered DONE on any link, locked or not, and change nothing but the reply; their bodies
have the lengths of section 10.5, and READ CLOCK and READ PARAMETER carry the values as they stand. -/
def Obligations.ReadsChangeNothing : Prop :=
  ∀ (l : Link) (tag : Byte) (s : State), s.listening →
    let answers (c : Instr) (kind : Byte) (body : List Byte) : Prop :=
      exec c s = .next (s.answered l tag kind (Answer.done body))
    (∀ st : Station, ∃ body, answers (.readStation l tag (byteOf st.number)) 0x10#8 body ∧
      body.length = (match st.role with | .feeder => 33 | .crusher => 93) ∧
      body.take 2 = [byteOf st.number, byteOf (s.station st).mode.code]) ∧
    (∃ body, answers (.readWaiting l tag) 0x11#8 body ∧
      body.length = 1 + 15 * s.board.slots.countP (fun o => o.any fun r => r.source = l)) ∧
    (∃ body, answers (.readConditions l tag) 0x12#8 body ∧
      body.length = 11 + 11 * s.conditions.entries.length) ∧
    (∀ (b number : Byte) set p, ParamSet.ofByte b = some set → set.param number.toNat = some p →
      answers (.readParameter l tag b number) 0x13#8
        (b :: number :: halfBytes (BitVec.ofNat 16 (s.paramValue p)))) ∧
    (∀ u, ∃ body, answers (.readZeroRecord l tag (byteOf (crusherOf u).number)) 0x14#8 body ∧
      body.length = 39) ∧
    answers (.readClock l tag) 0x15#8
      (wordBytes (BitVec.ofNat 32 s.time.seconds) ++ halfBytes (BitVec.ofNat 16 s.time.millis) ++
        wordBytes (BitVec.ofNat 32 s.time.lineClock) ++ [if s.time.clockSet then 1#8 else 0#8] ++
        [match s.store.writing.map WriteJob.sec with
          | none => 0#8
          | some .profile => 1#8
          | some .zero => 2#8
          | some .wear => 3#8] ++
        [byteOf ((if s.store.dirty.profile then 1 else 0) + (if s.store.dirty.zero then 2 else 0) +
          (if s.store.dirty.wear then 4 else 0))])

/-- The bodies of READ STATION, READ WAITING, READ CONDITIONS and READ ZERO RECORD, byte for byte, as they stand
when the reply is built: the fields in the order of section 10.5, in its codes, the most significant byte first. The
bytes that section leaves open are the model's choice, log 14: no byte for the crusher type, the tag of an absent
last-applied record, the duty of a drive that is off, history entries beyond the count, an absent backoff
target, an empty first-out but for its code, its flags byte and the places of the beacons' bits, and the detector's
code. The duty of an absent pending drive is FFFFh, as that of any absent optional 16-bit value. The bits of an input
not yet sampled, not running and not ASSERTED, are the model's choice too, log 6. -/
def Obligations.ReadsCarryTheState : Prop :=
  let b1 (n : Nat) : List Byte := [byteOf n]
  let b2 (n : Nat) : List Byte := halfBytes (BitVec.ofNat 16 n)
  let b4 (n : Nat) : List Byte := wordBytes (BitVec.ofNat 32 n)
  let signed (n : Int) : List Byte := halfBytes (BitVec.ofInt 16 n)
  let bit (i : Nat) (x : Bool) : Nat := if x then 2 ^ i else 0
  let zero (o : Option Nat) : Nat := o.getD 0
  let half (o : Option Nat) : List Byte := b2 (o.getD 0xFFFF)
  let time (o : Option Nat) : List Byte := b4 (o.getD 0xFFFFFFFF)
  let linkByte : Link → Nat
    | .lc => 0
    | .op => 1
    | .sv => 2
  let left (s : State) (o : Option Timer) : Option Nat := o.map fun k => k.length - elapsed s.now k.start
  let common (s : State) (st : Station) : List Byte :=
    let x := (s.station st).standing
    b1 st.number ++ b1 (s.station st).mode.code ++
      b1 (bit 0 (s.present st.train) + bit 1 (s.accepting st) +
        bit 2 (s.inputs.surgeConveyor.level == some true) +
        bit 3 (s.inputs.productConveyor.level == some true) +
        bit 4 (s.inputs.estop.level == some false)) ++
      b2 x.target ++ b1 x.priority ++
      (match x.origin with
        | .start => b1 3 ++ b1 0 ++ b4 0
        | .request l tag n => b1 (linkByte l) ++ [tag] ++ b4 n) ++
      b2 (zero x.keep) ++
      (match (s.station st).lastApplied with
        | none => b1 0xFF ++ b1 0
        | some a => b1 (linkByte a.link) ++ [a.tag]) ++
      (match st.role with
        | .crusher => half (s.gap st.train).gap
        | .feeder => b2 (s.governor st.train).command) ++
      b1 (s.board.slots.countP fun o => o.any fun r => r.station = st) ++
      half (s.inputs.surge.map Analog.scaled)
  let feeder (s : State) (u : Train) : List Byte :=
    let g := s.governor u
    b1 g.state.code ++
      b2 (bit 0 g.holds.estop + bit 1 g.holds.crusherStopped + bit 2 g.holds.conveyor + bit 3 g.holds.level +
        bit 4 g.holds.overload + bit 5 g.holds.relief + bit 6 g.holds.trip + bit 7 g.holds.gapMove +
        bit 8 g.holds.calibration + bit 9 g.holds.mode) ++
      signed g.trim ++ b2 g.demand ++ b1 (bit 0 g.capBound) ++
      b2 (g.updateTimer.length - elapsed s.now g.updateTimer.start) ++
      half ((s.inputs.power.get u).map Analog.scaled)
  let way (o : Option Direction) : List Byte :=
    match o with
    | none => b1 0
    | some .opening => b1 1
    | some .closing => b1 2
  let crusher (s : State) (u : Train) : List Byte :=
    let g := s.gap u
    let q := s.positioner u
    let v := s.supervisor u
    let pressure := (s.inputs.pressure.get u).map Analog.scaled
    let power := (s.inputs.power.get u).map Analog.scaled
    b1 (bit 0 ((s.inputs.running.get u).level == some true) + bit 1 (s.inputs.position.get u).isSome +
        bit 2 pressure.isSome + bit 3 power.isSome) ++
      b2 (zero (s.inputs.position.get u)) ++ b1 g.validity.code ++ b2 g.wear ++ b4 g.tenths ++
      b2 (zero pressure) ++ b2 (zero power) ++ b1 q.state.code ++
      b1 (bit 0 q.reasons.mode + bit 1 q.reasons.relief + bit 2 q.reasons.estop + bit 3 q.reasons.position +
        bit 4 q.reasons.noZero) ++
      way (q.drive.map Drive.direction) ++ b2 (zero (q.drive.map Drive.duty)) ++
      way (q.pendingDrive.map PendingDrive.direction) ++ half (q.pendingDrive.map PendingDrive.duty) ++
      (match q.move with
        | none => b1 0xFF ++ time none
        | some m => b1 (bit 0 m.loadAdjust) ++ b4 m.start) ++
      time (left s q.drainTimer) ++ time (left s q.moveTimer) ++ half (q.jog.map Jog.remaining) ++
      time q.lastDuration ++
      b1 (if s.sequencer.subject = some u then s.sequencer.state.code else 0xFF) ++ b1 v.relief.code ++
      b1 (if v.detectorActive then 0 else 1) ++ time (left s v.clearingTimer) ++ b1 v.history.length ++
      b4 (zero v.history[0]?) ++ b4 (zero v.history[1]?) ++ b4 (zero v.history[2]?) ++
      b4 (zero v.history[3]?) ++ b1 (bit 0 v.overload + bit 1 v.tripCause) ++
      time (left s v.overloadTimer) ++ b1 v.reliefLatch.code ++ b1 v.powerLatch.code
  let slot (i : Nat) (r : Slot) : List Byte :=
    b1 i ++ b1 r.station.number ++ b1 (match r.station.role with | .crusher => 0 | .feeder => 1) ++
      b2 r.value ++ b1 r.priority ++ [r.tag] ++ b4 r.sequence ++ b2 (zero r.keep) ++ b2 r.wait
  let subject : Subject → Nat
    | .line => 0xFF
    | .crusher u => (crusherOf u).number
    | .link l => 0x40 + linkByte l
    | .storeSection .profile => 0x80
    | .storeSection .zero => 0x81
    | .storeSection .wear => 0x82
  let detail : Detail → Nat
    | .power kw => kw
    | .result r => r.code
    | .storeSection sec => subject (.storeSection sec)
  let entry (e : Entry) : List Byte :=
    b1 e.code.number ++ b1 (subject e.subject) ++ b1 e.code.cls.code ++ b4 e.stamp.clock ++
      b1 (bit 0 e.stamp.isSet + bit 1 e.acknowledged + bit 2 e.active + bit 3 e.detail.isSome) ++
      b1 e.count ++ b2 (zero (e.detail.map detail))
  let outcome (o : TouchOutcome) : List Byte :=
    b1 o.result.code ++
      b1 (bit 0 o.zBefore.isSome + bit 1 o.zAfter.isSome + bit 2 o.wearFound.isSome + bit 3 o.stamp.isSet) ++
      b2 (zero o.zBefore) ++ b2 (zero o.zAfter) ++ signed (o.wearFound.getD 0) ++ b2 o.wear ++
      b4 o.duration ++ b4 o.stamp.clock
  (∀ (l : Link) (tag : Byte) (s : State), s.listening →
    let answers (c : Instr) (kind : Byte) (body : List Byte) : Prop :=
      exec c s = .next (s.answered l tag kind (Answer.done body))
    (∀ u, answers (.readStation l tag (byteOf (feederOf u).number)) 0x10#8
      (common s (feederOf u) ++ feeder s u)) ∧
    (∀ u, answers (.readStation l tag (byteOf (crusherOf u).number)) 0x10#8
      (common s (crusherOf u) ++ crusher s u)) ∧
    answers (.readWaiting l tag) 0x11#8
      (b1 (s.board.slots.countP fun o => o.any fun r => r.source = l) ++
        (s.board.slots.zipIdx.flatMap fun x =>
          match x.1 with
          | none => []
          | some r => if r.source = l then slot x.2 r else [])) ∧
    answers (.readConditions l tag) 0x12#8
      (b1 s.conditions.entries.length ++ b2 s.conditions.overflow ++
        (match s.conditions.firstOut with
          | none => b1 0 ++ b1 0 ++ b4 0 ++ b1 0
          | some f => b1 f.code.number ++ b1 (subject f.subject) ++ b4 f.stamp.clock ++ b1 (bit 0 f.stamp.isSet)) ++
        b1 ((s.conditions.beacon .trip).code + 4 * (s.conditions.beacon .hold).code +
          16 * (s.conditions.beacon .info).code) ++
        s.conditions.entries.flatMap entry) ∧
    ∀ u,
      let z := s.zero u
      let q := s.sequencer
      let mine : Bool := q.subject = some u
      let own (o : Option Nat) : Option Nat := if mine then o else none
      answers (.readZeroRecord l tag (byteOf (crusherOf u).number)) 0x14#8
        (b1 (crusherOf u).number ++
          b1 (bit 0 z.valid + bit 1 z.outcome.isSome + bit 2 z.rejected + bit 3 z.aborted + bit 4 mine +
            bit 5 (mine && q.armed) + bit 6 (own q.contact).isSome) ++
          b2 (if z.valid then z.z else 0) ++
          (match z.outcome with | none => List.replicate 18 0#8 | some o => outcome o) ++
          b2 (s.gap u).wear ++ b1 q.state.code ++ b2 (zero (own q.contact)) ++ b4 (zero (own q.target)) ++
          time (own (left s q.limitTimer)) ++ time (own (left s q.dwellTimer)))) ∧
  [Mode.run, .maintenance, .outOfService].map Mode.code = List.range 3 ∧
  [Validity.unchecked, .notValid, .recovering, .valid].map Validity.code = List.range 4 ∧
  [PositionerState.idle, .draining, .driving, .deadTime, .suspended, .fault, .jogging, .lent].map
    PositionerState.code = List.range 8 ∧
  [SequencerState.idle, .approach, .dwell, .backoff, .commit].map SequencerState.code = List.range 5 ∧
  [TouchResult.accepted, .rejectedShift, .abortedRequest, .abortedTimeout, .abortedRelief, .abortedEstop,
    .abortedPosition, .abortedStopped, .abortedLoaded].map TouchResult.code = List.range 9 ∧
  [GovernorState.stopped, .held, .running].map GovernorState.code = List.range 3 ∧
  [ReliefState.normal, .relieving, .clearing, .restoring].map ReliefState.code = List.range 4 ∧
  [Latch.clear, .set, .setAcknowledged].map Latch.code = List.range 3 ∧
  [Beacon.off, .steady, .flashing].map Beacon.code = List.range 3 ∧
  [ConditionClass.info, .hold, .trip].map ConditionClass.code = List.range 3 ∧
  [Code.estop, .surgeConveyorStopped, .productConveyorStopped, .surgeHigh, .surgeLow, .relief, .repeatedRelief,
    .overload, .powerTrip, .moveTimeout, .positionFault, .zeroUnset, .wearLimit, .zeroRejected, .zeroAborted,
    .storeFault, .linkLocked].map Code.number = List.range' 1 17
end

