-- ==== Sys2Proof/Laws/Sections.lean ====
section
/-! SUPPORT. Laws/Sections.lean: what a start reads of a section that was written, cut short or left as it was
(R164, R166). -/

namespace Sys2Proof.Machine

variable {α : Type} {bytes : α → List Byte} {st : Store}

@[simp] theorem StoredSection.make_contents (x : α) : (StoredSection.make bytes x).contents = x := rfl

@[simp] theorem StoredSection.make_check (x : α) : (StoredSection.make bytes x).check = crc16 (bytes x) := rfl

@[simp] theorem StoredSection.torn_contents (x : α) : (StoredSection.torn bytes x).contents = x := rfl

/-- No half word is its own complement. -/
theorem half_ne_not (h : Half) : h ≠ ~~~h := fun e => by
  have := congrArg (fun x => x.getLsbD 0) e
  simp at this

/-- A section written in full passes its check. -/
@[simp] theorem StoredSection.passes_make (x : α) : (StoredSection.make bytes x).passes bytes = true := by
  simp [StoredSection.passes]

/-- A section cut short fails its check. -/
@[simp] theorem StoredSection.passes_torn (x : α) : (StoredSection.torn bytes x).passes bytes = false :=
  decide_eq_false (half_ne_not _)

@[simp] theorem readSection_none : readSection bytes none = none := rfl

@[simp] theorem readSection_make (x : α) : readSection bytes (some (.make bytes x)) = some x := by
  simp [readSection]

@[simp] theorem readSection_torn (x : α) : readSection bytes (some (.torn bytes x)) = none := by
  simp [readSection]

/-- What a start reads of a section is its contents, under a check value that agrees with them. -/
theorem readSection_eq_some {o : Option (StoredSection α)} {x : α} :
    readSection bytes o = some x ↔ o = some ⟨x, crc16 (bytes x)⟩ := by
  cases o with
  | none => simp [readSection]
  | some sec =>
    obtain ⟨c, k⟩ := sec
    simp only [readSection, StoredSection.passes, decide_eq_true_eq, Option.some.injEq, StoredSection.mk.injEq]
    constructor
    · intro h
      split at h
      · rename_i hk
        cases h
        exact ⟨rfl, hk.symm⟩
      · cases h
    · rintro ⟨rfl, rfl⟩
      simp

/-! ### A store after a write, or with a write cut short -/

@[simp] theorem Store.written_dirty (job : WriteJob) : (st.written job).dirty = st.dirty := by cases job <;> rfl

@[simp] theorem Store.written_writing (job : WriteJob) : (st.written job).writing = st.writing := by
  cases job <;> rfl

theorem Store.readProfile_written (job : WriteJob) :
    (st.written job).readProfile = match job with
      | .profile p => some p
      | .zero _ | .wear _ => st.readProfile := by
  cases job <;> simp [Store.written, Store.readProfile]

theorem Store.readZero_written (job : WriteJob) :
    (st.written job).readZero = match job with
      | .zero z => some z
      | .profile _ | .wear _ => st.readZero := by
  cases job <;> simp [Store.written, Store.readZero]

theorem Store.readWear_written (job : WriteJob) :
    (st.written job).readWear = match job with
      | .wear w => some w
      | .profile _ | .zero _ => st.readWear := by
  cases job <;> simp [Store.written, Store.readWear]

@[simp] theorem Store.cutShort_dirty : st.cutShort.dirty = st.dirty := by
  unfold Store.cutShort
  split <;> rfl

@[simp] theorem Store.cutShort_writing : st.cutShort.writing = st.writing := by
  unfold Store.cutShort
  split <;> rfl

/-- With no write in progress nothing is cut short. -/
theorem Store.cutShort_idle (h : st.writing = none) : st.cutShort = st := by simp [Store.cutShort, h]

/-- A section whose write was cut short fails its check; the others are as they were (R164). -/
theorem Store.readProfile_cutShort :
    st.cutShort.readProfile =
      if st.writing.map WriteJob.sec = some .profile then none else st.readProfile := by
  unfold Store.cutShort
  split <;> simp_all [Store.readProfile, WriteJob.sec]

theorem Store.readZero_cutShort :
    st.cutShort.readZero = if st.writing.map WriteJob.sec = some .zero then none else st.readZero := by
  unfold Store.cutShort
  split <;> simp_all [Store.readZero, WriteJob.sec]

theorem Store.readWear_cutShort :
    st.cutShort.readWear = if st.writing.map WriteJob.sec = some .wear then none else st.readWear := by
  unfold Store.cutShort
  split <;> simp_all [Store.readWear, WriteJob.sec]

@[simp] theorem Store.readProfile_atStart : st.atStart.readProfile = st.readProfile := rfl

@[simp] theorem Store.readZero_atStart : st.atStart.readZero = st.readZero := rfl

@[simp] theorem Store.readWear_atStart : st.atStart.readWear = st.readWear := rfl

end Sys2Proof.Machine
end

