-- ==== Sys2Proof/Laws/State.lean ====
section
/-! SUPPORT. Laws/State.lean: what each update of the state leaves and what it writes, one lemma for each field
of each update, and the same for the per-train and per-link records. -/

namespace Sys2Proof

/-! ### Quads -/

@[simp] theorem Quad.get_set_self {α : Type} (q : Quad α) (t : Train) (v : α) : (q.set t v).get t = v := by
  cases t <;> rfl

theorem Quad.get_set_of_ne {α : Type} (q : Quad α) {t u : Train} (h : u ≠ t) (v : α) :
    (q.set t v).get u = q.get u := by
  cases t <;> cases u <;> first | rfl | exact absurd rfl h

theorem Quad.get_set {α : Type} (q : Quad α) (t u : Train) (v : α) :
    (q.set t v).get u = if u = t then v else q.get u := by
  cases t <;> cases u <;> rfl

@[simp] theorem Quad.get_map {α β : Type} (f : α → β) (q : Quad α) (t : Train) : (q.map f).get t = f (q.get t) := by
  cases t <;> rfl

@[simp] theorem Quad.get_make {α : Type} (f : Train → α) (t : Train) : (Quad.make f).get t = f t := by
  cases t <;> rfl

@[simp] theorem Quad.get_all {α : Type} (v : α) (t : Train) : (Quad.all v).get t = v := by
  cases t <;> rfl

@[simp] theorem Quad.set_get {α : Type} (q : Quad α) (t : Train) : q.set t (q.get t) = q := by
  cases t <;> rfl

theorem Quad.ext_get {α : Type} {p q : Quad α} (h : ∀ t, p.get t = q.get t) : p = q := by
  obtain ⟨p0, p1, p2, p3⟩ := p
  obtain ⟨q0, q1, q2, q3⟩ := q
  have h0 := h .t0
  have h1 := h .t1
  have h2 := h .t2
  have h3 := h .t3
  simp only [Quad.get] at h0 h1 h2 h3
  rw [h0, h1, h2, h3]

namespace Machine

/-! ### Per-link records -/

@[simp] theorem PerLink.get_set_self {α : Type} (p : PerLink α) (l : Link) (v : α) : (p.set l v).get l = v := by
  cases l <;> rfl

theorem PerLink.get_set_of_ne {α : Type} (p : PerLink α) {l m : Link} (h : m ≠ l) (v : α) :
    (p.set l v).get m = p.get m := by
  cases l <;> cases m <;> first | rfl | exact absurd rfl h

@[simp] theorem PerLink.set_set {α : Type} (p : PerLink α) (l : Link) (v w : α) :
    (p.set l v).set l w = p.set l w := by
  cases l <;> rfl

@[simp] theorem PerLink.set_get {α : Type} (p : PerLink α) (l : Link) : p.set l (p.get l) = p := by
  cases l <;> rfl

/-! ### A record read after its own update -/

@[simp] theorem State.governor_modGovernor (s : State) (t : Train) (f : Governor → Governor) :
    (s.modGovernor t f).governor t = f (s.governor t) := by simp [State.governor, State.modGovernor]

theorem State.governor_modGovernor_of_ne (s : State) {t u : Train} (h : u ≠ t) (f : Governor → Governor) :
    (s.modGovernor t f).governor u = s.governor u := by
  simp [State.governor, State.modGovernor, Quad.get_set_of_ne _ h]

@[simp] theorem State.positioner_modPositioner (s : State) (t : Train) (f : Positioner → Positioner) :
    (s.modPositioner t f).positioner t = f (s.positioner t) := by
  simp [State.positioner, State.modPositioner]

theorem State.positioner_modPositioner_of_ne (s : State) {t u : Train} (h : u ≠ t)
    (f : Positioner → Positioner) : (s.modPositioner t f).positioner u = s.positioner u := by
  simp [State.positioner, State.modPositioner, Quad.get_set_of_ne _ h]

@[simp] theorem State.gap_modGap (s : State) (t : Train) (f : GapMeasurement → GapMeasurement) :
    (s.modGap t f).gap t = f (s.gap t) := by simp [State.gap, State.modGap]

theorem State.gap_modGap_of_ne (s : State) {t u : Train} (h : u ≠ t) (f : GapMeasurement → GapMeasurement) :
    (s.modGap t f).gap u = s.gap u := by simp [State.gap, State.modGap, Quad.get_set_of_ne _ h]

@[simp] theorem State.supervisor_modSupervisor (s : State) (t : Train) (f : Supervisor → Supervisor) :
    (s.modSupervisor t f).supervisor t = f (s.supervisor t) := by
  simp [State.supervisor, State.modSupervisor]

theorem State.supervisor_modSupervisor_of_ne (s : State) {t u : Train} (h : u ≠ t)
    (f : Supervisor → Supervisor) : (s.modSupervisor t f).supervisor u = s.supervisor u := by
  simp [State.supervisor, State.modSupervisor, Quad.get_set_of_ne _ h]

@[simp] theorem State.zero_modZero (s : State) (t : Train) (f : ZeroRecord → ZeroRecord) :
    (s.modZero t f).zero t = f (s.zero t) := by simp [State.zero, State.modZero]

theorem State.zero_modZero_of_ne (s : State) {t u : Train} (h : u ≠ t) (f : ZeroRecord → ZeroRecord) :
    (s.modZero t f).zero u = s.zero u := by simp [State.zero, State.modZero, Quad.get_set_of_ne _ h]

@[simp] theorem State.link_modLink (s : State) (l : Link) (f : LinkInterface → LinkInterface) :
    (s.modLink l f).link l = f (s.link l) := by simp [State.link, State.modLink]

theorem State.link_modLink_of_ne (s : State) {l m : Link} (h : m ≠ l) (f : LinkInterface → LinkInterface) :
    (s.modLink l f).link m = s.link m := by simp [State.link, State.modLink, PerLink.get_set_of_ne _ h]

@[simp] theorem State.crusher_withCrusher (s : State) (t : Train) (x : CrusherParams) :
    (s.withCrusher t x).crusher t = x := by simp [State.crusher, State.withCrusher]

theorem State.crusher_withCrusher_of_ne (s : State) {t u : Train} (h : u ≠ t) (x : CrusherParams) :
    (s.withCrusher t x).crusher u = s.crusher u := by
  simp [State.crusher, State.withCrusher, Quad.get_set_of_ne _ h]

@[simp] theorem State.feeder_withFeeder (s : State) (t : Train) (x : FeederParams) :
    (s.withFeeder t x).feeder t = x := by simp [State.feeder, State.withFeeder]

theorem State.feeder_withFeeder_of_ne (s : State) {t u : Train} (h : u ≠ t) (x : FeederParams) :
    (s.withFeeder t x).feeder u = s.feeder u := by
  simp [State.feeder, State.withFeeder, Quad.get_set_of_ne _ h]

@[simp] theorem State.station_modStation (s : State) (st : Station) (f : StationRecord → StationRecord) :
    (s.modStation st f).station st = f (s.station st) := by
  obtain ⟨t, r⟩ := st; cases r <;> simp [State.station, State.modStation]

theorem State.station_modStation_of_ne (s : State) {st u : Station} (h : u ≠ st)
    (f : StationRecord → StationRecord) : (s.modStation st f).station u = s.station u := by
  obtain ⟨t, r⟩ := st
  obtain ⟨t', r'⟩ := u
  cases r <;> cases r' <;> try rfl
  all_goals
    have ht : t' ≠ t := fun e => h (by rw [e])
    simp [State.station, State.modStation, Quad.get_set_of_ne _ ht]

@[simp] theorem State.conditions_modConditions (s : State) (f : ConditionList → ConditionList) :
    (s.modConditions f).conditions = f s.conditions := rfl

@[simp] theorem State.conditions_onset (s : State) (code : Code) (sub : Subject) (d : Option Detail) :
    (s.onset code sub d).conditions = s.conditions.onset code sub d s.stamp := rfl

@[simp] theorem State.conditions_causeEnd (s : State) (code : Code) (sub : Subject) :
    (s.causeEnd code sub).conditions = s.conditions.causeEnded code sub := rfl

@[simp] theorem State.sequencer_modSequencer (s : State) (f : Sequencer → Sequencer) :
    (s.modSequencer f).sequencer = f s.sequencer := rfl

/-! ### modGovernor -/

@[simp] theorem State.modGovernor_powered (s : State) (t : Train) (f : Governor → Governor) :
    (s.modGovernor t f).powered = s.powered := rfl

@[simp] theorem State.modGovernor_restart (s : State) (t : Train) (f : Governor → Governor) :
    (s.modGovernor t f).restart = s.restart := rfl

@[simp] theorem State.modGovernor_time (s : State) (t : Train) (f : Governor → Governor) :
    (s.modGovernor t f).time = s.time := rfl

@[simp] theorem State.modGovernor_feeders (s : State) (t : Train) (f : Governor → Governor) :
    (s.modGovernor t f).feeders = s.feeders := rfl

@[simp] theorem State.modGovernor_crushers (s : State) (t : Train) (f : Governor → Governor) :
    (s.modGovernor t f).crushers = s.crushers := rfl

@[simp] theorem State.modGovernor_line (s : State) (t : Train) (f : Governor → Governor) :
    (s.modGovernor t f).line = s.line := rfl

@[simp] theorem State.modGovernor_crusherParams (s : State) (t : Train) (f : Governor → Governor) :
    (s.modGovernor t f).crusherParams = s.crusherParams := rfl

@[simp] theorem State.modGovernor_feederParams (s : State) (t : Train) (f : Governor → Governor) :
    (s.modGovernor t f).feederParams = s.feederParams := rfl

@[simp] theorem State.modGovernor_board (s : State) (t : Train) (f : Governor → Governor) :
    (s.modGovernor t f).board = s.board := rfl

@[simp] theorem State.modGovernor_inputs (s : State) (t : Train) (f : Governor → Governor) :
    (s.modGovernor t f).inputs = s.inputs := rfl

@[simp] theorem State.modGovernor_gaps (s : State) (t : Train) (f : Governor → Governor) :
    (s.modGovernor t f).gaps = s.gaps := rfl

@[simp] theorem State.modGovernor_positioners (s : State) (t : Train) (f : Governor → Governor) :
    (s.modGovernor t f).positioners = s.positioners := rfl

@[simp] theorem State.modGovernor_sequencer (s : State) (t : Train) (f : Governor → Governor) :
    (s.modGovernor t f).sequencer = s.sequencer := rfl

@[simp] theorem State.modGovernor_zeros (s : State) (t : Train) (f : Governor → Governor) :
    (s.modGovernor t f).zeros = s.zeros := rfl

@[simp] theorem State.modGovernor_supervisors (s : State) (t : Train) (f : Governor → Governor) :
    (s.modGovernor t f).supervisors = s.supervisors := rfl

@[simp] theorem State.modGovernor_conditions (s : State) (t : Train) (f : Governor → Governor) :
    (s.modGovernor t f).conditions = s.conditions := rfl

@[simp] theorem State.modGovernor_store (s : State) (t : Train) (f : Governor → Governor) :
    (s.modGovernor t f).store = s.store := rfl

@[simp] theorem State.modGovernor_links (s : State) (t : Train) (f : Governor → Governor) :
    (s.modGovernor t f).links = s.links := rfl

@[simp] theorem State.modGovernor_pending (s : State) (t : Train) (f : Governor → Governor) :
    (s.modGovernor t f).pending = s.pending := rfl

@[simp] theorem State.modGovernor_positioner_read (s : State) (t : Train) (f : Governor → Governor) (u : Train) :
    (s.modGovernor t f).positioner u = s.positioner u := rfl

@[simp] theorem State.modGovernor_gap_read (s : State) (t : Train) (f : Governor → Governor) (u : Train) :
    (s.modGovernor t f).gap u = s.gap u := rfl

@[simp] theorem State.modGovernor_supervisor_read (s : State) (t : Train) (f : Governor → Governor) (u : Train) :
    (s.modGovernor t f).supervisor u = s.supervisor u := rfl

@[simp] theorem State.modGovernor_zero_read (s : State) (t : Train) (f : Governor → Governor) (u : Train) :
    (s.modGovernor t f).zero u = s.zero u := rfl

@[simp] theorem State.modGovernor_crusher_read (s : State) (t : Train) (f : Governor → Governor) (u : Train) :
    (s.modGovernor t f).crusher u = s.crusher u := rfl

@[simp] theorem State.modGovernor_feeder_read (s : State) (t : Train) (f : Governor → Governor) (u : Train) :
    (s.modGovernor t f).feeder u = s.feeder u := rfl

@[simp] theorem State.modGovernor_link_read (s : State) (t : Train) (f : Governor → Governor) (m : Link) :
    (s.modGovernor t f).link m = s.link m := rfl

@[simp] theorem State.modGovernor_station_read (s : State) (t : Train) (f : Governor → Governor) (st : Station) :
    (s.modGovernor t f).station st = s.station st := rfl

@[simp] theorem State.modGovernor_now_read (s : State) (t : Train) (f : Governor → Governor) :
    (s.modGovernor t f).now = s.now := rfl

@[simp] theorem State.modGovernor_stamp_read (s : State) (t : Train) (f : Governor → Governor) :
    (s.modGovernor t f).stamp = s.stamp := rfl

@[simp] theorem State.modGovernor_present_read (s : State) (t : Train) (f : Governor → Governor) (u : Train) :
    (s.modGovernor t f).present u = s.present u := rfl

@[simp] theorem State.modGovernor_isSubject_read (s : State) (t : Train) (f : Governor → Governor) (u : Train) :
    (s.modGovernor t f).isSubject u = s.isSubject u := rfl

@[simp] theorem State.modGovernor_estopAsserted_read (s : State) (t : Train) (f : Governor → Governor) :
    (s.modGovernor t f).estopAsserted = s.estopAsserted := rfl

/-! ### modPositioner -/

@[simp] theorem State.modPositioner_powered (s : State) (t : Train) (f : Positioner → Positioner) :
    (s.modPositioner t f).powered = s.powered := rfl

@[simp] theorem State.modPositioner_restart (s : State) (t : Train) (f : Positioner → Positioner) :
    (s.modPositioner t f).restart = s.restart := rfl

@[simp] theorem State.modPositioner_time (s : State) (t : Train) (f : Positioner → Positioner) :
    (s.modPositioner t f).time = s.time := rfl

@[simp] theorem State.modPositioner_feeders (s : State) (t : Train) (f : Positioner → Positioner) :
    (s.modPositioner t f).feeders = s.feeders := rfl

@[simp] theorem State.modPositioner_crushers (s : State) (t : Train) (f : Positioner → Positioner) :
    (s.modPositioner t f).crushers = s.crushers := rfl

@[simp] theorem State.modPositioner_line (s : State) (t : Train) (f : Positioner → Positioner) :
    (s.modPositioner t f).line = s.line := rfl

@[simp] theorem State.modPositioner_crusherParams (s : State) (t : Train) (f : Positioner → Positioner) :
    (s.modPositioner t f).crusherParams = s.crusherParams := rfl

@[simp] theorem State.modPositioner_feederParams (s : State) (t : Train) (f : Positioner → Positioner) :
    (s.modPositioner t f).feederParams = s.feederParams := rfl

@[simp] theorem State.modPositioner_board (s : State) (t : Train) (f : Positioner → Positioner) :
    (s.modPositioner t f).board = s.board := rfl

@[simp] theorem State.modPositioner_inputs (s : State) (t : Train) (f : Positioner → Positioner) :
    (s.modPositioner t f).inputs = s.inputs := rfl

@[simp] theorem State.modPositioner_gaps (s : State) (t : Train) (f : Positioner → Positioner) :
    (s.modPositioner t f).gaps = s.gaps := rfl

@[simp] theorem State.modPositioner_sequencer (s : State) (t : Train) (f : Positioner → Positioner) :
    (s.modPositioner t f).sequencer = s.sequencer := rfl

@[simp] theorem State.modPositioner_zeros (s : State) (t : Train) (f : Positioner → Positioner) :
    (s.modPositioner t f).zeros = s.zeros := rfl

@[simp] theorem State.modPositioner_governors (s : State) (t : Train) (f : Positioner → Positioner) :
    (s.modPositioner t f).governors = s.governors := rfl

@[simp] theorem State.modPositioner_supervisors (s : State) (t : Train) (f : Positioner → Positioner) :
    (s.modPositioner t f).supervisors = s.supervisors := rfl

@[simp] theorem State.modPositioner_conditions (s : State) (t : Train) (f : Positioner → Positioner) :
    (s.modPositioner t f).conditions = s.conditions := rfl

@[simp] theorem State.modPositioner_store (s : State) (t : Train) (f : Positioner → Positioner) :
    (s.modPositioner t f).store = s.store := rfl

@[simp] theorem State.modPositioner_links (s : State) (t : Train) (f : Positioner → Positioner) :
    (s.modPositioner t f).links = s.links := rfl

@[simp] theorem State.modPositioner_pending (s : State) (t : Train) (f : Positioner → Positioner) :
    (s.modPositioner t f).pending = s.pending := rfl

@[simp] theorem State.modPositioner_governor_read (s : State) (t : Train) (f : Positioner → Positioner) (u : Train) :
    (s.modPositioner t f).governor u = s.governor u := rfl

@[simp] theorem State.modPositioner_gap_read (s : State) (t : Train) (f : Positioner → Positioner) (u : Train) :
    (s.modPositioner t f).gap u = s.gap u := rfl

@[simp] theorem State.modPositioner_supervisor_read (s : State) (t : Train) (f : Positioner → Positioner) (u : Train) :
    (s.modPositioner t f).supervisor u = s.supervisor u := rfl

@[simp] theorem State.modPositioner_zero_read (s : State) (t : Train) (f : Positioner → Positioner) (u : Train) :
    (s.modPositioner t f).zero u = s.zero u := rfl

@[simp] theorem State.modPositioner_crusher_read (s : State) (t : Train) (f : Positioner → Positioner) (u : Train) :
    (s.modPositioner t f).crusher u = s.crusher u := rfl

@[simp] theorem State.modPositioner_feeder_read (s : State) (t : Train) (f : Positioner → Positioner) (u : Train) :
    (s.modPositioner t f).feeder u = s.feeder u := rfl

@[simp] theorem State.modPositioner_link_read (s : State) (t : Train) (f : Positioner → Positioner) (m : Link) :
    (s.modPositioner t f).link m = s.link m := rfl

@[simp] theorem State.modPositioner_station_read (s : State) (t : Train) (f : Positioner → Positioner) (st : Station) :
    (s.modPositioner t f).station st = s.station st := rfl

@[simp] theorem State.modPositioner_now_read (s : State) (t : Train) (f : Positioner → Positioner) :
    (s.modPositioner t f).now = s.now := rfl

@[simp] theorem State.modPositioner_stamp_read (s : State) (t : Train) (f : Positioner → Positioner) :
    (s.modPositioner t f).stamp = s.stamp := rfl

@[simp] theorem State.modPositioner_present_read (s : State) (t : Train) (f : Positioner → Positioner) (u : Train) :
    (s.modPositioner t f).present u = s.present u := rfl

@[simp] theorem State.modPositioner_isSubject_read (s : State) (t : Train) (f : Positioner → Positioner) (u : Train) :
    (s.modPositioner t f).isSubject u = s.isSubject u := rfl

@[simp] theorem State.modPositioner_estopAsserted_read (s : State) (t : Train) (f : Positioner → Positioner) :
    (s.modPositioner t f).estopAsserted = s.estopAsserted := rfl

/-! ### modGap -/

@[simp] theorem State.modGap_powered (s : State) (t : Train) (f : GapMeasurement → GapMeasurement) :
    (s.modGap t f).powered = s.powered := rfl

@[simp] theorem State.modGap_restart (s : State) (t : Train) (f : GapMeasurement → GapMeasurement) :
    (s.modGap t f).restart = s.restart := rfl

@[simp] theorem State.modGap_time (s : State) (t : Train) (f : GapMeasurement → GapMeasurement) :
    (s.modGap t f).time = s.time := rfl

@[simp] theorem State.modGap_feeders (s : State) (t : Train) (f : GapMeasurement → GapMeasurement) :
    (s.modGap t f).feeders = s.feeders := rfl

@[simp] theorem State.modGap_crushers (s : State) (t : Train) (f : GapMeasurement → GapMeasurement) :
    (s.modGap t f).crushers = s.crushers := rfl

@[simp] theorem State.modGap_line (s : State) (t : Train) (f : GapMeasurement → GapMeasurement) :
    (s.modGap t f).line = s.line := rfl

@[simp] theorem State.modGap_crusherParams (s : State) (t : Train) (f : GapMeasurement → GapMeasurement) :
    (s.modGap t f).crusherParams = s.crusherParams := rfl

@[simp] theorem State.modGap_feederParams (s : State) (t : Train) (f : GapMeasurement → GapMeasurement) :
    (s.modGap t f).feederParams = s.feederParams := rfl

@[simp] theorem State.modGap_board (s : State) (t : Train) (f : GapMeasurement → GapMeasurement) :
    (s.modGap t f).board = s.board := rfl

@[simp] theorem State.modGap_inputs (s : State) (t : Train) (f : GapMeasurement → GapMeasurement) :
    (s.modGap t f).inputs = s.inputs := rfl

@[simp] theorem State.modGap_positioners (s : State) (t : Train) (f : GapMeasurement → GapMeasurement) :
    (s.modGap t f).positioners = s.positioners := rfl

@[simp] theorem State.modGap_sequencer (s : State) (t : Train) (f : GapMeasurement → GapMeasurement) :
    (s.modGap t f).sequencer = s.sequencer := rfl

@[simp] theorem State.modGap_zeros (s : State) (t : Train) (f : GapMeasurement → GapMeasurement) :
    (s.modGap t f).zeros = s.zeros := rfl

@[simp] theorem State.modGap_governors (s : State) (t : Train) (f : GapMeasurement → GapMeasurement) :
    (s.modGap t f).governors = s.governors := rfl

@[simp] theorem State.modGap_supervisors (s : State) (t : Train) (f : GapMeasurement → GapMeasurement) :
    (s.modGap t f).supervisors = s.supervisors := rfl

@[simp] theorem State.modGap_conditions (s : State) (t : Train) (f : GapMeasurement → GapMeasurement) :
    (s.modGap t f).conditions = s.conditions := rfl

@[simp] theorem State.modGap_store (s : State) (t : Train) (f : GapMeasurement → GapMeasurement) :
    (s.modGap t f).store = s.store := rfl

@[simp] theorem State.modGap_links (s : State) (t : Train) (f : GapMeasurement → GapMeasurement) :
    (s.modGap t f).links = s.links := rfl

@[simp] theorem State.modGap_pending (s : State) (t : Train) (f : GapMeasurement → GapMeasurement) :
    (s.modGap t f).pending = s.pending := rfl

@[simp] theorem State.modGap_governor_read (s : State) (t : Train) (f : GapMeasurement → GapMeasurement) (u : Train) :
    (s.modGap t f).governor u = s.governor u := rfl

@[simp] theorem State.modGap_positioner_read (s : State) (t : Train) (f : GapMeasurement → GapMeasurement) (u : Train) :
    (s.modGap t f).positioner u = s.positioner u := rfl

@[simp] theorem State.modGap_supervisor_read (s : State) (t : Train) (f : GapMeasurement → GapMeasurement) (u : Train) :
    (s.modGap t f).supervisor u = s.supervisor u := rfl

@[simp] theorem State.modGap_zero_read (s : State) (t : Train) (f : GapMeasurement → GapMeasurement) (u : Train) :
    (s.modGap t f).zero u = s.zero u := rfl

@[simp] theorem State.modGap_crusher_read (s : State) (t : Train) (f : GapMeasurement → GapMeasurement) (u : Train) :
    (s.modGap t f).crusher u = s.crusher u := rfl

@[simp] theorem State.modGap_feeder_read (s : State) (t : Train) (f : GapMeasurement → GapMeasurement) (u : Train) :
    (s.modGap t f).feeder u = s.feeder u := rfl

@[simp] theorem State.modGap_link_read (s : State) (t : Train) (f : GapMeasurement → GapMeasurement) (m : Link) :
    (s.modGap t f).link m = s.link m := rfl

@[simp] theorem State.modGap_station_read (s : State) (t : Train) (f : GapMeasurement → GapMeasurement) (st : Station) :
    (s.modGap t f).station st = s.station st := rfl

@[simp] theorem State.modGap_now_read (s : State) (t : Train) (f : GapMeasurement → GapMeasurement) :
    (s.modGap t f).now = s.now := rfl

@[simp] theorem State.modGap_stamp_read (s : State) (t : Train) (f : GapMeasurement → GapMeasurement) :
    (s.modGap t f).stamp = s.stamp := rfl

@[simp] theorem State.modGap_present_read (s : State) (t : Train) (f : GapMeasurement → GapMeasurement) (u : Train) :
    (s.modGap t f).present u = s.present u := rfl

@[simp] theorem State.modGap_isSubject_read (s : State) (t : Train) (f : GapMeasurement → GapMeasurement) (u : Train) :
    (s.modGap t f).isSubject u = s.isSubject u := rfl

@[simp] theorem State.modGap_estopAsserted_read (s : State) (t : Train) (f : GapMeasurement → GapMeasurement) :
    (s.modGap t f).estopAsserted = s.estopAsserted := rfl

/-! ### modSupervisor -/

@[simp] theorem State.modSupervisor_powered (s : State) (t : Train) (f : Supervisor → Supervisor) :
    (s.modSupervisor t f).powered = s.powered := rfl

@[simp] theorem State.modSupervisor_restart (s : State) (t : Train) (f : Supervisor → Supervisor) :
    (s.modSupervisor t f).restart = s.restart := rfl

@[simp] theorem State.modSupervisor_time (s : State) (t : Train) (f : Supervisor → Supervisor) :
    (s.modSupervisor t f).time = s.time := rfl

@[simp] theorem State.modSupervisor_feeders (s : State) (t : Train) (f : Supervisor → Supervisor) :
    (s.modSupervisor t f).feeders = s.feeders := rfl

@[simp] theorem State.modSupervisor_crushers (s : State) (t : Train) (f : Supervisor → Supervisor) :
    (s.modSupervisor t f).crushers = s.crushers := rfl

@[simp] theorem State.modSupervisor_line (s : State) (t : Train) (f : Supervisor → Supervisor) :
    (s.modSupervisor t f).line = s.line := rfl

@[simp] theorem State.modSupervisor_crusherParams (s : State) (t : Train) (f : Supervisor → Supervisor) :
    (s.modSupervisor t f).crusherParams = s.crusherParams := rfl

@[simp] theorem State.modSupervisor_feederParams (s : State) (t : Train) (f : Supervisor → Supervisor) :
    (s.modSupervisor t f).feederParams = s.feederParams := rfl

@[simp] theorem State.modSupervisor_board (s : State) (t : Train) (f : Supervisor → Supervisor) :
    (s.modSupervisor t f).board = s.board := rfl

@[simp] theorem State.modSupervisor_inputs (s : State) (t : Train) (f : Supervisor → Supervisor) :
    (s.modSupervisor t f).inputs = s.inputs := rfl

@[simp] theorem State.modSupervisor_gaps (s : State) (t : Train) (f : Supervisor → Supervisor) :
    (s.modSupervisor t f).gaps = s.gaps := rfl

@[simp] theorem State.modSupervisor_positioners (s : State) (t : Train) (f : Supervisor → Supervisor) :
    (s.modSupervisor t f).positioners = s.positioners := rfl

@[simp] theorem State.modSupervisor_sequencer (s : State) (t : Train) (f : Supervisor → Supervisor) :
    (s.modSupervisor t f).sequencer = s.sequencer := rfl

@[simp] theorem State.modSupervisor_zeros (s : State) (t : Train) (f : Supervisor → Supervisor) :
    (s.modSupervisor t f).zeros = s.zeros := rfl

@[simp] theorem State.modSupervisor_governors (s : State) (t : Train) (f : Supervisor → Supervisor) :
    (s.modSupervisor t f).governors = s.governors := rfl

@[simp] theorem State.modSupervisor_conditions (s : State) (t : Train) (f : Supervisor → Supervisor) :
    (s.modSupervisor t f).conditions = s.conditions := rfl

@[simp] theorem State.modSupervisor_store (s : State) (t : Train) (f : Supervisor → Supervisor) :
    (s.modSupervisor t f).store = s.store := rfl

@[simp] theorem State.modSupervisor_links (s : State) (t : Train) (f : Supervisor → Supervisor) :
    (s.modSupervisor t f).links = s.links := rfl

@[simp] theorem State.modSupervisor_pending (s : State) (t : Train) (f : Supervisor → Supervisor) :
    (s.modSupervisor t f).pending = s.pending := rfl

@[simp] theorem State.modSupervisor_governor_read (s : State) (t : Train) (f : Supervisor → Supervisor) (u : Train) :
    (s.modSupervisor t f).governor u = s.governor u := rfl

@[simp] theorem State.modSupervisor_positioner_read (s : State) (t : Train) (f : Supervisor → Supervisor) (u : Train) :
    (s.modSupervisor t f).positioner u = s.positioner u := rfl

@[simp] theorem State.modSupervisor_gap_read (s : State) (t : Train) (f : Supervisor → Supervisor) (u : Train) :
    (s.modSupervisor t f).gap u = s.gap u := rfl

@[simp] theorem State.modSupervisor_zero_read (s : State) (t : Train) (f : Supervisor → Supervisor) (u : Train) :
    (s.modSupervisor t f).zero u = s.zero u := rfl

@[simp] theorem State.modSupervisor_crusher_read (s : State) (t : Train) (f : Supervisor → Supervisor) (u : Train) :
    (s.modSupervisor t f).crusher u = s.crusher u := rfl

@[simp] theorem State.modSupervisor_feeder_read (s : State) (t : Train) (f : Supervisor → Supervisor) (u : Train) :
    (s.modSupervisor t f).feeder u = s.feeder u := rfl

@[simp] theorem State.modSupervisor_link_read (s : State) (t : Train) (f : Supervisor → Supervisor) (m : Link) :
    (s.modSupervisor t f).link m = s.link m := rfl

@[simp] theorem State.modSupervisor_station_read (s : State) (t : Train) (f : Supervisor → Supervisor) (st : Station) :
    (s.modSupervisor t f).station st = s.station st := rfl

@[simp] theorem State.modSupervisor_now_read (s : State) (t : Train) (f : Supervisor → Supervisor) :
    (s.modSupervisor t f).now = s.now := rfl

@[simp] theorem State.modSupervisor_stamp_read (s : State) (t : Train) (f : Supervisor → Supervisor) :
    (s.modSupervisor t f).stamp = s.stamp := rfl

@[simp] theorem State.modSupervisor_present_read (s : State) (t : Train) (f : Supervisor → Supervisor) (u : Train) :
    (s.modSupervisor t f).present u = s.present u := rfl

@[simp] theorem State.modSupervisor_isSubject_read (s : State) (t : Train) (f : Supervisor → Supervisor) (u : Train) :
    (s.modSupervisor t f).isSubject u = s.isSubject u := rfl

@[simp] theorem State.modSupervisor_estopAsserted_read (s : State) (t : Train) (f : Supervisor → Supervisor) :
    (s.modSupervisor t f).estopAsserted = s.estopAsserted := rfl

/-! ### modZero -/

@[simp] theorem State.modZero_powered (s : State) (t : Train) (f : ZeroRecord → ZeroRecord) :
    (s.modZero t f).powered = s.powered := rfl

@[simp] theorem State.modZero_restart (s : State) (t : Train) (f : ZeroRecord → ZeroRecord) :
    (s.modZero t f).restart = s.restart := rfl

@[simp] theorem State.modZero_time (s : State) (t : Train) (f : ZeroRecord → ZeroRecord) :
    (s.modZero t f).time = s.time := rfl

@[simp] theorem State.modZero_feeders (s : State) (t : Train) (f : ZeroRecord → ZeroRecord) :
    (s.modZero t f).feeders = s.feeders := rfl

@[simp] theorem State.modZero_crushers (s : State) (t : Train) (f : ZeroRecord → ZeroRecord) :
    (s.modZero t f).crushers = s.crushers := rfl

@[simp] theorem State.modZero_line (s : State) (t : Train) (f : ZeroRecord → ZeroRecord) :
    (s.modZero t f).line = s.line := rfl

@[simp] theorem State.modZero_crusherParams (s : State) (t : Train) (f : ZeroRecord → ZeroRecord) :
    (s.modZero t f).crusherParams = s.crusherParams := rfl

@[simp] theorem State.modZero_feederParams (s : State) (t : Train) (f : ZeroRecord → ZeroRecord) :
    (s.modZero t f).feederParams = s.feederParams := rfl

@[simp] theorem State.modZero_board (s : State) (t : Train) (f : ZeroRecord → ZeroRecord) :
    (s.modZero t f).board = s.board := rfl

@[simp] theorem State.modZero_inputs (s : State) (t : Train) (f : ZeroRecord → ZeroRecord) :
    (s.modZero t f).inputs = s.inputs := rfl

@[simp] theorem State.modZero_gaps (s : State) (t : Train) (f : ZeroRecord → ZeroRecord) :
    (s.modZero t f).gaps = s.gaps := rfl

@[simp] theorem State.modZero_positioners (s : State) (t : Train) (f : ZeroRecord → ZeroRecord) :
    (s.modZero t f).positioners = s.positioners := rfl

@[simp] theorem State.modZero_sequencer (s : State) (t : Train) (f : ZeroRecord → ZeroRecord) :
    (s.modZero t f).sequencer = s.sequencer := rfl

@[simp] theorem State.modZero_governors (s : State) (t : Train) (f : ZeroRecord → ZeroRecord) :
    (s.modZero t f).governors = s.governors := rfl

@[simp] theorem State.modZero_supervisors (s : State) (t : Train) (f : ZeroRecord → ZeroRecord) :
    (s.modZero t f).supervisors = s.supervisors := rfl

@[simp] theorem State.modZero_conditions (s : State) (t : Train) (f : ZeroRecord → ZeroRecord) :
    (s.modZero t f).conditions = s.conditions := rfl

@[simp] theorem State.modZero_store (s : State) (t : Train) (f : ZeroRecord → ZeroRecord) :
    (s.modZero t f).store = s.store := rfl

@[simp] theorem State.modZero_links (s : State) (t : Train) (f : ZeroRecord → ZeroRecord) :
    (s.modZero t f).links = s.links := rfl

@[simp] theorem State.modZero_pending (s : State) (t : Train) (f : ZeroRecord → ZeroRecord) :
    (s.modZero t f).pending = s.pending := rfl

@[simp] theorem State.modZero_governor_read (s : State) (t : Train) (f : ZeroRecord → ZeroRecord) (u : Train) :
    (s.modZero t f).governor u = s.governor u := rfl

@[simp] theorem State.modZero_positioner_read (s : State) (t : Train) (f : ZeroRecord → ZeroRecord) (u : Train) :
    (s.modZero t f).positioner u = s.positioner u := rfl

@[simp] theorem State.modZero_gap_read (s : State) (t : Train) (f : ZeroRecord → ZeroRecord) (u : Train) :
    (s.modZero t f).gap u = s.gap u := rfl

@[simp] theorem State.modZero_supervisor_read (s : State) (t : Train) (f : ZeroRecord → ZeroRecord) (u : Train) :
    (s.modZero t f).supervisor u = s.supervisor u := rfl

@[simp] theorem State.modZero_crusher_read (s : State) (t : Train) (f : ZeroRecord → ZeroRecord) (u : Train) :
    (s.modZero t f).crusher u = s.crusher u := rfl

@[simp] theorem State.modZero_feeder_read (s : State) (t : Train) (f : ZeroRecord → ZeroRecord) (u : Train) :
    (s.modZero t f).feeder u = s.feeder u := rfl

@[simp] theorem State.modZero_link_read (s : State) (t : Train) (f : ZeroRecord → ZeroRecord) (m : Link) :
    (s.modZero t f).link m = s.link m := rfl

@[simp] theorem State.modZero_station_read (s : State) (t : Train) (f : ZeroRecord → ZeroRecord) (st : Station) :
    (s.modZero t f).station st = s.station st := rfl

@[simp] theorem State.modZero_now_read (s : State) (t : Train) (f : ZeroRecord → ZeroRecord) :
    (s.modZero t f).now = s.now := rfl

@[simp] theorem State.modZero_stamp_read (s : State) (t : Train) (f : ZeroRecord → ZeroRecord) :
    (s.modZero t f).stamp = s.stamp := rfl

@[simp] theorem State.modZero_present_read (s : State) (t : Train) (f : ZeroRecord → ZeroRecord) (u : Train) :
    (s.modZero t f).present u = s.present u := rfl

@[simp] theorem State.modZero_isSubject_read (s : State) (t : Train) (f : ZeroRecord → ZeroRecord) (u : Train) :
    (s.modZero t f).isSubject u = s.isSubject u := rfl

@[simp] theorem State.modZero_estopAsserted_read (s : State) (t : Train) (f : ZeroRecord → ZeroRecord) :
    (s.modZero t f).estopAsserted = s.estopAsserted := rfl

/-! ### modLink -/

@[simp] theorem State.modLink_powered (s : State) (l : Link) (f : LinkInterface → LinkInterface) :
    (s.modLink l f).powered = s.powered := rfl

@[simp] theorem State.modLink_restart (s : State) (l : Link) (f : LinkInterface → LinkInterface) :
    (s.modLink l f).restart = s.restart := rfl

@[simp] theorem State.modLink_time (s : State) (l : Link) (f : LinkInterface → LinkInterface) :
    (s.modLink l f).time = s.time := rfl

@[simp] theorem State.modLink_feeders (s : State) (l : Link) (f : LinkInterface → LinkInterface) :
    (s.modLink l f).feeders = s.feeders := rfl

@[simp] theorem State.modLink_crushers (s : State) (l : Link) (f : LinkInterface → LinkInterface) :
    (s.modLink l f).crushers = s.crushers := rfl

@[simp] theorem State.modLink_line (s : State) (l : Link) (f : LinkInterface → LinkInterface) :
    (s.modLink l f).line = s.line := rfl

@[simp] theorem State.modLink_crusherParams (s : State) (l : Link) (f : LinkInterface → LinkInterface) :
    (s.modLink l f).crusherParams = s.crusherParams := rfl

@[simp] theorem State.modLink_feederParams (s : State) (l : Link) (f : LinkInterface → LinkInterface) :
    (s.modLink l f).feederParams = s.feederParams := rfl

@[simp] theorem State.modLink_board (s : State) (l : Link) (f : LinkInterface → LinkInterface) :
    (s.modLink l f).board = s.board := rfl

@[simp] theorem State.modLink_inputs (s : State) (l : Link) (f : LinkInterface → LinkInterface) :
    (s.modLink l f).inputs = s.inputs := rfl

@[simp] theorem State.modLink_gaps (s : State) (l : Link) (f : LinkInterface → LinkInterface) :
    (s.modLink l f).gaps = s.gaps := rfl

@[simp] theorem State.modLink_positioners (s : State) (l : Link) (f : LinkInterface → LinkInterface) :
    (s.modLink l f).positioners = s.positioners := rfl

@[simp] theorem State.modLink_sequencer (s : State) (l : Link) (f : LinkInterface → LinkInterface) :
    (s.modLink l f).sequencer = s.sequencer := rfl

@[simp] theorem State.modLink_zeros (s : State) (l : Link) (f : LinkInterface → LinkInterface) :
    (s.modLink l f).zeros = s.zeros := rfl

@[simp] theorem State.modLink_governors (s : State) (l : Link) (f : LinkInterface → LinkInterface) :
    (s.modLink l f).governors = s.governors := rfl

@[simp] theorem State.modLink_supervisors (s : State) (l : Link) (f : LinkInterface → LinkInterface) :
    (s.modLink l f).supervisors = s.supervisors := rfl

@[simp] theorem State.modLink_conditions (s : State) (l : Link) (f : LinkInterface → LinkInterface) :
    (s.modLink l f).conditions = s.conditions := rfl

@[simp] theorem State.modLink_store (s : State) (l : Link) (f : LinkInterface → LinkInterface) :
    (s.modLink l f).store = s.store := rfl

@[simp] theorem State.modLink_pending (s : State) (l : Link) (f : LinkInterface → LinkInterface) :
    (s.modLink l f).pending = s.pending := rfl

@[simp] theorem State.modLink_governor_read (s : State) (l : Link) (f : LinkInterface → LinkInterface) (u : Train) :
    (s.modLink l f).governor u = s.governor u := rfl

@[simp] theorem State.modLink_positioner_read (s : State) (l : Link) (f : LinkInterface → LinkInterface) (u : Train) :
    (s.modLink l f).positioner u = s.positioner u := rfl

@[simp] theorem State.modLink_gap_read (s : State) (l : Link) (f : LinkInterface → LinkInterface) (u : Train) :
    (s.modLink l f).gap u = s.gap u := rfl

@[simp] theorem State.modLink_supervisor_read (s : State) (l : Link) (f : LinkInterface → LinkInterface) (u : Train) :
    (s.modLink l f).supervisor u = s.supervisor u := rfl

@[simp] theorem State.modLink_zero_read (s : State) (l : Link) (f : LinkInterface → LinkInterface) (u : Train) :
    (s.modLink l f).zero u = s.zero u := rfl

@[simp] theorem State.modLink_crusher_read (s : State) (l : Link) (f : LinkInterface → LinkInterface) (u : Train) :
    (s.modLink l f).crusher u = s.crusher u := rfl

@[simp] theorem State.modLink_feeder_read (s : State) (l : Link) (f : LinkInterface → LinkInterface) (u : Train) :
    (s.modLink l f).feeder u = s.feeder u := rfl

@[simp] theorem State.modLink_station_read (s : State) (l : Link) (f : LinkInterface → LinkInterface) (st : Station) :
    (s.modLink l f).station st = s.station st := rfl

@[simp] theorem State.modLink_now_read (s : State) (l : Link) (f : LinkInterface → LinkInterface) :
    (s.modLink l f).now = s.now := rfl

@[simp] theorem State.modLink_stamp_read (s : State) (l : Link) (f : LinkInterface → LinkInterface) :
    (s.modLink l f).stamp = s.stamp := rfl

@[simp] theorem State.modLink_present_read (s : State) (l : Link) (f : LinkInterface → LinkInterface) (u : Train) :
    (s.modLink l f).present u = s.present u := rfl

@[simp] theorem State.modLink_isSubject_read (s : State) (l : Link) (f : LinkInterface → LinkInterface) (u : Train) :
    (s.modLink l f).isSubject u = s.isSubject u := rfl

@[simp] theorem State.modLink_estopAsserted_read (s : State) (l : Link) (f : LinkInterface → LinkInterface) :
    (s.modLink l f).estopAsserted = s.estopAsserted := rfl

/-! ### modConditions -/

@[simp] theorem State.modConditions_powered (s : State) (f : ConditionList → ConditionList) :
    (s.modConditions f).powered = s.powered := rfl

@[simp] theorem State.modConditions_restart (s : State) (f : ConditionList → ConditionList) :
    (s.modConditions f).restart = s.restart := rfl

@[simp] theorem State.modConditions_time (s : State) (f : ConditionList → ConditionList) :
    (s.modConditions f).time = s.time := rfl

@[simp] theorem State.modConditions_feeders (s : State) (f : ConditionList → ConditionList) :
    (s.modConditions f).feeders = s.feeders := rfl

@[simp] theorem State.modConditions_crushers (s : State) (f : ConditionList → ConditionList) :
    (s.modConditions f).crushers = s.crushers := rfl

@[simp] theorem State.modConditions_line (s : State) (f : ConditionList → ConditionList) :
    (s.modConditions f).line = s.line := rfl

@[simp] theorem State.modConditions_crusherParams (s : State) (f : ConditionList → ConditionList) :
    (s.modConditions f).crusherParams = s.crusherParams := rfl

@[simp] theorem State.modConditions_feederParams (s : State) (f : ConditionList → ConditionList) :
    (s.modConditions f).feederParams = s.feederParams := rfl

@[simp] theorem State.modConditions_board (s : State) (f : ConditionList → ConditionList) :
    (s.modConditions f).board = s.board := rfl

@[simp] theorem State.modConditions_inputs (s : State) (f : ConditionList → ConditionList) :
    (s.modConditions f).inputs = s.inputs := rfl

@[simp] theorem State.modConditions_gaps (s : State) (f : ConditionList → ConditionList) :
    (s.modConditions f).gaps = s.gaps := rfl

@[simp] theorem State.modConditions_positioners (s : State) (f : ConditionList → ConditionList) :
    (s.modConditions f).positioners = s.positioners := rfl

@[simp] theorem State.modConditions_sequencer (s : State) (f : ConditionList → ConditionList) :
    (s.modConditions f).sequencer = s.sequencer := rfl

@[simp] theorem State.modConditions_zeros (s : State) (f : ConditionList → ConditionList) :
    (s.modConditions f).zeros = s.zeros := rfl

@[simp] theorem State.modConditions_governors (s : State) (f : ConditionList → ConditionList) :
    (s.modConditions f).governors = s.governors := rfl

@[simp] theorem State.modConditions_supervisors (s : State) (f : ConditionList → ConditionList) :
    (s.modConditions f).supervisors = s.supervisors := rfl

@[simp] theorem State.modConditions_store (s : State) (f : ConditionList → ConditionList) :
    (s.modConditions f).store = s.store := rfl

@[simp] theorem State.modConditions_links (s : State) (f : ConditionList → ConditionList) :
    (s.modConditions f).links = s.links := rfl

@[simp] theorem State.modConditions_pending (s : State) (f : ConditionList → ConditionList) :
    (s.modConditions f).pending = s.pending := rfl

@[simp] theorem State.modConditions_governor_read (s : State) (f : ConditionList → ConditionList) (u : Train) :
    (s.modConditions f).governor u = s.governor u := rfl

@[simp] theorem State.modConditions_positioner_read (s : State) (f : ConditionList → ConditionList) (u : Train) :
    (s.modConditions f).positioner u = s.positioner u := rfl

@[simp] theorem State.modConditions_gap_read (s : State) (f : ConditionList → ConditionList) (u : Train) :
    (s.modConditions f).gap u = s.gap u := rfl

@[simp] theorem State.modConditions_supervisor_read (s : State) (f : ConditionList → ConditionList) (u : Train) :
    (s.modConditions f).supervisor u = s.supervisor u := rfl

@[simp] theorem State.modConditions_zero_read (s : State) (f : ConditionList → ConditionList) (u : Train) :
    (s.modConditions f).zero u = s.zero u := rfl

@[simp] theorem State.modConditions_crusher_read (s : State) (f : ConditionList → ConditionList) (u : Train) :
    (s.modConditions f).crusher u = s.crusher u := rfl

@[simp] theorem State.modConditions_feeder_read (s : State) (f : ConditionList → ConditionList) (u : Train) :
    (s.modConditions f).feeder u = s.feeder u := rfl

@[simp] theorem State.modConditions_link_read (s : State) (f : ConditionList → ConditionList) (m : Link) :
    (s.modConditions f).link m = s.link m := rfl

@[simp] theorem State.modConditions_station_read (s : State) (f : ConditionList → ConditionList) (st : Station) :
    (s.modConditions f).station st = s.station st := rfl

@[simp] theorem State.modConditions_now_read (s : State) (f : ConditionList → ConditionList) :
    (s.modConditions f).now = s.now := rfl

@[simp] theorem State.modConditions_stamp_read (s : State) (f : ConditionList → ConditionList) :
    (s.modConditions f).stamp = s.stamp := rfl

@[simp] theorem State.modConditions_present_read (s : State) (f : ConditionList → ConditionList) (u : Train) :
    (s.modConditions f).present u = s.present u := rfl

@[simp] theorem State.modConditions_isSubject_read (s : State) (f : ConditionList → ConditionList) (u : Train) :
    (s.modConditions f).isSubject u = s.isSubject u := rfl

@[simp] theorem State.modConditions_estopAsserted_read (s : State) (f : ConditionList → ConditionList) :
    (s.modConditions f).estopAsserted = s.estopAsserted := rfl

/-! ### modSequencer -/

@[simp] theorem State.modSequencer_powered (s : State) (f : Sequencer → Sequencer) :
    (s.modSequencer f).powered = s.powered := rfl

@[simp] theorem State.modSequencer_restart (s : State) (f : Sequencer → Sequencer) :
    (s.modSequencer f).restart = s.restart := rfl

@[simp] theorem State.modSequencer_time (s : State) (f : Sequencer → Sequencer) :
    (s.modSequencer f).time = s.time := rfl

@[simp] theorem State.modSequencer_feeders (s : State) (f : Sequencer → Sequencer) :
    (s.modSequencer f).feeders = s.feeders := rfl

@[simp] theorem State.modSequencer_crushers (s : State) (f : Sequencer → Sequencer) :
    (s.modSequencer f).crushers = s.crushers := rfl

@[simp] theorem State.modSequencer_line (s : State) (f : Sequencer → Sequencer) :
    (s.modSequencer f).line = s.line := rfl

@[simp] theorem State.modSequencer_crusherParams (s : State) (f : Sequencer → Sequencer) :
    (s.modSequencer f).crusherParams = s.crusherParams := rfl

@[simp] theorem State.modSequencer_feederParams (s : State) (f : Sequencer → Sequencer) :
    (s.modSequencer f).feederParams = s.feederParams := rfl

@[simp] theorem State.modSequencer_board (s : State) (f : Sequencer → Sequencer) :
    (s.modSequencer f).board = s.board := rfl

@[simp] theorem State.modSequencer_inputs (s : State) (f : Sequencer → Sequencer) :
    (s.modSequencer f).inputs = s.inputs := rfl

@[simp] theorem State.modSequencer_gaps (s : State) (f : Sequencer → Sequencer) :
    (s.modSequencer f).gaps = s.gaps := rfl

@[simp] theorem State.modSequencer_positioners (s : State) (f : Sequencer → Sequencer) :
    (s.modSequencer f).positioners = s.positioners := rfl

@[simp] theorem State.modSequencer_zeros (s : State) (f : Sequencer → Sequencer) :
    (s.modSequencer f).zeros = s.zeros := rfl

@[simp] theorem State.modSequencer_governors (s : State) (f : Sequencer → Sequencer) :
    (s.modSequencer f).governors = s.governors := rfl

@[simp] theorem State.modSequencer_supervisors (s : State) (f : Sequencer → Sequencer) :
    (s.modSequencer f).supervisors = s.supervisors := rfl

@[simp] theorem State.modSequencer_conditions (s : State) (f : Sequencer → Sequencer) :
    (s.modSequencer f).conditions = s.conditions := rfl

@[simp] theorem State.modSequencer_store (s : State) (f : Sequencer → Sequencer) :
    (s.modSequencer f).store = s.store := rfl

@[simp] theorem State.modSequencer_links (s : State) (f : Sequencer → Sequencer) :
    (s.modSequencer f).links = s.links := rfl

@[simp] theorem State.modSequencer_pending (s : State) (f : Sequencer → Sequencer) :
    (s.modSequencer f).pending = s.pending := rfl

@[simp] theorem State.modSequencer_governor_read (s : State) (f : Sequencer → Sequencer) (u : Train) :
    (s.modSequencer f).governor u = s.governor u := rfl

@[simp] theorem State.modSequencer_positioner_read (s : State) (f : Sequencer → Sequencer) (u : Train) :
    (s.modSequencer f).positioner u = s.positioner u := rfl

@[simp] theorem State.modSequencer_gap_read (s : State) (f : Sequencer → Sequencer) (u : Train) :
    (s.modSequencer f).gap u = s.gap u := rfl

@[simp] theorem State.modSequencer_supervisor_read (s : State) (f : Sequencer → Sequencer) (u : Train) :
    (s.modSequencer f).supervisor u = s.supervisor u := rfl

@[simp] theorem State.modSequencer_zero_read (s : State) (f : Sequencer → Sequencer) (u : Train) :
    (s.modSequencer f).zero u = s.zero u := rfl

@[simp] theorem State.modSequencer_crusher_read (s : State) (f : Sequencer → Sequencer) (u : Train) :
    (s.modSequencer f).crusher u = s.crusher u := rfl

@[simp] theorem State.modSequencer_feeder_read (s : State) (f : Sequencer → Sequencer) (u : Train) :
    (s.modSequencer f).feeder u = s.feeder u := rfl

@[simp] theorem State.modSequencer_link_read (s : State) (f : Sequencer → Sequencer) (m : Link) :
    (s.modSequencer f).link m = s.link m := rfl

@[simp] theorem State.modSequencer_station_read (s : State) (f : Sequencer → Sequencer) (st : Station) :
    (s.modSequencer f).station st = s.station st := rfl

@[simp] theorem State.modSequencer_now_read (s : State) (f : Sequencer → Sequencer) :
    (s.modSequencer f).now = s.now := rfl

@[simp] theorem State.modSequencer_stamp_read (s : State) (f : Sequencer → Sequencer) :
    (s.modSequencer f).stamp = s.stamp := rfl

@[simp] theorem State.modSequencer_present_read (s : State) (f : Sequencer → Sequencer) (u : Train) :
    (s.modSequencer f).present u = s.present u := rfl

@[simp] theorem State.modSequencer_estopAsserted_read (s : State) (f : Sequencer → Sequencer) :
    (s.modSequencer f).estopAsserted = s.estopAsserted := rfl

/-! ### onset -/

@[simp] theorem State.onset_powered (s : State) (code : Code) (sub : Subject) (d : Option Detail) :
    (s.onset code sub d).powered = s.powered := rfl

@[simp] theorem State.onset_restart (s : State) (code : Code) (sub : Subject) (d : Option Detail) :
    (s.onset code sub d).restart = s.restart := rfl

@[simp] theorem State.onset_time (s : State) (code : Code) (sub : Subject) (d : Option Detail) :
    (s.onset code sub d).time = s.time := rfl

@[simp] theorem State.onset_feeders (s : State) (code : Code) (sub : Subject) (d : Option Detail) :
    (s.onset code sub d).feeders = s.feeders := rfl

@[simp] theorem State.onset_crushers (s : State) (code : Code) (sub : Subject) (d : Option Detail) :
    (s.onset code sub d).crushers = s.crushers := rfl

@[simp] theorem State.onset_line (s : State) (code : Code) (sub : Subject) (d : Option Detail) :
    (s.onset code sub d).line = s.line := rfl

@[simp] theorem State.onset_crusherParams (s : State) (code : Code) (sub : Subject) (d : Option Detail) :
    (s.onset code sub d).crusherParams = s.crusherParams := rfl

@[simp] theorem State.onset_feederParams (s : State) (code : Code) (sub : Subject) (d : Option Detail) :
    (s.onset code sub d).feederParams = s.feederParams := rfl

@[simp] theorem State.onset_board (s : State) (code : Code) (sub : Subject) (d : Option Detail) :
    (s.onset code sub d).board = s.board := rfl

@[simp] theorem State.onset_inputs (s : State) (code : Code) (sub : Subject) (d : Option Detail) :
    (s.onset code sub d).inputs = s.inputs := rfl

@[simp] theorem State.onset_gaps (s : State) (code : Code) (sub : Subject) (d : Option Detail) :
    (s.onset code sub d).gaps = s.gaps := rfl

@[simp] theorem State.onset_positioners (s : State) (code : Code) (sub : Subject) (d : Option Detail) :
    (s.onset code sub d).positioners = s.positioners := rfl

@[simp] theorem State.onset_sequencer (s : State) (code : Code) (sub : Subject) (d : Option Detail) :
    (s.onset code sub d).sequencer = s.sequencer := rfl

@[simp] theorem State.onset_zeros (s : State) (code : Code) (sub : Subject) (d : Option Detail) :
    (s.onset code sub d).zeros = s.zeros := rfl

@[simp] theorem State.onset_governors (s : State) (code : Code) (sub : Subject) (d : Option Detail) :
    (s.onset code sub d).governors = s.governors := rfl

@[simp] theorem State.onset_supervisors (s : State) (code : Code) (sub : Subject) (d : Option Detail) :
    (s.onset code sub d).supervisors = s.supervisors := rfl

@[simp] theorem State.onset_store (s : State) (code : Code) (sub : Subject) (d : Option Detail) :
    (s.onset code sub d).store = s.store := rfl

@[simp] theorem State.onset_links (s : State) (code : Code) (sub : Subject) (d : Option Detail) :
    (s.onset code sub d).links = s.links := rfl

@[simp] theorem State.onset_pending (s : State) (code : Code) (sub : Subject) (d : Option Detail) :
    (s.onset code sub d).pending = s.pending := rfl

/-! ### causeEnd -/

@[simp] theorem State.causeEnd_powered (s : State) (code : Code) (sub : Subject) :
    (s.causeEnd code sub).powered = s.powered := rfl

@[simp] theorem State.causeEnd_restart (s : State) (code : Code) (sub : Subject) :
    (s.causeEnd code sub).restart = s.restart := rfl

@[simp] theorem State.causeEnd_time (s : State) (code : Code) (sub : Subject) :
    (s.causeEnd code sub).time = s.time := rfl

@[simp] theorem State.causeEnd_feeders (s : State) (code : Code) (sub : Subject) :
    (s.causeEnd code sub).feeders = s.feeders := rfl

@[simp] theorem State.causeEnd_crushers (s : State) (code : Code) (sub : Subject) :
    (s.causeEnd code sub).crushers = s.crushers := rfl

@[simp] theorem State.causeEnd_line (s : State) (code : Code) (sub : Subject) :
    (s.causeEnd code sub).line = s.line := rfl

@[simp] theorem State.causeEnd_crusherParams (s : State) (code : Code) (sub : Subject) :
    (s.causeEnd code sub).crusherParams = s.crusherParams := rfl

@[simp] theorem State.causeEnd_feederParams (s : State) (code : Code) (sub : Subject) :
    (s.causeEnd code sub).feederParams = s.feederParams := rfl

@[simp] theorem State.causeEnd_board (s : State) (code : Code) (sub : Subject) :
    (s.causeEnd code sub).board = s.board := rfl

@[simp] theorem State.causeEnd_inputs (s : State) (code : Code) (sub : Subject) :
    (s.causeEnd code sub).inputs = s.inputs := rfl

@[simp] theorem State.causeEnd_gaps (s : State) (code : Code) (sub : Subject) :
    (s.causeEnd code sub).gaps = s.gaps := rfl

@[simp] theorem State.causeEnd_positioners (s : State) (code : Code) (sub : Subject) :
    (s.causeEnd code sub).positioners = s.positioners := rfl

@[simp] theorem State.causeEnd_sequencer (s : State) (code : Code) (sub : Subject) :
    (s.causeEnd code sub).sequencer = s.sequencer := rfl

@[simp] theorem State.causeEnd_zeros (s : State) (code : Code) (sub : Subject) :
    (s.causeEnd code sub).zeros = s.zeros := rfl

@[simp] theorem State.causeEnd_governors (s : State) (code : Code) (sub : Subject) :
    (s.causeEnd code sub).governors = s.governors := rfl

@[simp] theorem State.causeEnd_supervisors (s : State) (code : Code) (sub : Subject) :
    (s.causeEnd code sub).supervisors = s.supervisors := rfl

@[simp] theorem State.causeEnd_store (s : State) (code : Code) (sub : Subject) :
    (s.causeEnd code sub).store = s.store := rfl

@[simp] theorem State.causeEnd_links (s : State) (code : Code) (sub : Subject) :
    (s.causeEnd code sub).links = s.links := rfl

@[simp] theorem State.causeEnd_pending (s : State) (code : Code) (sub : Subject) :
    (s.causeEnd code sub).pending = s.pending := rfl

/-! ### addHold -/

@[simp] theorem State.addHold_powered (s : State) (t : Train) (c : Hold) :
    (s.addHold t c).powered = s.powered := rfl

@[simp] theorem State.addHold_restart (s : State) (t : Train) (c : Hold) :
    (s.addHold t c).restart = s.restart := rfl

@[simp] theorem State.addHold_time (s : State) (t : Train) (c : Hold) :
    (s.addHold t c).time = s.time := rfl

@[simp] theorem State.addHold_feeders (s : State) (t : Train) (c : Hold) :
    (s.addHold t c).feeders = s.feeders := rfl

@[simp] theorem State.addHold_crushers (s : State) (t : Train) (c : Hold) :
    (s.addHold t c).crushers = s.crushers := rfl

@[simp] theorem State.addHold_line (s : State) (t : Train) (c : Hold) :
    (s.addHold t c).line = s.line := rfl

@[simp] theorem State.addHold_crusherParams (s : State) (t : Train) (c : Hold) :
    (s.addHold t c).crusherParams = s.crusherParams := rfl

@[simp] theorem State.addHold_feederParams (s : State) (t : Train) (c : Hold) :
    (s.addHold t c).feederParams = s.feederParams := rfl

@[simp] theorem State.addHold_board (s : State) (t : Train) (c : Hold) :
    (s.addHold t c).board = s.board := rfl

@[simp] theorem State.addHold_inputs (s : State) (t : Train) (c : Hold) :
    (s.addHold t c).inputs = s.inputs := rfl

@[simp] theorem State.addHold_gaps (s : State) (t : Train) (c : Hold) :
    (s.addHold t c).gaps = s.gaps := rfl

@[simp] theorem State.addHold_positioners (s : State) (t : Train) (c : Hold) :
    (s.addHold t c).positioners = s.positioners := rfl

@[simp] theorem State.addHold_sequencer (s : State) (t : Train) (c : Hold) :
    (s.addHold t c).sequencer = s.sequencer := rfl

@[simp] theorem State.addHold_zeros (s : State) (t : Train) (c : Hold) :
    (s.addHold t c).zeros = s.zeros := rfl

@[simp] theorem State.addHold_supervisors (s : State) (t : Train) (c : Hold) :
    (s.addHold t c).supervisors = s.supervisors := rfl

@[simp] theorem State.addHold_conditions (s : State) (t : Train) (c : Hold) :
    (s.addHold t c).conditions = s.conditions := rfl

@[simp] theorem State.addHold_store (s : State) (t : Train) (c : Hold) :
    (s.addHold t c).store = s.store := rfl

@[simp] theorem State.addHold_links (s : State) (t : Train) (c : Hold) :
    (s.addHold t c).links = s.links := rfl

@[simp] theorem State.addHold_pending (s : State) (t : Train) (c : Hold) :
    (s.addHold t c).pending = s.pending := rfl

@[simp] theorem State.addHold_positioner_read (s : State) (t : Train) (c : Hold) (u : Train) :
    (s.addHold t c).positioner u = s.positioner u := rfl

@[simp] theorem State.addHold_gap_read (s : State) (t : Train) (c : Hold) (u : Train) :
    (s.addHold t c).gap u = s.gap u := rfl

@[simp] theorem State.addHold_supervisor_read (s : State) (t : Train) (c : Hold) (u : Train) :
    (s.addHold t c).supervisor u = s.supervisor u := rfl

@[simp] theorem State.addHold_zero_read (s : State) (t : Train) (c : Hold) (u : Train) :
    (s.addHold t c).zero u = s.zero u := rfl

@[simp] theorem State.addHold_crusher_read (s : State) (t : Train) (c : Hold) (u : Train) :
    (s.addHold t c).crusher u = s.crusher u := rfl

@[simp] theorem State.addHold_feeder_read (s : State) (t : Train) (c : Hold) (u : Train) :
    (s.addHold t c).feeder u = s.feeder u := rfl

@[simp] theorem State.addHold_link_read (s : State) (t : Train) (c : Hold) (m : Link) :
    (s.addHold t c).link m = s.link m := rfl

@[simp] theorem State.addHold_station_read (s : State) (t : Train) (c : Hold) (st : Station) :
    (s.addHold t c).station st = s.station st := rfl

@[simp] theorem State.addHold_now_read (s : State) (t : Train) (c : Hold) :
    (s.addHold t c).now = s.now := rfl

@[simp] theorem State.addHold_stamp_read (s : State) (t : Train) (c : Hold) :
    (s.addHold t c).stamp = s.stamp := rfl

@[simp] theorem State.addHold_present_read (s : State) (t : Train) (c : Hold) (u : Train) :
    (s.addHold t c).present u = s.present u := rfl

@[simp] theorem State.addHold_isSubject_read (s : State) (t : Train) (c : Hold) (u : Train) :
    (s.addHold t c).isSubject u = s.isSubject u := rfl

@[simp] theorem State.addHold_estopAsserted_read (s : State) (t : Train) (c : Hold) :
    (s.addHold t c).estopAsserted = s.estopAsserted := rfl

/-! ### removeHold -/

@[simp] theorem State.removeHold_powered (s : State) (t : Train) (c : Hold) :
    (s.removeHold t c).powered = s.powered := rfl

@[simp] theorem State.removeHold_restart (s : State) (t : Train) (c : Hold) :
    (s.removeHold t c).restart = s.restart := rfl

@[simp] theorem State.removeHold_time (s : State) (t : Train) (c : Hold) :
    (s.removeHold t c).time = s.time := rfl

@[simp] theorem State.removeHold_feeders (s : State) (t : Train) (c : Hold) :
    (s.removeHold t c).feeders = s.feeders := rfl

@[simp] theorem State.removeHold_crushers (s : State) (t : Train) (c : Hold) :
    (s.removeHold t c).crushers = s.crushers := rfl

@[simp] theorem State.removeHold_line (s : State) (t : Train) (c : Hold) :
    (s.removeHold t c).line = s.line := rfl

@[simp] theorem State.removeHold_crusherParams (s : State) (t : Train) (c : Hold) :
    (s.removeHold t c).crusherParams = s.crusherParams := rfl

@[simp] theorem State.removeHold_feederParams (s : State) (t : Train) (c : Hold) :
    (s.removeHold t c).feederParams = s.feederParams := rfl

@[simp] theorem State.removeHold_board (s : State) (t : Train) (c : Hold) :
    (s.removeHold t c).board = s.board := rfl

@[simp] theorem State.removeHold_inputs (s : State) (t : Train) (c : Hold) :
    (s.removeHold t c).inputs = s.inputs := rfl

@[simp] theorem State.removeHold_gaps (s : State) (t : Train) (c : Hold) :
    (s.removeHold t c).gaps = s.gaps := rfl

@[simp] theorem State.removeHold_positioners (s : State) (t : Train) (c : Hold) :
    (s.removeHold t c).positioners = s.positioners := rfl

@[simp] theorem State.removeHold_sequencer (s : State) (t : Train) (c : Hold) :
    (s.removeHold t c).sequencer = s.sequencer := rfl

@[simp] theorem State.removeHold_zeros (s : State) (t : Train) (c : Hold) :
    (s.removeHold t c).zeros = s.zeros := rfl

@[simp] theorem State.removeHold_supervisors (s : State) (t : Train) (c : Hold) :
    (s.removeHold t c).supervisors = s.supervisors := rfl

@[simp] theorem State.removeHold_conditions (s : State) (t : Train) (c : Hold) :
    (s.removeHold t c).conditions = s.conditions := rfl

@[simp] theorem State.removeHold_store (s : State) (t : Train) (c : Hold) :
    (s.removeHold t c).store = s.store := rfl

@[simp] theorem State.removeHold_links (s : State) (t : Train) (c : Hold) :
    (s.removeHold t c).links = s.links := rfl

@[simp] theorem State.removeHold_pending (s : State) (t : Train) (c : Hold) :
    (s.removeHold t c).pending = s.pending := rfl

@[simp] theorem State.removeHold_positioner_read (s : State) (t : Train) (c : Hold) (u : Train) :
    (s.removeHold t c).positioner u = s.positioner u := rfl

@[simp] theorem State.removeHold_gap_read (s : State) (t : Train) (c : Hold) (u : Train) :
    (s.removeHold t c).gap u = s.gap u := rfl

@[simp] theorem State.removeHold_supervisor_read (s : State) (t : Train) (c : Hold) (u : Train) :
    (s.removeHold t c).supervisor u = s.supervisor u := rfl

@[simp] theorem State.removeHold_zero_read (s : State) (t : Train) (c : Hold) (u : Train) :
    (s.removeHold t c).zero u = s.zero u := rfl

@[simp] theorem State.removeHold_crusher_read (s : State) (t : Train) (c : Hold) (u : Train) :
    (s.removeHold t c).crusher u = s.crusher u := rfl

@[simp] theorem State.removeHold_feeder_read (s : State) (t : Train) (c : Hold) (u : Train) :
    (s.removeHold t c).feeder u = s.feeder u := rfl

@[simp] theorem State.removeHold_link_read (s : State) (t : Train) (c : Hold) (m : Link) :
    (s.removeHold t c).link m = s.link m := rfl

@[simp] theorem State.removeHold_station_read (s : State) (t : Train) (c : Hold) (st : Station) :
    (s.removeHold t c).station st = s.station st := rfl

@[simp] theorem State.removeHold_now_read (s : State) (t : Train) (c : Hold) :
    (s.removeHold t c).now = s.now := rfl

@[simp] theorem State.removeHold_stamp_read (s : State) (t : Train) (c : Hold) :
    (s.removeHold t c).stamp = s.stamp := rfl

@[simp] theorem State.removeHold_present_read (s : State) (t : Train) (c : Hold) (u : Train) :
    (s.removeHold t c).present u = s.present u := rfl

@[simp] theorem State.removeHold_isSubject_read (s : State) (t : Train) (c : Hold) (u : Train) :
    (s.removeHold t c).isSubject u = s.isSubject u := rfl

@[simp] theorem State.removeHold_estopAsserted_read (s : State) (t : Train) (c : Hold) :
    (s.removeHold t c).estopAsserted = s.estopAsserted := rfl

/-! ### freeSlot -/

@[simp] theorem State.freeSlot_powered (s : State) (i : Nat) :
    (s.freeSlot i).powered = s.powered := rfl

@[simp] theorem State.freeSlot_restart (s : State) (i : Nat) :
    (s.freeSlot i).restart = s.restart := rfl

@[simp] theorem State.freeSlot_time (s : State) (i : Nat) :
    (s.freeSlot i).time = s.time := rfl

@[simp] theorem State.freeSlot_feeders (s : State) (i : Nat) :
    (s.freeSlot i).feeders = s.feeders := rfl

@[simp] theorem State.freeSlot_crushers (s : State) (i : Nat) :
    (s.freeSlot i).crushers = s.crushers := rfl

@[simp] theorem State.freeSlot_line (s : State) (i : Nat) :
    (s.freeSlot i).line = s.line := rfl

@[simp] theorem State.freeSlot_crusherParams (s : State) (i : Nat) :
    (s.freeSlot i).crusherParams = s.crusherParams := rfl

@[simp] theorem State.freeSlot_feederParams (s : State) (i : Nat) :
    (s.freeSlot i).feederParams = s.feederParams := rfl

@[simp] theorem State.freeSlot_inputs (s : State) (i : Nat) :
    (s.freeSlot i).inputs = s.inputs := rfl

@[simp] theorem State.freeSlot_gaps (s : State) (i : Nat) :
    (s.freeSlot i).gaps = s.gaps := rfl

@[simp] theorem State.freeSlot_positioners (s : State) (i : Nat) :
    (s.freeSlot i).positioners = s.positioners := rfl

@[simp] theorem State.freeSlot_sequencer (s : State) (i : Nat) :
    (s.freeSlot i).sequencer = s.sequencer := rfl

@[simp] theorem State.freeSlot_zeros (s : State) (i : Nat) :
    (s.freeSlot i).zeros = s.zeros := rfl

@[simp] theorem State.freeSlot_governors (s : State) (i : Nat) :
    (s.freeSlot i).governors = s.governors := rfl

@[simp] theorem State.freeSlot_supervisors (s : State) (i : Nat) :
    (s.freeSlot i).supervisors = s.supervisors := rfl

@[simp] theorem State.freeSlot_conditions (s : State) (i : Nat) :
    (s.freeSlot i).conditions = s.conditions := rfl

@[simp] theorem State.freeSlot_store (s : State) (i : Nat) :
    (s.freeSlot i).store = s.store := rfl

@[simp] theorem State.freeSlot_links (s : State) (i : Nat) :
    (s.freeSlot i).links = s.links := rfl

@[simp] theorem State.freeSlot_pending (s : State) (i : Nat) :
    (s.freeSlot i).pending = s.pending := rfl

/-! ### receiving -/

@[simp] theorem State.receiving_powered (s : State) (l : Link) (r : Option Receiving) :
    (s.receiving l r).powered = s.powered := rfl

@[simp] theorem State.receiving_restart (s : State) (l : Link) (r : Option Receiving) :
    (s.receiving l r).restart = s.restart := rfl

@[simp] theorem State.receiving_time (s : State) (l : Link) (r : Option Receiving) :
    (s.receiving l r).time = s.time := rfl

@[simp] theorem State.receiving_feeders (s : State) (l : Link) (r : Option Receiving) :
    (s.receiving l r).feeders = s.feeders := rfl

@[simp] theorem State.receiving_crushers (s : State) (l : Link) (r : Option Receiving) :
    (s.receiving l r).crushers = s.crushers := rfl

@[simp] theorem State.receiving_line (s : State) (l : Link) (r : Option Receiving) :
    (s.receiving l r).line = s.line := rfl

@[simp] theorem State.receiving_crusherParams (s : State) (l : Link) (r : Option Receiving) :
    (s.receiving l r).crusherParams = s.crusherParams := rfl

@[simp] theorem State.receiving_feederParams (s : State) (l : Link) (r : Option Receiving) :
    (s.receiving l r).feederParams = s.feederParams := rfl

@[simp] theorem State.receiving_board (s : State) (l : Link) (r : Option Receiving) :
    (s.receiving l r).board = s.board := rfl

@[simp] theorem State.receiving_inputs (s : State) (l : Link) (r : Option Receiving) :
    (s.receiving l r).inputs = s.inputs := rfl

@[simp] theorem State.receiving_gaps (s : State) (l : Link) (r : Option Receiving) :
    (s.receiving l r).gaps = s.gaps := rfl

@[simp] theorem State.receiving_positioners (s : State) (l : Link) (r : Option Receiving) :
    (s.receiving l r).positioners = s.positioners := rfl

@[simp] theorem State.receiving_sequencer (s : State) (l : Link) (r : Option Receiving) :
    (s.receiving l r).sequencer = s.sequencer := rfl

@[simp] theorem State.receiving_zeros (s : State) (l : Link) (r : Option Receiving) :
    (s.receiving l r).zeros = s.zeros := rfl

@[simp] theorem State.receiving_governors (s : State) (l : Link) (r : Option Receiving) :
    (s.receiving l r).governors = s.governors := rfl

@[simp] theorem State.receiving_supervisors (s : State) (l : Link) (r : Option Receiving) :
    (s.receiving l r).supervisors = s.supervisors := rfl

@[simp] theorem State.receiving_conditions (s : State) (l : Link) (r : Option Receiving) :
    (s.receiving l r).conditions = s.conditions := rfl

@[simp] theorem State.receiving_store (s : State) (l : Link) (r : Option Receiving) :
    (s.receiving l r).store = s.store := rfl

@[simp] theorem State.receiving_pending (s : State) (l : Link) (r : Option Receiving) :
    (s.receiving l r).pending = s.pending := rfl

/-! ### withPending -/

@[simp] theorem State.withPending_powered (s : State) (q : List Instr) :
    (s.withPending q).powered = s.powered := rfl

@[simp] theorem State.withPending_restart (s : State) (q : List Instr) :
    (s.withPending q).restart = s.restart := rfl

@[simp] theorem State.withPending_time (s : State) (q : List Instr) :
    (s.withPending q).time = s.time := rfl

@[simp] theorem State.withPending_feeders (s : State) (q : List Instr) :
    (s.withPending q).feeders = s.feeders := rfl

@[simp] theorem State.withPending_crushers (s : State) (q : List Instr) :
    (s.withPending q).crushers = s.crushers := rfl

@[simp] theorem State.withPending_line (s : State) (q : List Instr) :
    (s.withPending q).line = s.line := rfl

@[simp] theorem State.withPending_crusherParams (s : State) (q : List Instr) :
    (s.withPending q).crusherParams = s.crusherParams := rfl

@[simp] theorem State.withPending_feederParams (s : State) (q : List Instr) :
    (s.withPending q).feederParams = s.feederParams := rfl

@[simp] theorem State.withPending_board (s : State) (q : List Instr) :
    (s.withPending q).board = s.board := rfl

@[simp] theorem State.withPending_inputs (s : State) (q : List Instr) :
    (s.withPending q).inputs = s.inputs := rfl

@[simp] theorem State.withPending_gaps (s : State) (q : List Instr) :
    (s.withPending q).gaps = s.gaps := rfl

@[simp] theorem State.withPending_positioners (s : State) (q : List Instr) :
    (s.withPending q).positioners = s.positioners := rfl

@[simp] theorem State.withPending_sequencer (s : State) (q : List Instr) :
    (s.withPending q).sequencer = s.sequencer := rfl

@[simp] theorem State.withPending_zeros (s : State) (q : List Instr) :
    (s.withPending q).zeros = s.zeros := rfl

@[simp] theorem State.withPending_governors (s : State) (q : List Instr) :
    (s.withPending q).governors = s.governors := rfl

@[simp] theorem State.withPending_supervisors (s : State) (q : List Instr) :
    (s.withPending q).supervisors = s.supervisors := rfl

@[simp] theorem State.withPending_conditions (s : State) (q : List Instr) :
    (s.withPending q).conditions = s.conditions := rfl

@[simp] theorem State.withPending_store (s : State) (q : List Instr) :
    (s.withPending q).store = s.store := rfl

@[simp] theorem State.withPending_links (s : State) (q : List Instr) :
    (s.withPending q).links = s.links := rfl

@[simp] theorem State.withPending_pending (s : State) (q : List Instr) :
    (s.withPending q).pending = q := rfl

@[simp] theorem State.withPending_governor_read (s : State) (q : List Instr) (u : Train) :
    (s.withPending q).governor u = s.governor u := rfl

@[simp] theorem State.withPending_positioner_read (s : State) (q : List Instr) (u : Train) :
    (s.withPending q).positioner u = s.positioner u := rfl

@[simp] theorem State.withPending_gap_read (s : State) (q : List Instr) (u : Train) :
    (s.withPending q).gap u = s.gap u := rfl

@[simp] theorem State.withPending_supervisor_read (s : State) (q : List Instr) (u : Train) :
    (s.withPending q).supervisor u = s.supervisor u := rfl

@[simp] theorem State.withPending_zero_read (s : State) (q : List Instr) (u : Train) :
    (s.withPending q).zero u = s.zero u := rfl

@[simp] theorem State.withPending_crusher_read (s : State) (q : List Instr) (u : Train) :
    (s.withPending q).crusher u = s.crusher u := rfl

@[simp] theorem State.withPending_feeder_read (s : State) (q : List Instr) (u : Train) :
    (s.withPending q).feeder u = s.feeder u := rfl

@[simp] theorem State.withPending_link_read (s : State) (q : List Instr) (m : Link) :
    (s.withPending q).link m = s.link m := rfl

@[simp] theorem State.withPending_station_read (s : State) (q : List Instr) (st : Station) :
    (s.withPending q).station st = s.station st := rfl

@[simp] theorem State.withPending_now_read (s : State) (q : List Instr) :
    (s.withPending q).now = s.now := rfl

@[simp] theorem State.withPending_stamp_read (s : State) (q : List Instr) :
    (s.withPending q).stamp = s.stamp := rfl

@[simp] theorem State.withPending_present_read (s : State) (q : List Instr) (u : Train) :
    (s.withPending q).present u = s.present u := rfl

@[simp] theorem State.withPending_isSubject_read (s : State) (q : List Instr) (u : Train) :
    (s.withPending q).isSubject u = s.isSubject u := rfl

@[simp] theorem State.withPending_estopAsserted_read (s : State) (q : List Instr) :
    (s.withPending q).estopAsserted = s.estopAsserted := rfl

/-! ### withTime -/

@[simp] theorem State.withTime_powered (s : State) (x : TimeBase) :
    (s.withTime x).powered = s.powered := rfl

@[simp] theorem State.withTime_restart (s : State) (x : TimeBase) :
    (s.withTime x).restart = s.restart := rfl

@[simp] theorem State.withTime_feeders (s : State) (x : TimeBase) :
    (s.withTime x).feeders = s.feeders := rfl

@[simp] theorem State.withTime_crushers (s : State) (x : TimeBase) :
    (s.withTime x).crushers = s.crushers := rfl

@[simp] theorem State.withTime_line (s : State) (x : TimeBase) :
    (s.withTime x).line = s.line := rfl

@[simp] theorem State.withTime_crusherParams (s : State) (x : TimeBase) :
    (s.withTime x).crusherParams = s.crusherParams := rfl

@[simp] theorem State.withTime_feederParams (s : State) (x : TimeBase) :
    (s.withTime x).feederParams = s.feederParams := rfl

@[simp] theorem State.withTime_board (s : State) (x : TimeBase) :
    (s.withTime x).board = s.board := rfl

@[simp] theorem State.withTime_inputs (s : State) (x : TimeBase) :
    (s.withTime x).inputs = s.inputs := rfl

@[simp] theorem State.withTime_gaps (s : State) (x : TimeBase) :
    (s.withTime x).gaps = s.gaps := rfl

@[simp] theorem State.withTime_positioners (s : State) (x : TimeBase) :
    (s.withTime x).positioners = s.positioners := rfl

@[simp] theorem State.withTime_sequencer (s : State) (x : TimeBase) :
    (s.withTime x).sequencer = s.sequencer := rfl

@[simp] theorem State.withTime_zeros (s : State) (x : TimeBase) :
    (s.withTime x).zeros = s.zeros := rfl

@[simp] theorem State.withTime_governors (s : State) (x : TimeBase) :
    (s.withTime x).governors = s.governors := rfl

@[simp] theorem State.withTime_supervisors (s : State) (x : TimeBase) :
    (s.withTime x).supervisors = s.supervisors := rfl

@[simp] theorem State.withTime_conditions (s : State) (x : TimeBase) :
    (s.withTime x).conditions = s.conditions := rfl

@[simp] theorem State.withTime_store (s : State) (x : TimeBase) :
    (s.withTime x).store = s.store := rfl

@[simp] theorem State.withTime_links (s : State) (x : TimeBase) :
    (s.withTime x).links = s.links := rfl

@[simp] theorem State.withTime_pending (s : State) (x : TimeBase) :
    (s.withTime x).pending = s.pending := rfl

@[simp] theorem State.withTime_time (s : State) (x : TimeBase) :
    (s.withTime x).time = x := rfl

@[simp] theorem State.withTime_governor_read (s : State) (x : TimeBase) (u : Train) :
    (s.withTime x).governor u = s.governor u := rfl

@[simp] theorem State.withTime_positioner_read (s : State) (x : TimeBase) (u : Train) :
    (s.withTime x).positioner u = s.positioner u := rfl

@[simp] theorem State.withTime_gap_read (s : State) (x : TimeBase) (u : Train) :
    (s.withTime x).gap u = s.gap u := rfl

@[simp] theorem State.withTime_supervisor_read (s : State) (x : TimeBase) (u : Train) :
    (s.withTime x).supervisor u = s.supervisor u := rfl

@[simp] theorem State.withTime_zero_read (s : State) (x : TimeBase) (u : Train) :
    (s.withTime x).zero u = s.zero u := rfl

@[simp] theorem State.withTime_crusher_read (s : State) (x : TimeBase) (u : Train) :
    (s.withTime x).crusher u = s.crusher u := rfl

@[simp] theorem State.withTime_feeder_read (s : State) (x : TimeBase) (u : Train) :
    (s.withTime x).feeder u = s.feeder u := rfl

@[simp] theorem State.withTime_link_read (s : State) (x : TimeBase) (m : Link) :
    (s.withTime x).link m = s.link m := rfl

@[simp] theorem State.withTime_station_read (s : State) (x : TimeBase) (st : Station) :
    (s.withTime x).station st = s.station st := rfl

@[simp] theorem State.withTime_present_read (s : State) (x : TimeBase) (u : Train) :
    (s.withTime x).present u = s.present u := rfl

@[simp] theorem State.withTime_isSubject_read (s : State) (x : TimeBase) (u : Train) :
    (s.withTime x).isSubject u = s.isSubject u := rfl

@[simp] theorem State.withTime_estopAsserted_read (s : State) (x : TimeBase) :
    (s.withTime x).estopAsserted = s.estopAsserted := rfl

/-! ### withRestart -/

@[simp] theorem State.withRestart_powered (s : State) (x : RestartPhase) :
    (s.withRestart x).powered = s.powered := rfl

@[simp] theorem State.withRestart_time (s : State) (x : RestartPhase) :
    (s.withRestart x).time = s.time := rfl

@[simp] theorem State.withRestart_feeders (s : State) (x : RestartPhase) :
    (s.withRestart x).feeders = s.feeders := rfl

@[simp] theorem State.withRestart_crushers (s : State) (x : RestartPhase) :
    (s.withRestart x).crushers = s.crushers := rfl

@[simp] theorem State.withRestart_line (s : State) (x : RestartPhase) :
    (s.withRestart x).line = s.line := rfl

@[simp] theorem State.withRestart_crusherParams (s : State) (x : RestartPhase) :
    (s.withRestart x).crusherParams = s.crusherParams := rfl

@[simp] theorem State.withRestart_feederParams (s : State) (x : RestartPhase) :
    (s.withRestart x).feederParams = s.feederParams := rfl

@[simp] theorem State.withRestart_board (s : State) (x : RestartPhase) :
    (s.withRestart x).board = s.board := rfl

@[simp] theorem State.withRestart_inputs (s : State) (x : RestartPhase) :
    (s.withRestart x).inputs = s.inputs := rfl

@[simp] theorem State.withRestart_gaps (s : State) (x : RestartPhase) :
    (s.withRestart x).gaps = s.gaps := rfl

@[simp] theorem State.withRestart_positioners (s : State) (x : RestartPhase) :
    (s.withRestart x).positioners = s.positioners := rfl

@[simp] theorem State.withRestart_sequencer (s : State) (x : RestartPhase) :
    (s.withRestart x).sequencer = s.sequencer := rfl

@[simp] theorem State.withRestart_zeros (s : State) (x : RestartPhase) :
    (s.withRestart x).zeros = s.zeros := rfl

@[simp] theorem State.withRestart_governors (s : State) (x : RestartPhase) :
    (s.withRestart x).governors = s.governors := rfl

@[simp] theorem State.withRestart_supervisors (s : State) (x : RestartPhase) :
    (s.withRestart x).supervisors = s.supervisors := rfl

@[simp] theorem State.withRestart_conditions (s : State) (x : RestartPhase) :
    (s.withRestart x).conditions = s.conditions := rfl

@[simp] theorem State.withRestart_store (s : State) (x : RestartPhase) :
    (s.withRestart x).store = s.store := rfl

@[simp] theorem State.withRestart_links (s : State) (x : RestartPhase) :
    (s.withRestart x).links = s.links := rfl

@[simp] theorem State.withRestart_pending (s : State) (x : RestartPhase) :
    (s.withRestart x).pending = s.pending := rfl

@[simp] theorem State.withRestart_restart (s : State) (x : RestartPhase) :
    (s.withRestart x).restart = x := rfl

@[simp] theorem State.withRestart_governor_read (s : State) (x : RestartPhase) (u : Train) :
    (s.withRestart x).governor u = s.governor u := rfl

@[simp] theorem State.withRestart_positioner_read (s : State) (x : RestartPhase) (u : Train) :
    (s.withRestart x).positioner u = s.positioner u := rfl

@[simp] theorem State.withRestart_gap_read (s : State) (x : RestartPhase) (u : Train) :
    (s.withRestart x).gap u = s.gap u := rfl

@[simp] theorem State.withRestart_supervisor_read (s : State) (x : RestartPhase) (u : Train) :
    (s.withRestart x).supervisor u = s.supervisor u := rfl

@[simp] theorem State.withRestart_zero_read (s : State) (x : RestartPhase) (u : Train) :
    (s.withRestart x).zero u = s.zero u := rfl

@[simp] theorem State.withRestart_crusher_read (s : State) (x : RestartPhase) (u : Train) :
    (s.withRestart x).crusher u = s.crusher u := rfl

@[simp] theorem State.withRestart_feeder_read (s : State) (x : RestartPhase) (u : Train) :
    (s.withRestart x).feeder u = s.feeder u := rfl

@[simp] theorem State.withRestart_link_read (s : State) (x : RestartPhase) (m : Link) :
    (s.withRestart x).link m = s.link m := rfl

@[simp] theorem State.withRestart_station_read (s : State) (x : RestartPhase) (st : Station) :
    (s.withRestart x).station st = s.station st := rfl

@[simp] theorem State.withRestart_now_read (s : State) (x : RestartPhase) :
    (s.withRestart x).now = s.now := rfl

@[simp] theorem State.withRestart_stamp_read (s : State) (x : RestartPhase) :
    (s.withRestart x).stamp = s.stamp := rfl

@[simp] theorem State.withRestart_present_read (s : State) (x : RestartPhase) (u : Train) :
    (s.withRestart x).present u = s.present u := rfl

@[simp] theorem State.withRestart_isSubject_read (s : State) (x : RestartPhase) (u : Train) :
    (s.withRestart x).isSubject u = s.isSubject u := rfl

@[simp] theorem State.withRestart_estopAsserted_read (s : State) (x : RestartPhase) :
    (s.withRestart x).estopAsserted = s.estopAsserted := rfl

/-! ### withLine -/

@[simp] theorem State.withLine_powered (s : State) (x : LineParams) :
    (s.withLine x).powered = s.powered := rfl

@[simp] theorem State.withLine_restart (s : State) (x : LineParams) :
    (s.withLine x).restart = s.restart := rfl

@[simp] theorem State.withLine_time (s : State) (x : LineParams) :
    (s.withLine x).time = s.time := rfl

@[simp] theorem State.withLine_feeders (s : State) (x : LineParams) :
    (s.withLine x).feeders = s.feeders := rfl

@[simp] theorem State.withLine_crushers (s : State) (x : LineParams) :
    (s.withLine x).crushers = s.crushers := rfl

@[simp] theorem State.withLine_crusherParams (s : State) (x : LineParams) :
    (s.withLine x).crusherParams = s.crusherParams := rfl

@[simp] theorem State.withLine_feederParams (s : State) (x : LineParams) :
    (s.withLine x).feederParams = s.feederParams := rfl

@[simp] theorem State.withLine_board (s : State) (x : LineParams) :
    (s.withLine x).board = s.board := rfl

@[simp] theorem State.withLine_inputs (s : State) (x : LineParams) :
    (s.withLine x).inputs = s.inputs := rfl

@[simp] theorem State.withLine_gaps (s : State) (x : LineParams) :
    (s.withLine x).gaps = s.gaps := rfl

@[simp] theorem State.withLine_positioners (s : State) (x : LineParams) :
    (s.withLine x).positioners = s.positioners := rfl

@[simp] theorem State.withLine_sequencer (s : State) (x : LineParams) :
    (s.withLine x).sequencer = s.sequencer := rfl

@[simp] theorem State.withLine_zeros (s : State) (x : LineParams) :
    (s.withLine x).zeros = s.zeros := rfl

@[simp] theorem State.withLine_governors (s : State) (x : LineParams) :
    (s.withLine x).governors = s.governors := rfl

@[simp] theorem State.withLine_supervisors (s : State) (x : LineParams) :
    (s.withLine x).supervisors = s.supervisors := rfl

@[simp] theorem State.withLine_conditions (s : State) (x : LineParams) :
    (s.withLine x).conditions = s.conditions := rfl

@[simp] theorem State.withLine_store (s : State) (x : LineParams) :
    (s.withLine x).store = s.store := rfl

@[simp] theorem State.withLine_links (s : State) (x : LineParams) :
    (s.withLine x).links = s.links := rfl

@[simp] theorem State.withLine_pending (s : State) (x : LineParams) :
    (s.withLine x).pending = s.pending := rfl

@[simp] theorem State.withLine_line (s : State) (x : LineParams) :
    (s.withLine x).line = x := rfl

@[simp] theorem State.withLine_governor_read (s : State) (x : LineParams) (u : Train) :
    (s.withLine x).governor u = s.governor u := rfl

@[simp] theorem State.withLine_positioner_read (s : State) (x : LineParams) (u : Train) :
    (s.withLine x).positioner u = s.positioner u := rfl

@[simp] theorem State.withLine_gap_read (s : State) (x : LineParams) (u : Train) :
    (s.withLine x).gap u = s.gap u := rfl

@[simp] theorem State.withLine_supervisor_read (s : State) (x : LineParams) (u : Train) :
    (s.withLine x).supervisor u = s.supervisor u := rfl

@[simp] theorem State.withLine_zero_read (s : State) (x : LineParams) (u : Train) :
    (s.withLine x).zero u = s.zero u := rfl

@[simp] theorem State.withLine_crusher_read (s : State) (x : LineParams) (u : Train) :
    (s.withLine x).crusher u = s.crusher u := rfl

@[simp] theorem State.withLine_feeder_read (s : State) (x : LineParams) (u : Train) :
    (s.withLine x).feeder u = s.feeder u := rfl

@[simp] theorem State.withLine_link_read (s : State) (x : LineParams) (m : Link) :
    (s.withLine x).link m = s.link m := rfl

@[simp] theorem State.withLine_station_read (s : State) (x : LineParams) (st : Station) :
    (s.withLine x).station st = s.station st := rfl

@[simp] theorem State.withLine_now_read (s : State) (x : LineParams) :
    (s.withLine x).now = s.now := rfl

@[simp] theorem State.withLine_stamp_read (s : State) (x : LineParams) :
    (s.withLine x).stamp = s.stamp := rfl

@[simp] theorem State.withLine_isSubject_read (s : State) (x : LineParams) (u : Train) :
    (s.withLine x).isSubject u = s.isSubject u := rfl

@[simp] theorem State.withLine_estopAsserted_read (s : State) (x : LineParams) :
    (s.withLine x).estopAsserted = s.estopAsserted := rfl

/-! ### withCrusher -/

@[simp] theorem State.withCrusher_powered (s : State) (t : Train) (x : CrusherParams) :
    (s.withCrusher t x).powered = s.powered := rfl

@[simp] theorem State.withCrusher_restart (s : State) (t : Train) (x : CrusherParams) :
    (s.withCrusher t x).restart = s.restart := rfl

@[simp] theorem State.withCrusher_time (s : State) (t : Train) (x : CrusherParams) :
    (s.withCrusher t x).time = s.time := rfl

@[simp] theorem State.withCrusher_feeders (s : State) (t : Train) (x : CrusherParams) :
    (s.withCrusher t x).feeders = s.feeders := rfl

@[simp] theorem State.withCrusher_crushers (s : State) (t : Train) (x : CrusherParams) :
    (s.withCrusher t x).crushers = s.crushers := rfl

@[simp] theorem State.withCrusher_line (s : State) (t : Train) (x : CrusherParams) :
    (s.withCrusher t x).line = s.line := rfl

@[simp] theorem State.withCrusher_feederParams (s : State) (t : Train) (x : CrusherParams) :
    (s.withCrusher t x).feederParams = s.feederParams := rfl

@[simp] theorem State.withCrusher_board (s : State) (t : Train) (x : CrusherParams) :
    (s.withCrusher t x).board = s.board := rfl

@[simp] theorem State.withCrusher_inputs (s : State) (t : Train) (x : CrusherParams) :
    (s.withCrusher t x).inputs = s.inputs := rfl

@[simp] theorem State.withCrusher_gaps (s : State) (t : Train) (x : CrusherParams) :
    (s.withCrusher t x).gaps = s.gaps := rfl

@[simp] theorem State.withCrusher_positioners (s : State) (t : Train) (x : CrusherParams) :
    (s.withCrusher t x).positioners = s.positioners := rfl

@[simp] theorem State.withCrusher_sequencer (s : State) (t : Train) (x : CrusherParams) :
    (s.withCrusher t x).sequencer = s.sequencer := rfl

@[simp] theorem State.withCrusher_zeros (s : State) (t : Train) (x : CrusherParams) :
    (s.withCrusher t x).zeros = s.zeros := rfl

@[simp] theorem State.withCrusher_governors (s : State) (t : Train) (x : CrusherParams) :
    (s.withCrusher t x).governors = s.governors := rfl

@[simp] theorem State.withCrusher_supervisors (s : State) (t : Train) (x : CrusherParams) :
    (s.withCrusher t x).supervisors = s.supervisors := rfl

@[simp] theorem State.withCrusher_conditions (s : State) (t : Train) (x : CrusherParams) :
    (s.withCrusher t x).conditions = s.conditions := rfl

@[simp] theorem State.withCrusher_store (s : State) (t : Train) (x : CrusherParams) :
    (s.withCrusher t x).store = s.store := rfl

@[simp] theorem State.withCrusher_links (s : State) (t : Train) (x : CrusherParams) :
    (s.withCrusher t x).links = s.links := rfl

@[simp] theorem State.withCrusher_pending (s : State) (t : Train) (x : CrusherParams) :
    (s.withCrusher t x).pending = s.pending := rfl

@[simp] theorem State.withCrusher_governor_read (s : State) (t : Train) (x : CrusherParams) (u : Train) :
    (s.withCrusher t x).governor u = s.governor u := rfl

@[simp] theorem State.withCrusher_positioner_read (s : State) (t : Train) (x : CrusherParams) (u : Train) :
    (s.withCrusher t x).positioner u = s.positioner u := rfl

@[simp] theorem State.withCrusher_gap_read (s : State) (t : Train) (x : CrusherParams) (u : Train) :
    (s.withCrusher t x).gap u = s.gap u := rfl

@[simp] theorem State.withCrusher_supervisor_read (s : State) (t : Train) (x : CrusherParams) (u : Train) :
    (s.withCrusher t x).supervisor u = s.supervisor u := rfl

@[simp] theorem State.withCrusher_zero_read (s : State) (t : Train) (x : CrusherParams) (u : Train) :
    (s.withCrusher t x).zero u = s.zero u := rfl

@[simp] theorem State.withCrusher_feeder_read (s : State) (t : Train) (x : CrusherParams) (u : Train) :
    (s.withCrusher t x).feeder u = s.feeder u := rfl

@[simp] theorem State.withCrusher_link_read (s : State) (t : Train) (x : CrusherParams) (m : Link) :
    (s.withCrusher t x).link m = s.link m := rfl

@[simp] theorem State.withCrusher_station_read (s : State) (t : Train) (x : CrusherParams) (st : Station) :
    (s.withCrusher t x).station st = s.station st := rfl

@[simp] theorem State.withCrusher_now_read (s : State) (t : Train) (x : CrusherParams) :
    (s.withCrusher t x).now = s.now := rfl

@[simp] theorem State.withCrusher_stamp_read (s : State) (t : Train) (x : CrusherParams) :
    (s.withCrusher t x).stamp = s.stamp := rfl

@[simp] theorem State.withCrusher_present_read (s : State) (t : Train) (x : CrusherParams) (u : Train) :
    (s.withCrusher t x).present u = s.present u := rfl

@[simp] theorem State.withCrusher_isSubject_read (s : State) (t : Train) (x : CrusherParams) (u : Train) :
    (s.withCrusher t x).isSubject u = s.isSubject u := rfl

@[simp] theorem State.withCrusher_estopAsserted_read (s : State) (t : Train) (x : CrusherParams) :
    (s.withCrusher t x).estopAsserted = s.estopAsserted := rfl

/-! ### withFeeder -/

@[simp] theorem State.withFeeder_powered (s : State) (t : Train) (x : FeederParams) :
    (s.withFeeder t x).powered = s.powered := rfl

@[simp] theorem State.withFeeder_restart (s : State) (t : Train) (x : FeederParams) :
    (s.withFeeder t x).restart = s.restart := rfl

@[simp] theorem State.withFeeder_time (s : State) (t : Train) (x : FeederParams) :
    (s.withFeeder t x).time = s.time := rfl

@[simp] theorem State.withFeeder_feeders (s : State) (t : Train) (x : FeederParams) :
    (s.withFeeder t x).feeders = s.feeders := rfl

@[simp] theorem State.withFeeder_crushers (s : State) (t : Train) (x : FeederParams) :
    (s.withFeeder t x).crushers = s.crushers := rfl

@[simp] theorem State.withFeeder_line (s : State) (t : Train) (x : FeederParams) :
    (s.withFeeder t x).line = s.line := rfl

@[simp] theorem State.withFeeder_crusherParams (s : State) (t : Train) (x : FeederParams) :
    (s.withFeeder t x).crusherParams = s.crusherParams := rfl

@[simp] theorem State.withFeeder_board (s : State) (t : Train) (x : FeederParams) :
    (s.withFeeder t x).board = s.board := rfl

@[simp] theorem State.withFeeder_inputs (s : State) (t : Train) (x : FeederParams) :
    (s.withFeeder t x).inputs = s.inputs := rfl

@[simp] theorem State.withFeeder_gaps (s : State) (t : Train) (x : FeederParams) :
    (s.withFeeder t x).gaps = s.gaps := rfl

@[simp] theorem State.withFeeder_positioners (s : State) (t : Train) (x : FeederParams) :
    (s.withFeeder t x).positioners = s.positioners := rfl

@[simp] theorem State.withFeeder_sequencer (s : State) (t : Train) (x : FeederParams) :
    (s.withFeeder t x).sequencer = s.sequencer := rfl

@[simp] theorem State.withFeeder_zeros (s : State) (t : Train) (x : FeederParams) :
    (s.withFeeder t x).zeros = s.zeros := rfl

@[simp] theorem State.withFeeder_governors (s : State) (t : Train) (x : FeederParams) :
    (s.withFeeder t x).governors = s.governors := rfl

@[simp] theorem State.withFeeder_supervisors (s : State) (t : Train) (x : FeederParams) :
    (s.withFeeder t x).supervisors = s.supervisors := rfl

@[simp] theorem State.withFeeder_conditions (s : State) (t : Train) (x : FeederParams) :
    (s.withFeeder t x).conditions = s.conditions := rfl

@[simp] theorem State.withFeeder_store (s : State) (t : Train) (x : FeederParams) :
    (s.withFeeder t x).store = s.store := rfl

@[simp] theorem State.withFeeder_links (s : State) (t : Train) (x : FeederParams) :
    (s.withFeeder t x).links = s.links := rfl

@[simp] theorem State.withFeeder_pending (s : State) (t : Train) (x : FeederParams) :
    (s.withFeeder t x).pending = s.pending := rfl

@[simp] theorem State.withFeeder_governor_read (s : State) (t : Train) (x : FeederParams) (u : Train) :
    (s.withFeeder t x).governor u = s.governor u := rfl

@[simp] theorem State.withFeeder_positioner_read (s : State) (t : Train) (x : FeederParams) (u : Train) :
    (s.withFeeder t x).positioner u = s.positioner u := rfl

@[simp] theorem State.withFeeder_gap_read (s : State) (t : Train) (x : FeederParams) (u : Train) :
    (s.withFeeder t x).gap u = s.gap u := rfl

@[simp] theorem State.withFeeder_supervisor_read (s : State) (t : Train) (x : FeederParams) (u : Train) :
    (s.withFeeder t x).supervisor u = s.supervisor u := rfl

@[simp] theorem State.withFeeder_zero_read (s : State) (t : Train) (x : FeederParams) (u : Train) :
    (s.withFeeder t x).zero u = s.zero u := rfl

@[simp] theorem State.withFeeder_crusher_read (s : State) (t : Train) (x : FeederParams) (u : Train) :
    (s.withFeeder t x).crusher u = s.crusher u := rfl

@[simp] theorem State.withFeeder_link_read (s : State) (t : Train) (x : FeederParams) (m : Link) :
    (s.withFeeder t x).link m = s.link m := rfl

@[simp] theorem State.withFeeder_station_read (s : State) (t : Train) (x : FeederParams) (st : Station) :
    (s.withFeeder t x).station st = s.station st := rfl

@[simp] theorem State.withFeeder_now_read (s : State) (t : Train) (x : FeederParams) :
    (s.withFeeder t x).now = s.now := rfl

@[simp] theorem State.withFeeder_stamp_read (s : State) (t : Train) (x : FeederParams) :
    (s.withFeeder t x).stamp = s.stamp := rfl

@[simp] theorem State.withFeeder_present_read (s : State) (t : Train) (x : FeederParams) (u : Train) :
    (s.withFeeder t x).present u = s.present u := rfl

@[simp] theorem State.withFeeder_isSubject_read (s : State) (t : Train) (x : FeederParams) (u : Train) :
    (s.withFeeder t x).isSubject u = s.isSubject u := rfl

@[simp] theorem State.withFeeder_estopAsserted_read (s : State) (t : Train) (x : FeederParams) :
    (s.withFeeder t x).estopAsserted = s.estopAsserted := rfl

/-! ### withBoard -/

@[simp] theorem State.withBoard_powered (s : State) (x : Board) :
    (s.withBoard x).powered = s.powered := rfl

@[simp] theorem State.withBoard_restart (s : State) (x : Board) :
    (s.withBoard x).restart = s.restart := rfl

@[simp] theorem State.withBoard_time (s : State) (x : Board) :
    (s.withBoard x).time = s.time := rfl

@[simp] theorem State.withBoard_feeders (s : State) (x : Board) :
    (s.withBoard x).feeders = s.feeders := rfl

@[simp] theorem State.withBoard_crushers (s : State) (x : Board) :
    (s.withBoard x).crushers = s.crushers := rfl

@[simp] theorem State.withBoard_line (s : State) (x : Board) :
    (s.withBoard x).line = s.line := rfl

@[simp] theorem State.withBoard_crusherParams (s : State) (x : Board) :
    (s.withBoard x).crusherParams = s.crusherParams := rfl

@[simp] theorem State.withBoard_feederParams (s : State) (x : Board) :
    (s.withBoard x).feederParams = s.feederParams := rfl

@[simp] theorem State.withBoard_inputs (s : State) (x : Board) :
    (s.withBoard x).inputs = s.inputs := rfl

@[simp] theorem State.withBoard_gaps (s : State) (x : Board) :
    (s.withBoard x).gaps = s.gaps := rfl

@[simp] theorem State.withBoard_positioners (s : State) (x : Board) :
    (s.withBoard x).positioners = s.positioners := rfl

@[simp] theorem State.withBoard_sequencer (s : State) (x : Board) :
    (s.withBoard x).sequencer = s.sequencer := rfl

@[simp] theorem State.withBoard_zeros (s : State) (x : Board) :
    (s.withBoard x).zeros = s.zeros := rfl

@[simp] theorem State.withBoard_governors (s : State) (x : Board) :
    (s.withBoard x).governors = s.governors := rfl

@[simp] theorem State.withBoard_supervisors (s : State) (x : Board) :
    (s.withBoard x).supervisors = s.supervisors := rfl

@[simp] theorem State.withBoard_conditions (s : State) (x : Board) :
    (s.withBoard x).conditions = s.conditions := rfl

@[simp] theorem State.withBoard_store (s : State) (x : Board) :
    (s.withBoard x).store = s.store := rfl

@[simp] theorem State.withBoard_links (s : State) (x : Board) :
    (s.withBoard x).links = s.links := rfl

@[simp] theorem State.withBoard_pending (s : State) (x : Board) :
    (s.withBoard x).pending = s.pending := rfl

@[simp] theorem State.withBoard_board (s : State) (x : Board) :
    (s.withBoard x).board = x := rfl

@[simp] theorem State.withBoard_governor_read (s : State) (x : Board) (u : Train) :
    (s.withBoard x).governor u = s.governor u := rfl

@[simp] theorem State.withBoard_positioner_read (s : State) (x : Board) (u : Train) :
    (s.withBoard x).positioner u = s.positioner u := rfl

@[simp] theorem State.withBoard_gap_read (s : State) (x : Board) (u : Train) :
    (s.withBoard x).gap u = s.gap u := rfl

@[simp] theorem State.withBoard_supervisor_read (s : State) (x : Board) (u : Train) :
    (s.withBoard x).supervisor u = s.supervisor u := rfl

@[simp] theorem State.withBoard_zero_read (s : State) (x : Board) (u : Train) :
    (s.withBoard x).zero u = s.zero u := rfl

@[simp] theorem State.withBoard_crusher_read (s : State) (x : Board) (u : Train) :
    (s.withBoard x).crusher u = s.crusher u := rfl

@[simp] theorem State.withBoard_feeder_read (s : State) (x : Board) (u : Train) :
    (s.withBoard x).feeder u = s.feeder u := rfl

@[simp] theorem State.withBoard_link_read (s : State) (x : Board) (m : Link) :
    (s.withBoard x).link m = s.link m := rfl

@[simp] theorem State.withBoard_station_read (s : State) (x : Board) (st : Station) :
    (s.withBoard x).station st = s.station st := rfl

@[simp] theorem State.withBoard_now_read (s : State) (x : Board) :
    (s.withBoard x).now = s.now := rfl

@[simp] theorem State.withBoard_stamp_read (s : State) (x : Board) :
    (s.withBoard x).stamp = s.stamp := rfl

@[simp] theorem State.withBoard_present_read (s : State) (x : Board) (u : Train) :
    (s.withBoard x).present u = s.present u := rfl

@[simp] theorem State.withBoard_isSubject_read (s : State) (x : Board) (u : Train) :
    (s.withBoard x).isSubject u = s.isSubject u := rfl

@[simp] theorem State.withBoard_estopAsserted_read (s : State) (x : Board) :
    (s.withBoard x).estopAsserted = s.estopAsserted := rfl

/-! ### withInputs -/

@[simp] theorem State.withInputs_powered (s : State) (x : FieldInputs) :
    (s.withInputs x).powered = s.powered := rfl

@[simp] theorem State.withInputs_restart (s : State) (x : FieldInputs) :
    (s.withInputs x).restart = s.restart := rfl

@[simp] theorem State.withInputs_time (s : State) (x : FieldInputs) :
    (s.withInputs x).time = s.time := rfl

@[simp] theorem State.withInputs_feeders (s : State) (x : FieldInputs) :
    (s.withInputs x).feeders = s.feeders := rfl

@[simp] theorem State.withInputs_crushers (s : State) (x : FieldInputs) :
    (s.withInputs x).crushers = s.crushers := rfl

@[simp] theorem State.withInputs_line (s : State) (x : FieldInputs) :
    (s.withInputs x).line = s.line := rfl

@[simp] theorem State.withInputs_crusherParams (s : State) (x : FieldInputs) :
    (s.withInputs x).crusherParams = s.crusherParams := rfl

@[simp] theorem State.withInputs_feederParams (s : State) (x : FieldInputs) :
    (s.withInputs x).feederParams = s.feederParams := rfl

@[simp] theorem State.withInputs_board (s : State) (x : FieldInputs) :
    (s.withInputs x).board = s.board := rfl

@[simp] theorem State.withInputs_gaps (s : State) (x : FieldInputs) :
    (s.withInputs x).gaps = s.gaps := rfl

@[simp] theorem State.withInputs_positioners (s : State) (x : FieldInputs) :
    (s.withInputs x).positioners = s.positioners := rfl

@[simp] theorem State.withInputs_sequencer (s : State) (x : FieldInputs) :
    (s.withInputs x).sequencer = s.sequencer := rfl

@[simp] theorem State.withInputs_zeros (s : State) (x : FieldInputs) :
    (s.withInputs x).zeros = s.zeros := rfl

@[simp] theorem State.withInputs_governors (s : State) (x : FieldInputs) :
    (s.withInputs x).governors = s.governors := rfl

@[simp] theorem State.withInputs_supervisors (s : State) (x : FieldInputs) :
    (s.withInputs x).supervisors = s.supervisors := rfl

@[simp] theorem State.withInputs_conditions (s : State) (x : FieldInputs) :
    (s.withInputs x).conditions = s.conditions := rfl

@[simp] theorem State.withInputs_store (s : State) (x : FieldInputs) :
    (s.withInputs x).store = s.store := rfl

@[simp] theorem State.withInputs_links (s : State) (x : FieldInputs) :
    (s.withInputs x).links = s.links := rfl

@[simp] theorem State.withInputs_pending (s : State) (x : FieldInputs) :
    (s.withInputs x).pending = s.pending := rfl

@[simp] theorem State.withInputs_inputs (s : State) (x : FieldInputs) :
    (s.withInputs x).inputs = x := rfl

@[simp] theorem State.withInputs_governor_read (s : State) (x : FieldInputs) (u : Train) :
    (s.withInputs x).governor u = s.governor u := rfl

@[simp] theorem State.withInputs_positioner_read (s : State) (x : FieldInputs) (u : Train) :
    (s.withInputs x).positioner u = s.positioner u := rfl

@[simp] theorem State.withInputs_gap_read (s : State) (x : FieldInputs) (u : Train) :
    (s.withInputs x).gap u = s.gap u := rfl

@[simp] theorem State.withInputs_supervisor_read (s : State) (x : FieldInputs) (u : Train) :
    (s.withInputs x).supervisor u = s.supervisor u := rfl

@[simp] theorem State.withInputs_zero_read (s : State) (x : FieldInputs) (u : Train) :
    (s.withInputs x).zero u = s.zero u := rfl

@[simp] theorem State.withInputs_crusher_read (s : State) (x : FieldInputs) (u : Train) :
    (s.withInputs x).crusher u = s.crusher u := rfl

@[simp] theorem State.withInputs_feeder_read (s : State) (x : FieldInputs) (u : Train) :
    (s.withInputs x).feeder u = s.feeder u := rfl

@[simp] theorem State.withInputs_link_read (s : State) (x : FieldInputs) (m : Link) :
    (s.withInputs x).link m = s.link m := rfl

@[simp] theorem State.withInputs_station_read (s : State) (x : FieldInputs) (st : Station) :
    (s.withInputs x).station st = s.station st := rfl

@[simp] theorem State.withInputs_now_read (s : State) (x : FieldInputs) :
    (s.withInputs x).now = s.now := rfl

@[simp] theorem State.withInputs_stamp_read (s : State) (x : FieldInputs) :
    (s.withInputs x).stamp = s.stamp := rfl

@[simp] theorem State.withInputs_present_read (s : State) (x : FieldInputs) (u : Train) :
    (s.withInputs x).present u = s.present u := rfl

@[simp] theorem State.withInputs_isSubject_read (s : State) (x : FieldInputs) (u : Train) :
    (s.withInputs x).isSubject u = s.isSubject u := rfl

/-! ### withStore -/

@[simp] theorem State.withStore_powered (s : State) (x : Store) :
    (s.withStore x).powered = s.powered := rfl

@[simp] theorem State.withStore_restart (s : State) (x : Store) :
    (s.withStore x).restart = s.restart := rfl

@[simp] theorem State.withStore_time (s : State) (x : Store) :
    (s.withStore x).time = s.time := rfl

@[simp] theorem State.withStore_feeders (s : State) (x : Store) :
    (s.withStore x).feeders = s.feeders := rfl

@[simp] theorem State.withStore_crushers (s : State) (x : Store) :
    (s.withStore x).crushers = s.crushers := rfl

@[simp] theorem State.withStore_line (s : State) (x : Store) :
    (s.withStore x).line = s.line := rfl

@[simp] theorem State.withStore_crusherParams (s : State) (x : Store) :
    (s.withStore x).crusherParams = s.crusherParams := rfl

@[simp] theorem State.withStore_feederParams (s : State) (x : Store) :
    (s.withStore x).feederParams = s.feederParams := rfl

@[simp] theorem State.withStore_board (s : State) (x : Store) :
    (s.withStore x).board = s.board := rfl

@[simp] theorem State.withStore_inputs (s : State) (x : Store) :
    (s.withStore x).inputs = s.inputs := rfl

@[simp] theorem State.withStore_gaps (s : State) (x : Store) :
    (s.withStore x).gaps = s.gaps := rfl

@[simp] theorem State.withStore_positioners (s : State) (x : Store) :
    (s.withStore x).positioners = s.positioners := rfl

@[simp] theorem State.withStore_sequencer (s : State) (x : Store) :
    (s.withStore x).sequencer = s.sequencer := rfl

@[simp] theorem State.withStore_zeros (s : State) (x : Store) :
    (s.withStore x).zeros = s.zeros := rfl

@[simp] theorem State.withStore_governors (s : State) (x : Store) :
    (s.withStore x).governors = s.governors := rfl

@[simp] theorem State.withStore_supervisors (s : State) (x : Store) :
    (s.withStore x).supervisors = s.supervisors := rfl

@[simp] theorem State.withStore_conditions (s : State) (x : Store) :
    (s.withStore x).conditions = s.conditions := rfl

@[simp] theorem State.withStore_links (s : State) (x : Store) :
    (s.withStore x).links = s.links := rfl

@[simp] theorem State.withStore_pending (s : State) (x : Store) :
    (s.withStore x).pending = s.pending := rfl

@[simp] theorem State.withStore_store (s : State) (x : Store) :
    (s.withStore x).store = x := rfl

@[simp] theorem State.withStore_governor_read (s : State) (x : Store) (u : Train) :
    (s.withStore x).governor u = s.governor u := rfl

@[simp] theorem State.withStore_positioner_read (s : State) (x : Store) (u : Train) :
    (s.withStore x).positioner u = s.positioner u := rfl

@[simp] theorem State.withStore_gap_read (s : State) (x : Store) (u : Train) :
    (s.withStore x).gap u = s.gap u := rfl

@[simp] theorem State.withStore_supervisor_read (s : State) (x : Store) (u : Train) :
    (s.withStore x).supervisor u = s.supervisor u := rfl

@[simp] theorem State.withStore_zero_read (s : State) (x : Store) (u : Train) :
    (s.withStore x).zero u = s.zero u := rfl

@[simp] theorem State.withStore_crusher_read (s : State) (x : Store) (u : Train) :
    (s.withStore x).crusher u = s.crusher u := rfl

@[simp] theorem State.withStore_feeder_read (s : State) (x : Store) (u : Train) :
    (s.withStore x).feeder u = s.feeder u := rfl

@[simp] theorem State.withStore_link_read (s : State) (x : Store) (m : Link) :
    (s.withStore x).link m = s.link m := rfl

@[simp] theorem State.withStore_station_read (s : State) (x : Store) (st : Station) :
    (s.withStore x).station st = s.station st := rfl

@[simp] theorem State.withStore_now_read (s : State) (x : Store) :
    (s.withStore x).now = s.now := rfl

@[simp] theorem State.withStore_stamp_read (s : State) (x : Store) :
    (s.withStore x).stamp = s.stamp := rfl

@[simp] theorem State.withStore_present_read (s : State) (x : Store) (u : Train) :
    (s.withStore x).present u = s.present u := rfl

@[simp] theorem State.withStore_isSubject_read (s : State) (x : Store) (u : Train) :
    (s.withStore x).isSubject u = s.isSubject u := rfl

@[simp] theorem State.withStore_estopAsserted_read (s : State) (x : Store) :
    (s.withStore x).estopAsserted = s.estopAsserted := rfl

/-! ### modStation -/

@[simp] theorem State.modStation_powered (s : State) (st : Station) (f : StationRecord → StationRecord) :
    (s.modStation st f).powered = s.powered := by
  obtain ⟨t, r⟩ := st; cases r <;> rfl

@[simp] theorem State.modStation_restart (s : State) (st : Station) (f : StationRecord → StationRecord) :
    (s.modStation st f).restart = s.restart := by
  obtain ⟨t, r⟩ := st; cases r <;> rfl

@[simp] theorem State.modStation_time (s : State) (st : Station) (f : StationRecord → StationRecord) :
    (s.modStation st f).time = s.time := by
  obtain ⟨t, r⟩ := st; cases r <;> rfl

@[simp] theorem State.modStation_line (s : State) (st : Station) (f : StationRecord → StationRecord) :
    (s.modStation st f).line = s.line := by
  obtain ⟨t, r⟩ := st; cases r <;> rfl

@[simp] theorem State.modStation_crusherParams (s : State) (st : Station) (f : StationRecord → StationRecord) :
    (s.modStation st f).crusherParams = s.crusherParams := by
  obtain ⟨t, r⟩ := st; cases r <;> rfl

@[simp] theorem State.modStation_feederParams (s : State) (st : Station) (f : StationRecord → StationRecord) :
    (s.modStation st f).feederParams = s.feederParams := by
  obtain ⟨t, r⟩ := st; cases r <;> rfl

@[simp] theorem State.modStation_board (s : State) (st : Station) (f : StationRecord → StationRecord) :
    (s.modStation st f).board = s.board := by
  obtain ⟨t, r⟩ := st; cases r <;> rfl

@[simp] theorem State.modStation_inputs (s : State) (st : Station) (f : StationRecord → StationRecord) :
    (s.modStation st f).inputs = s.inputs := by
  obtain ⟨t, r⟩ := st; cases r <;> rfl

@[simp] theorem State.modStation_gaps (s : State) (st : Station) (f : StationRecord → StationRecord) :
    (s.modStation st f).gaps = s.gaps := by
  obtain ⟨t, r⟩ := st; cases r <;> rfl

@[simp] theorem State.modStation_positioners (s : State) (st : Station) (f : StationRecord → StationRecord) :
    (s.modStation st f).positioners = s.positioners := by
  obtain ⟨t, r⟩ := st; cases r <;> rfl

@[simp] theorem State.modStation_sequencer (s : State) (st : Station) (f : StationRecord → StationRecord) :
    (s.modStation st f).sequencer = s.sequencer := by
  obtain ⟨t, r⟩ := st; cases r <;> rfl

@[simp] theorem State.modStation_zeros (s : State) (st : Station) (f : StationRecord → StationRecord) :
    (s.modStation st f).zeros = s.zeros := by
  obtain ⟨t, r⟩ := st; cases r <;> rfl

@[simp] theorem State.modStation_governors (s : State) (st : Station) (f : StationRecord → StationRecord) :
    (s.modStation st f).governors = s.governors := by
  obtain ⟨t, r⟩ := st; cases r <;> rfl

@[simp] theorem State.modStation_supervisors (s : State) (st : Station) (f : StationRecord → StationRecord) :
    (s.modStation st f).supervisors = s.supervisors := by
  obtain ⟨t, r⟩ := st; cases r <;> rfl

@[simp] theorem State.modStation_conditions (s : State) (st : Station) (f : StationRecord → StationRecord) :
    (s.modStation st f).conditions = s.conditions := by
  obtain ⟨t, r⟩ := st; cases r <;> rfl

@[simp] theorem State.modStation_store (s : State) (st : Station) (f : StationRecord → StationRecord) :
    (s.modStation st f).store = s.store := by
  obtain ⟨t, r⟩ := st; cases r <;> rfl

@[simp] theorem State.modStation_links (s : State) (st : Station) (f : StationRecord → StationRecord) :
    (s.modStation st f).links = s.links := by
  obtain ⟨t, r⟩ := st; cases r <;> rfl

@[simp] theorem State.modStation_pending (s : State) (st : Station) (f : StationRecord → StationRecord) :
    (s.modStation st f).pending = s.pending := by
  obtain ⟨t, r⟩ := st; cases r <;> rfl

@[simp] theorem State.modStation_governor_read (s : State) (st : Station) (f : StationRecord → StationRecord) (u : Train) :
    (s.modStation st f).governor u = s.governor u := by
  obtain ⟨t, r⟩ := st; cases r <;> rfl

@[simp] theorem State.modStation_positioner_read (s : State) (st : Station) (f : StationRecord → StationRecord) (u : Train) :
    (s.modStation st f).positioner u = s.positioner u := by
  obtain ⟨t, r⟩ := st; cases r <;> rfl

@[simp] theorem State.modStation_gap_read (s : State) (st : Station) (f : StationRecord → StationRecord) (u : Train) :
    (s.modStation st f).gap u = s.gap u := by
  obtain ⟨t, r⟩ := st; cases r <;> rfl

@[simp] theorem State.modStation_supervisor_read (s : State) (st : Station) (f : StationRecord → StationRecord) (u : Train) :
    (s.modStation st f).supervisor u = s.supervisor u := by
  obtain ⟨t, r⟩ := st; cases r <;> rfl

@[simp] theorem State.modStation_zero_read (s : State) (st : Station) (f : StationRecord → StationRecord) (u : Train) :
    (s.modStation st f).zero u = s.zero u := by
  obtain ⟨t, r⟩ := st; cases r <;> rfl

@[simp] theorem State.modStation_crusher_read (s : State) (st : Station) (f : StationRecord → StationRecord) (u : Train) :
    (s.modStation st f).crusher u = s.crusher u := by
  obtain ⟨t, r⟩ := st; cases r <;> rfl

@[simp] theorem State.modStation_feeder_read (s : State) (st : Station) (f : StationRecord → StationRecord) (u : Train) :
    (s.modStation st f).feeder u = s.feeder u := by
  obtain ⟨t, r⟩ := st; cases r <;> rfl

@[simp] theorem State.modStation_link_read (s : State) (st : Station) (f : StationRecord → StationRecord) (m : Link) :
    (s.modStation st f).link m = s.link m := by
  obtain ⟨t, r⟩ := st; cases r <;> rfl

@[simp] theorem State.modStation_now_read (s : State) (st : Station) (f : StationRecord → StationRecord) :
    (s.modStation st f).now = s.now := by
  obtain ⟨t, r⟩ := st; cases r <;> rfl

@[simp] theorem State.modStation_stamp_read (s : State) (st : Station) (f : StationRecord → StationRecord) :
    (s.modStation st f).stamp = s.stamp := by
  obtain ⟨t, r⟩ := st; cases r <;> rfl

@[simp] theorem State.modStation_present_read (s : State) (st : Station) (f : StationRecord → StationRecord) (u : Train) :
    (s.modStation st f).present u = s.present u := by
  obtain ⟨t, r⟩ := st; cases r <;> rfl

@[simp] theorem State.modStation_isSubject_read (s : State) (st : Station) (f : StationRecord → StationRecord) (u : Train) :
    (s.modStation st f).isSubject u = s.isSubject u := by
  obtain ⟨t, r⟩ := st; cases r <;> rfl

@[simp] theorem State.modStation_estopAsserted_read (s : State) (st : Station) (f : StationRecord → StationRecord) :
    (s.modStation st f).estopAsserted = s.estopAsserted := by
  obtain ⟨t, r⟩ := st; cases r <;> rfl

end Machine

end Sys2Proof
end

