-- ==== Sys2Proof/Laws/Changes.lean ====
section
/-! SUPPORT. Laws/Changes.lean: every way in which the part's state changes, said once. A `Change` is one
primitive change of one record; `Changes` is any number of them. Each operation is shown to make only such
changes, so a law that every `Change` keeps holds after every command. -/

namespace Sys2Proof.Machine

/-- The changes of a Governor, given its feeder's parameters: a hold added or removed, the trim floor, an
update, a millisecond of its output (R112 to R121). -/
inductive GovernorStep (p : FeederParams) (g : Governor) : Governor → Prop where
  | hold (c : Hold) : GovernorStep p g (g.hold c)
  | release (c : Hold) : GovernorStep p g (g.release c)
  | floorTrim : GovernorStep p g (g.floorTrim p)
  | updated (u : UpdateInputs) (timer : Timer) (h : u.params = p) :
    GovernorStep p g { g.updated u with updateTimer := timer }

/-- The changes of the Condition List (R150, R152, R154, R155). -/
inductive ConditionStep (l : ConditionList) : ConditionList → Prop where
  | onset (code : Code) (sub : Subject) (d : Option Detail) (stamp : Stamp) :
    ConditionStep l (l.onset code sub d stamp)
  | causeEnded (code : Code) (sub : Subject) : ConditionStep l (l.causeEnded code sub)
  | acknowledged (code : Code) (sub : Subject) : ConditionStep l (l.acknowledged code sub)
  | withoutAnswered (code : Code) (sub : Subject) : ConditionStep l (l.withoutAnswered code sub)
  | allAcknowledged : ConditionStep l l.allAcknowledged
  | allAnswered : ConditionStep l l.allAnswered

/-- The changes of the Request Board: a slot freed, slots freed by a test, the counter, and a request placed
where its link has none for its station (R25 to R27, R33, R34). -/
inductive BoardStep (b : Board) : Board → Prop where
  | free (i : Nat) : BoardStep b { b with slots := b.slots.set i none }
  | freeWhere (gone : Slot → Bool) : BoardStep b (b.freeWhere gone)
  | numbered : BoardStep b b.numbered
  | place (i : Nat) (r : Slot) (h : b.anyWaiting (Slot.isOf r.source r.station) = false) :
    BoardStep b { b with slots := b.slots.set i (some r) }

/-- The PROFILE values a store may come to hold: those it reads, those it is writing, or the working values
(R164 to R166). -/
def State.profileSource (s : State) (p : Profile) : Prop :=
  s.store.readProfile = some p ∨ s.store.writing = some (.profile p) ∨
    p = ⟨s.line, s.crusherParams, s.feederParams⟩

/-- A store that reads and is writing no PROFILE values but those of `profileSource`. -/
def State.storeFrom (s : State) (st : Store) : Prop :=
  (∀ p, st.readProfile = some p → s.profileSource p) ∧ (∀ p, st.writing = some (.profile p) → s.profileSource p)

/-- A new target of a crusher is a value brought within its limits, and a target that is not new is the old
one (R2, R21). -/
def State.targetFrom (s : State) (st : Station) (x : Standing) : Prop :=
  x.target = (s.station st).standing.target ∨ (st.role = .crusher ∧ ∃ v, x.target = s.limited st v)

/-- One primitive change. -/
inductive Change : State → State → Prop where
  | governor (s : State) (t : Train) (f : Governor → Governor)
      (h : GovernorStep (s.feeder t) (s.governor t) (f (s.governor t))) : Change s (s.modGovernor t f)
  | positioner (s : State) (t : Train) (f : Positioner → Positioner) : Change s (s.modPositioner t f)
  | gap (s : State) (t : Train) (f : GapMeasurement → GapMeasurement) : Change s (s.modGap t f)
  | supervisor (s : State) (t : Train) (f : Supervisor → Supervisor) : Change s (s.modSupervisor t f)
  | zero (s : State) (t : Train) (f : ZeroRecord → ZeroRecord) : Change s (s.modZero t f)
  | sequencer (s : State) (f : Sequencer → Sequencer) : Change s (s.modSequencer f)
  | link (s : State) (l : Link) (f : LinkInterface → LinkInterface) : Change s (s.modLink l f)
  | inputs (s : State) (x : FieldInputs) : Change s (s.withInputs x)
  | time (s : State) (x : TimeBase) : Change s (s.withTime x)
  | restart (s : State) (x : RestartPhase) : Change s (s.withRestart x)
  | conditions (s : State) (f : ConditionList → ConditionList) (h : ConditionStep s.conditions (f s.conditions)) :
    Change s (s.modConditions f)
  | board (s : State) (b : Board) (h : BoardStep s.board b) : Change s (s.withBoard b)
  | renumber (s : State) : Change s s.renumber
  | record (s : State) (st : Station) (f : StationRecord → StationRecord)
      (h : s.targetFrom st (f (s.station st)).standing) : Change s (s.modStation st f)
  | feederTarget (s : State) (t : Train) (x : Standing) (h : ∃ v, x.target = s.limited (feederOf t) v) :
    Change s
      ((s.modStation (feederOf t) fun r => { r with standing := x }).modGovernor t fun g => g.setBase x.target)
  | store (s : State) (st : Store) (h : s.storeFrom st) : Change s (s.withStore st)
  | line (s : State) (n : LineParam) (v : Nat) (h : n.range.defined v = true) :
    Change s (s.withLine (s.line.put n (storedValue n.range (s.line.bounds n) v)))
  | crusherParam (s : State) (t : Train) (n : CrusherParam) (v : Nat) (h : n.range.defined v = true)
      (h1 : n ≠ .gapMin) (h2 : n ≠ .gapMax) :
    Change s (s.withCrusher t ((s.crusher t).put n (storedValue n.range ((s.crusher t).bounds n) v)))
  | crusherLimit (s : State) (t : Train) (n : CrusherParam) (v : Nat) (h : n.range.defined v = true)
      (f : StationRecord → StationRecord)
      (hf : (f (s.station (crusherOf t))).standing.target =
        (s.withCrusher t ((s.crusher t).put n (storedValue n.range ((s.crusher t).bounds n) v))).limited
          (crusherOf t) (s.station (crusherOf t)).standing.target) :
    Change s
      ((s.withCrusher t ((s.crusher t).put n (storedValue n.range ((s.crusher t).bounds n) v))).modStation
        (crusherOf t) f)
  | feederParam (s : State) (t : Train) (n : FeederParam) (v : Nat) (h : n.range.defined v = true)
      (h1 : n ≠ .rateMin) (h2 : n ≠ .rateMax) (h3 : n ≠ .trimLimit) :
    Change s (s.withFeeder t ((s.feeder t).put n (storedValue n.range ((s.feeder t).bounds n) v)))
  | feederLimit (s : State) (t : Train) (n : FeederParam) (v : Nat) (h : n.range.defined v = true)
      (hn : n = .rateMin ∨ n = .rateMax) :
    Change s (s.storeFeeder t n (storedValue n.range ((s.feeder t).bounds n) v))
  | feederTrim (s : State) (t : Train) (v : Nat) :
    Change s (s.storeFeeder t .trimLimit
      (storedValue FeederParam.trimLimit.range ((s.feeder t).bounds .trimLimit) v))
  | second (s : State) : Change s s.secondBoundary
  | tick (s : State) : Change s s.tickOutputs
  | start (s : State) (store : Store) (stamp : Stamp) (h : store = s.store ∨ store = s.store.cutShort) :
    Change s (blocksAtStart store stamp s.pending)
  | lost (s : State) : Change s s.lossOfPower

/-- Any number of changes. -/
def Changes : State → State → Prop := Relation.ReflTransGen Change

variable {s0 s a b : State} {t : Train} {st : Station}

theorem Changes.refl (s : State) : Changes s s := Relation.ReflTransGen.refl

theorem Changes.trans (h : Changes s0 a) (k : Changes a b) : Changes s0 b := Relation.ReflTransGen.trans h k

theorem Changes.step (h : Changes s0 a) (k : Change a b) : Changes s0 b := Relation.ReflTransGen.tail h k

/-- A law that every change keeps is kept by any number of them. -/
theorem Changes.keep {law : State → Prop} (hc : ∀ a b, Change a b → law a → law b) (h : Changes s0 s)
    (h0 : law s0) : law s := by
  induction h with
  | refl => exact h0
  | tail _ hab ih => exact hc _ _ hab ih

theorem Changes.ite {c : Prop} [Decidable c] (ha : Changes s0 a) (hb : Changes s0 b) :
    Changes s0 (if c then a else b) := by
  split
  · exact ha
  · exact hb

theorem Changes.forTrains {f : Train → State → State} (hf : ∀ t a, Changes s0 a → Changes s0 (f t a))
    (h : Changes s0 s) : Changes s0 (s.forTrains f) := hf _ _ (hf _ _ (hf _ _ (hf _ _ h)))

theorem Changes.foldl {α : Type} {f : State → α → State} (hf : ∀ x a, Changes s0 a → Changes s0 (f a x))
    (l : List α) (h : Changes s0 s) : Changes s0 (l.foldl f s) := by
  induction l generalizing s with
  | nil => exact h
  | cons x l ih => exact ih (hf x s h)

/-! ### Primitive updates -/

theorem modPositioner_changes {f : Positioner → Positioner} (h : Changes s0 s) :
    Changes s0 (s.modPositioner t f) := h.step (.positioner s t f)

theorem modGap_changes {f : GapMeasurement → GapMeasurement} (h : Changes s0 s) : Changes s0 (s.modGap t f) :=
  h.step (.gap s t f)

theorem modSupervisor_changes {f : Supervisor → Supervisor} (h : Changes s0 s) :
    Changes s0 (s.modSupervisor t f) := h.step (.supervisor s t f)

theorem modZero_changes {f : ZeroRecord → ZeroRecord} (h : Changes s0 s) : Changes s0 (s.modZero t f) :=
  h.step (.zero s t f)

theorem modSequencer_changes {f : Sequencer → Sequencer} (h : Changes s0 s) : Changes s0 (s.modSequencer f) :=
  h.step (.sequencer s f)

theorem modLink_changes {l : Link} {f : LinkInterface → LinkInterface} (h : Changes s0 s) :
    Changes s0 (s.modLink l f) := h.step (.link s l f)

theorem inputs_changes {x : FieldInputs} (h : Changes s0 s) : Changes s0 (s.withInputs x) :=
  h.step (.inputs s x)

theorem time_changes {x : TimeBase} (h : Changes s0 s) : Changes s0 (s.withTime x) := h.step (.time s x)

theorem restart_changes {x : RestartPhase} (h : Changes s0 s) : Changes s0 (s.withRestart x) :=
  h.step (.restart s x)

theorem onset_changes {code : Code} {sub : Subject} {d : Option Detail} (h : Changes s0 s) :
    Changes s0 (s.onset code sub d) := h.step (.conditions s _ (.onset code sub d s.stamp))

theorem causeEnd_changes {code : Code} {sub : Subject} (h : Changes s0 s) :
    Changes s0 (s.causeEnd code sub) := h.step (.conditions s _ (.causeEnded code sub))

theorem addHold_changes {c : Hold} (h : Changes s0 s) : Changes s0 (s.addHold t c) :=
  h.step (.governor s t _ (.hold c))

theorem removeHold_changes {c : Hold} (h : Changes s0 s) : Changes s0 (s.removeHold t c) :=
  h.step (.governor s t _ (.release c))

theorem floorAndHold_changes {c : Hold} (h : Changes s0 s) : Changes s0 (s.floorAndHold t c) :=
  addHold_changes (h.step (.governor s t _ .floorTrim))

/-- A record changed with its target left as it was. -/
theorem modStation_changes {f : StationRecord → StationRecord} (h : Changes s0 s)
    (hf : ∀ r, (f r).standing.target = r.standing.target) : Changes s0 (s.modStation st f) :=
  h.step (.record s st f (.inl (hf _)))

theorem freeSlot_changes {i : Nat} (h : Changes s0 s) : Changes s0 (s.freeSlot i) :=
  h.step (.board s _ (.free i))

theorem freeWhere_changes {gone : Slot → Bool} (h : Changes s0 s) :
    Changes s0 (s.withBoard (s.board.freeWhere gone)) := h.step (.board s _ (.freeWhere gone))

theorem removeSlots_changes (h : Changes s0 s) : Changes s0 (s.removeSlots st) := freeWhere_changes h

end Sys2Proof.Machine
end

