-- ==== Sys2Proof/Laws/Exec.lean ====
section
/-! SUPPORT. Laws/Exec.lean: each command's meaning in one equation, so that no proof unfolds exec's fifty
arms. -/

namespace Sys2Proof.Machine

@[simp] theorem exec_powerOn (s : State) :
    exec .powerOn s = .next s.powerOn := rfl

@[simp] theorem exec_restartStart (s : State) :
    exec .restartStart s = s.whenPowered fun s => s.restartStart := rfl

@[simp] theorem exec_millisecondBoundary (samples : Samples) (s : State) :
    exec (.millisecondBoundary samples) s = s.whenPowered fun s => s.millisecondBoundary samples := rfl

@[simp] theorem exec_secondBoundary (s : State) :
    exec .secondBoundary s = s.whenPowered fun s => s.secondBoundary := rfl

@[simp] theorem exec_keepLapse (st : Station) (s : State) :
    exec (.keepLapse st) s = s.whenPowered fun s => s.keepLapse st := rfl

@[simp] theorem exec_waitExpiry (slot : Fin 24) (s : State) :
    exec (.waitExpiry slot) s = s.whenPowered fun s => s.waitExpiry slot.val := rfl

@[simp] theorem exec_digitalChange (input : DigitalInput) (s : State) :
    exec (.digitalChange input) s = s.whenPowered fun s => s.digitalChange input := rfl

@[simp] theorem exec_estopAssert (s : State) :
    exec .estopAssert s = s.whenPowered fun s => s.estopAssert := rfl

@[simp] theorem exec_estopRelease (s : State) :
    exec .estopRelease s = s.whenPowered fun s => s.estopRelease := rfl

@[simp] theorem exec_positionArrival (t : Train) (reading : Option (BitVec 16)) (s : State) :
    exec (.positionArrival t reading) s = s.whenPowered fun s => s.positionArrival t reading := rfl

@[simp] theorem exec_recoveryExpiry (t : Train) (s : State) :
    exec (.recoveryExpiry t) s = s.whenPowered fun s => s.recoveryExpiry t := rfl

@[simp] theorem exec_pressureArrival (t : Train) (loop : LoopReading) (s : State) :
    exec (.pressureArrival t loop) s = s.whenPowered fun s => s.pressureArrival t loop := rfl

@[simp] theorem exec_powerArrival (t : Train) (loop : LoopReading) (s : State) :
    exec (.powerArrival t loop) s = s.whenPowered fun s => s.powerArrival t loop := rfl

@[simp] theorem exec_surgeLevelArrival (loop : LoopReading) (s : State) :
    exec (.surgeLevelArrival loop) s = s.whenPowered fun s => s.surgeLevelArrival loop := rfl

@[simp] theorem exec_overloadDelayExpiry (t : Train) (s : State) :
    exec (.overloadDelayExpiry t) s = s.whenPowered fun s => s.overloadDelayExpiry t := rfl

@[simp] theorem exec_clearingExpiry (t : Train) (s : State) :
    exec (.clearingExpiry t) s = s.whenPowered fun s => s.clearingExpiry t := rfl

@[simp] theorem exec_sampleExpiry (t : Train) (s : State) :
    exec (.sampleExpiry t) s = s.whenPowered fun s => s.sampleExpiry t := rfl

@[simp] theorem exec_drainExpiry (t : Train) (s : State) :
    exec (.drainExpiry t) s = s.whenPowered fun s => s.drainExpiry t := rfl

@[simp] theorem exec_deadTimeExpiry (t : Train) (s : State) :
    exec (.deadTimeExpiry t) s = s.whenPowered fun s => s.deadTimeExpiry t := rfl

@[simp] theorem exec_moveTimerExpiry (t : Train) (s : State) :
    exec (.moveTimerExpiry t) s = s.whenPowered fun s => s.moveTimerExpiry t := rfl

@[simp] theorem exec_jogTimeEnd (t : Train) (s : State) :
    exec (.jogTimeEnd t) s = s.whenPowered fun s => s.jogTimeEnd t := rfl

@[simp] theorem exec_dwellExpiry (s : State) :
    exec .dwellExpiry s = s.whenPowered fun s => s.dwellExpiry := rfl

@[simp] theorem exec_timeLimitExpiry (s : State) :
    exec .timeLimitExpiry s = s.whenPowered fun s => s.timeLimitExpiry := rfl

@[simp] theorem exec_wearStep (t : Train) (s : State) :
    exec (.wearStep t) s = s.whenPowered fun s => s.wearStep t := rfl

@[simp] theorem exec_updateExpiry (t : Train) (s : State) :
    exec (.updateExpiry t) s = s.whenPowered fun s => s.updateExpiry t := rfl

@[simp] theorem exec_storeWriteComplete (success : Bool) (s : State) :
    exec (.storeWriteComplete success) s = s.whenPowered fun s => s.writeCompleted success := rfl

@[simp] theorem exec_linkByteReceived (l : Link) (b : Byte) (s : State) :
    exec (.linkByteReceived l b) s = s.whenPowered fun s => s.linkByte l b := rfl

@[simp] theorem exec_interByteGap (l : Link) (s : State) :
    exec (.interByteGap l) s = s.whenPowered fun s => s.interByteGap l := rfl

@[simp] theorem exec_replySent (l : Link) (s : State) :
    exec (.replySent l) s = s.whenPowered fun s => s.replySent l := rfl

@[simp] theorem exec_setGap (l : Link) (tag station : Byte) (value : Half) (priority : Byte) (keep wait : Half)
    (s : State) :
    exec (.setGap l tag station value priority keep wait) s =
      s.whenPowered fun s => s.takeSetGap ⟨l, tag, station, value, priority, keep, wait⟩ := rfl

@[simp] theorem exec_setRate (l : Link) (tag station : Byte) (value : Half) (priority : Byte) (keep wait : Half)
    (s : State) :
    exec (.setRate l tag station value priority keep wait) s =
      s.whenPowered fun s => s.takeSetRate ⟨l, tag, station, value, priority, keep, wait⟩ := rfl

@[simp] theorem exec_withdraw (l : Link) (tag station : Byte) (s : State) :
    exec (.withdraw l tag station) s = s.whenPowered fun s => s.takeWithdraw l tag station := rfl

@[simp] theorem exec_setMode (l : Link) (tag station mode : Byte) (s : State) :
    exec (.setMode l tag station mode) s = s.whenPowered fun s => s.takeSetMode l tag station mode := rfl

@[simp] theorem exec_setParameter (l : Link) (tag set number : Byte) (value : Half) (s : State) :
    exec (.setParameter l tag set number value) s =
      s.whenPowered fun s => s.takeSetParameter l tag set number value := rfl

@[simp] theorem exec_jog (l : Link) (tag station direction : Byte) (duty duration : Half) (s : State) :
    exec (.jog l tag station direction duty duration) s =
      s.whenPowered fun s => s.takeJog l tag station direction duty duration := rfl

@[simp] theorem exec_startZero (l : Link) (tag station : Byte) (s : State) :
    exec (.startZero l tag station) s = s.whenPowered fun s => s.takeStartZero l tag station := rfl

@[simp] theorem exec_abortZero (l : Link) (tag station : Byte) (s : State) :
    exec (.abortZero l tag station) s = s.whenPowered fun s => s.takeAbortZero l tag station := rfl

@[simp] theorem exec_acknowledge (l : Link) (tag code subject : Byte) (s : State) :
    exec (.acknowledge l tag code subject) s =
      s.whenPowered fun s => s.takeAcknowledge l tag code subject := rfl

@[simp] theorem exec_acknowledgeAll (l : Link) (tag : Byte) (s : State) :
    exec (.acknowledgeAll l tag) s = s.whenPowered fun s => s.takeAcknowledgeAll l tag := rfl

@[simp] theorem exec_saveProfile (l : Link) (tag : Byte) (s : State) :
    exec (.saveProfile l tag) s = s.whenPowered fun s => s.takeSaveProfile l tag := rfl

@[simp] theorem exec_restart (l : Link) (tag : Byte) (s : State) :
    exec (.restart l tag) s = s.whenPowered fun s => s.takeRestart l tag := rfl

@[simp] theorem exec_setClock (l : Link) (tag : Byte) (value : Word) (s : State) :
    exec (.setClock l tag value) s = s.whenPowered fun s => s.takeSetClock l tag value := rfl

@[simp] theorem exec_clearLock (l : Link) (tag : Byte) (s : State) :
    exec (.clearLock l tag) s = s.whenPowered fun s => s.takeClearLock l tag := rfl

@[simp] theorem exec_readStation (l : Link) (tag station : Byte) (s : State) :
    exec (.readStation l tag station) s = s.whenPowered fun s => s.takeReadStation l tag station := rfl

@[simp] theorem exec_readWaiting (l : Link) (tag : Byte) (s : State) :
    exec (.readWaiting l tag) s = s.whenPowered fun s => s.takeReadWaiting l tag := rfl

@[simp] theorem exec_readConditions (l : Link) (tag : Byte) (s : State) :
    exec (.readConditions l tag) s = s.whenPowered fun s => s.takeReadConditions l tag := rfl

@[simp] theorem exec_readParameter (l : Link) (tag set number : Byte) (s : State) :
    exec (.readParameter l tag set number) s =
      s.whenPowered fun s => s.takeReadParameter l tag set number := rfl

@[simp] theorem exec_readZeroRecord (l : Link) (tag station : Byte) (s : State) :
    exec (.readZeroRecord l tag station) s = s.whenPowered fun s => s.takeReadZeroRecord l tag station := rfl

@[simp] theorem exec_readClock (l : Link) (tag : Byte) (s : State) :
    exec (.readClock l tag) s = s.whenPowered fun s => s.takeReadClock l tag := rfl

@[simp] theorem exec_lossOfPower (s : State) :
    exec .lossOfPower s = s.whenPowered fun s => s.lossOfPower := rfl

/-- A command taken by a part that has power. -/
theorem State.whenPowered_powered {s : State} (h : s.powered = true) (f : State → State) :
    s.whenPowered f = .next (f s) := by simp [State.whenPowered, h]

/-- A command reaching a part that has none. -/
theorem State.whenPowered_unpowered {s : State} (h : s.powered = false) (f : State → State) :
    s.whenPowered f = .next s := by simp [State.whenPowered, h]

/-- A request command is its request taken on its link (log 3). -/
theorem exec_request {i : Instr} {f : RequestFrame} (h : encodeRequest i = some f) (s : State) :
    exec i s = s.whenPowered fun s => s.takeCommand i := by
  cases i <;> first | (simp [encodeRequest] at h; done) | rfl

end Sys2Proof.Machine
end

