-- ==== Sys2Proof/Laws/Operations.lean ====
section
/-! SUPPORT. Laws/Operations.lean: each shared operation makes only the changes of Laws/Changes.lean. -/

namespace Sys2Proof.Machine

variable {s0 s a b : State} {t : Train} {st : Station}

/-! ### The store -/

theorem State.storeFrom_self (s : State) : s.storeFrom s.store :=
  ⟨fun _ h => .inl h, fun _ h => .inr (.inl h)⟩

theorem State.storeFrom_dirty (s : State) (d : DirtySet) : s.storeFrom { s.store with dirty := d } :=
  s.storeFrom_self

theorem startWrite_changes (h : Changes s0 s) : Changes s0 s.startWrite := by
  unfold State.startWrite
  split
  · exact h
  · split
    · exact h
    · refine h.step (.store s _ ⟨fun p hp => .inl hp, fun p hp => .inr (.inr ?_)⟩)
      rename_i sec _
      cases sec with
      | profile => simpa [State.sectionContents, eq_comm] using hp
      | zero => simp [State.sectionContents] at hp
      | wear => simp [State.sectionContents] at hp

theorem mark_changes {sec : StoreSection} (h : Changes s0 s) : Changes s0 (s.mark sec) :=
  startWrite_changes (h.step (.store s _ (s.storeFrom_dirty _)))

theorem State.storeFrom_written (s : State) (job : WriteJob) (h : s.store.writing = some job) :
    s.storeFrom { s.store.written job with writing := none } := by
  refine ⟨fun p hp => ?_, fun p hp => by simp at hp⟩
  have hr : (s.store.written job).readProfile = some p := hp
  rw [Store.readProfile_written] at hr
  cases job with
  | profile q => exact .inr (.inl (by rw [h, Option.some.inj hr]))
  | zero z => exact .inl hr
  | wear w => exact .inl hr

theorem writeCompleted_changes {ok : Bool} (h : Changes s0 s) : Changes s0 (s.writeCompleted ok) := by
  unfold State.writeCompleted
  split
  · exact h
  · rename_i job hj
    refine Changes.ite ?_ ?_
    · exact startWrite_changes (causeEnd_changes (h.step (.store s _ (s.storeFrom_written job hj))))
    · exact onset_changes (h.step (.store s _ ⟨fun p hp => .inl hp, fun p hp => by simp at hp⟩))

/-! ### Governors -/

theorem updateExpiry_changes (h : Changes s0 s) : Changes s0 (s.updateExpiry t) := by
  unfold State.updateExpiry
  exact Changes.ite (h.step (.governor s t _ (.updated _ _ rfl))) h

theorem addLevel_changes (h : Changes s0 s) : Changes s0 (s.addLevel t) := by
  unfold State.addLevel
  exact Changes.ite (onset_changes (addHold_changes h)) (addHold_changes h)

theorem removeLevel_changes (h : Changes s0 s) : Changes s0 (s.removeLevel t) := by
  unfold State.removeLevel
  have h1 : Changes s0 (s.removeHold t .level) := removeHold_changes h
  exact Changes.ite (causeEnd_changes h1) (Changes.ite h1 (causeEnd_changes h1))

theorem judgeLevel_changes {level : Nat} (h : Changes s0 s) : Changes s0 (s.judgeLevel level t) := by
  unfold State.judgeLevel
  exact Changes.ite h (Changes.ite (Changes.ite (removeLevel_changes h) h) (Changes.ite (addLevel_changes h) h))

theorem crusherRunningChanged_changes {r : Bool} (h : Changes s0 s) :
    Changes s0 (s.crusherRunningChanged t r) := Changes.ite (removeHold_changes h) (addHold_changes h)

theorem conveyorHold_changes {r : Bool} (h : Changes s0 s) : Changes s0 (s.conveyorHold r t) :=
  Changes.ite (removeHold_changes h) (addHold_changes h)

theorem conveyorCondition_changes {c : Code} {r : Bool} (h : Changes s0 s) :
    Changes s0 (s.conveyorCondition c r) := Changes.ite (causeEnd_changes h) (onset_changes h)

/-! ### Moves -/

theorem driveMove_changes {e : Int} (h : Changes s0 s) : Changes s0 (s.driveMove t e) := modPositioner_changes h

theorem startMove_changes {e : Int} (h : Changes s0 s) : Changes s0 (s.startMove t e) := by
  unfold State.startMove
  refine Changes.ite (driveMove_changes (removeHold_changes (modPositioner_changes h))) ?_
  have h1 := addHold_changes (c := .gapMove) (t := t)
    (modPositioner_changes (t := t) (f := fun p => { p with move := some ⟨s.now, (s.crusher t).loadAdjust⟩ }) h)
  exact Changes.ite (driveMove_changes h1) (modPositioner_changes h1)

theorem startMoveOr_changes {f : State → State} (hf : Changes s0 s → Changes s0 (f s)) (h : Changes s0 s) :
    Changes s0 (s.startMoveOr t f) := by
  unfold State.startMoveOr
  split
  · exact hf h
  · exact Changes.ite (hf h) (startMove_changes h)

theorem retargetIdle_changes (h : Changes s0 s) : Changes s0 (s.retargetIdle t) := by
  unfold State.retargetIdle
  exact Changes.ite (startMoveOr_changes id h) h

/-! ### Standing settings -/

theorem State.limited_gapMax (s : State) (t : Train) :
    s.limited (crusherOf t) (s.crusher t).gapMax = (s.crusher t).gapMax := by
  simp [State.limited, crusherOf, clamp]

section report

variable {report : Train → State → State} (hr : ∀ t a, Changes s0 a → Changes s0 (report t a))
include hr

theorem writeStandingWith_changes {x : Standing} (hx : ∃ v, x.target = s.limited st v) (h : Changes s0 s) :
    Changes s0 (s.writeStandingWith report st x) := by
  unfold State.writeStandingWith
  dsimp only
  split
  · rename_i he
    exact h.step (.record s st _ (.inl he))
  · obtain ⟨t, r⟩ := st
    cases r with
    | feeder => exact h.step (.feederTarget s t x hx)
    | crusher => exact hr _ _ (h.step (.record s _ _ (.inr ⟨rfl, hx⟩)))

theorem applyWith_changes {r : Slot} (h : Changes s0 s) : Changes s0 (s.applyWith report r) := by
  unfold State.applyWith
  refine writeStandingWith_changes hr ⟨r.value, ?_⟩ (modStation_changes h fun _ => rfl)
  cases hst : r.station with
  | mk t role => cases role <;> rfl

theorem selectWith_changes (h : Changes s0 s) : Changes s0 (s.selectWith report st) := by
  unfold State.selectWith
  split
  · exact h
  · exact Changes.ite (applyWith_changes hr (freeSlot_changes h)) h

theorem evaluateWith_changes (h : Changes s0 s) : Changes s0 (s.evaluateWith report st) := by
  unfold State.evaluateWith
  have h1 := modStation_changes (st := st) (f := fun r => { r with lastAccepting := s.accepting st }) h
    fun _ => rfl
  exact Changes.ite (selectWith_changes hr h1) h1

end report

/-! ### Arrival in IDLE, moves, jogs -/

theorem endEpisode_changes (h : Changes s0 s) : Changes s0 (s.endEpisode t) :=
  evaluateWith_changes (fun _ _ => retargetIdle_changes)
    (causeEnd_changes (removeHold_changes (modSupervisor_changes h)))

theorem arriveIdle_changes (h : Changes s0 s) : Changes s0 (s.arriveIdle t) :=
  Changes.ite (endEpisode_changes h) h

theorem enterIdle_changes (h : Changes s0 s) : Changes s0 (s.enterIdle t) :=
  arriveIdle_changes (removeHold_changes (modPositioner_changes h))

theorem endMove_changes (h : Changes s0 s) : Changes s0 (s.endMove t) :=
  enterIdle_changes (modPositioner_changes h)

theorem resume_changes (h : Changes s0 s) : Changes s0 (s.resume t) := startMoveOr_changes enterIdle_changes h

theorem endJog_changes (h : Changes s0 s) : Changes s0 (s.endJog t) := by
  unfold State.endJog
  have h1 := modPositioner_changes (t := t) (f := fun p => { p.dropJog s.now with state := .suspended }) h
  exact Changes.ite (resume_changes h1) h1

theorem endRunningJog_changes (h : Changes s0 s) : Changes s0 (s.endRunningJog t) :=
  Changes.ite (endJog_changes h) h

theorem addReason_changes {r : Reason} (h : Changes s0 s) : Changes s0 (s.addReason t r) := by
  unfold State.addReason
  exact Changes.ite h (Changes.ite (endJog_changes (modPositioner_changes h)) (modPositioner_changes h))

theorem removeReason_changes {r : Reason} (h : Changes s0 s) : Changes s0 (s.removeReason t r) := by
  unfold State.removeReason
  exact Changes.ite h (Changes.ite (resume_changes (modPositioner_changes h)) (modPositioner_changes h))

theorem judgeMove_changes {f : Nat → CrusherParams → Int → Positioner → Positioner} (h : Changes s0 s) :
    Changes s0 (s.judgeMove t f) := by
  unfold State.judgeMove
  split
  · exact endMove_changes h
  · exact Changes.ite (endMove_changes h) (modPositioner_changes h)

theorem restartMoveTimer_changes (h : Changes s0 s) : Changes s0 (s.restartMoveTimer t) :=
  modPositioner_changes h

theorem retarget_changes (h : Changes s0 s) : Changes s0 (s.retarget t) := by
  unfold State.retarget
  split
  · exact retargetIdle_changes h
  · exact judgeMove_changes (restartMoveTimer_changes h)
  · exact judgeMove_changes (restartMoveTimer_changes h)
  all_goals exact h

theorem driftTest_changes (h : Changes s0 s) : Changes s0 (s.driftTest t) := by
  unfold State.driftTest
  split
  · exact h
  · exact Changes.ite h (startMove_changes h)

theorem sampleAction_changes (h : Changes s0 s) : Changes s0 (s.sampleAction t) := by
  unfold State.sampleAction
  split
  · exact driftTest_changes h
  · exact judgeMove_changes h
  · exact judgeMove_changes h
  all_goals exact h

theorem sampleExpiry_changes (h : Changes s0 s) : Changes s0 (s.sampleExpiry t) :=
  Changes.ite (modPositioner_changes (sampleAction_changes h)) h

theorem writeStanding_changes {x : Standing} (hx : ∃ v, x.target = s.limited st v) (h : Changes s0 s) :
    Changes s0 (s.writeStanding st x) := writeStandingWith_changes (fun _ _ => retarget_changes) hx h

theorem apply_changes {r : Slot} (h : Changes s0 s) : Changes s0 (s.apply r) :=
  applyWith_changes (fun _ _ => retarget_changes) h

theorem select_changes (h : Changes s0 s) : Changes s0 (s.select st) :=
  selectWith_changes (fun _ _ => retarget_changes) h

theorem evaluate_changes (h : Changes s0 s) : Changes s0 (s.evaluate st) :=
  evaluateWith_changes (fun _ _ => retarget_changes) h

theorem drainExpiry_changes (h : Changes s0 s) : Changes s0 (s.drainExpiry t) := by
  unfold State.drainExpiry
  refine Changes.ite ?_ h
  have h1 := modPositioner_changes (t := t) (f := fun p => { p with drainTimer := none }) h
  dsimp only
  split
  · exact endMove_changes h1
  · exact Changes.ite (endMove_changes h1) (driveMove_changes h1)

theorem driveBegan_changes (h : Changes s0 s) : Changes s0 s.driveBegan :=
  Changes.ite (modSequencer_changes h) h

theorem deadTimeExpiry_changes (h : Changes s0 s) : Changes s0 (s.deadTimeExpiry t) := by
  unfold State.deadTimeExpiry
  exact Changes.ite (Changes.ite (driveBegan_changes (modPositioner_changes h)) (modPositioner_changes h)) h

theorem moveTimerExpiry_changes (h : Changes s0 s) : Changes s0 (s.moveTimerExpiry t) := by
  unfold State.moveTimerExpiry
  exact Changes.ite (causeEnd_changes (onset_changes (evaluate_changes (modPositioner_changes h)))) h

theorem clearFault_changes (h : Changes s0 s) : Changes s0 (s.clearFault t) := by
  unfold State.clearFault
  exact Changes.ite (evaluate_changes (Changes.ite (resume_changes h) (modPositioner_changes h))) h

theorem startJog_changes {d : Direction} {u r : Nat} (h : Changes s0 s) : Changes s0 (s.startJog t d u r) := by
  unfold State.startJog
  have h1 := modPositioner_changes (t := t) (f := fun p => { p with jog := some ⟨d, u, r⟩, state := .jogging }) h
  exact Changes.ite (endJog_changes h1) (modPositioner_changes h1)

theorem judgeJog_changes (h : Changes s0 s) : Changes s0 (s.judgeJog t) := Changes.ite (endJog_changes h) h

theorem jogTimeEnd_changes (h : Changes s0 s) : Changes s0 (s.jogTimeEnd t) := Changes.ite (endJog_changes h) h

theorem firstReading_changes (h : Changes s0 s) : Changes s0 (s.firstReading t) := by
  unfold State.firstReading
  refine writeStanding_changes ?_ h
  split
  · rename_i g _
    exact ⟨g, rfl⟩
  · exact ⟨(s.crusher t).gapMax, (s.limited_gapMax t).symm⟩

theorem lendDrive_changes (h : Changes s0 s) : Changes s0 (s.lendDrive t) := modPositioner_changes h

theorem askLent_changes {d : Direction} (h : Changes s0 s) : Changes s0 (s.askLent t d) := by
  unfold State.askLent
  exact Changes.ite (driveBegan_changes (modPositioner_changes h)) (modPositioner_changes h)

theorem returnDrive_changes (h : Changes s0 s) : Changes s0 (s.returnDrive t) := modPositioner_changes h

/-! ### Zero touch -/

theorem judgeWearLimit_changes {w : Bool} (h : Changes s0 s) : Changes s0 (s.judgeWearLimit t w) := by
  unfold State.judgeWearLimit
  exact Changes.ite (onset_changes h) (Changes.ite (causeEnd_changes h) h)

theorem endTouch_changes (h : Changes s0 s) : Changes s0 (s.endTouch t) :=
  removeHold_changes (modSequencer_changes (returnDrive_changes h))

theorem abortTouch_changes {r : TouchResult} (h : Changes s0 s) : Changes s0 (s.abortTouch t r) :=
  mark_changes (endTouch_changes (causeEnd_changes (onset_changes (modZero_changes (modSequencer_changes h)))))

theorem abortIfSubject_changes {r : TouchResult} (h : Changes s0 s) : Changes s0 (s.abortIfSubject t r) :=
  Changes.ite (abortTouch_changes h) h

theorem abortRunning_changes {r : TouchResult} (h : Changes s0 s) : Changes s0 (s.abortRunning r) := by
  unfold State.abortRunning
  split
  · exact h
  · exact abortTouch_changes h

theorem acceptTouch_changes {c : Nat} (h : Changes s0 s) : Changes s0 (s.acceptTouch t c) := by
  unfold State.acceptTouch
  refine judgeWearLimit_changes ?_
  refine Changes.ite ?_ (causeEnd_changes ?_) <;>
  exact evaluate_changes (removeReason_changes (mark_changes (mark_changes (modGap_changes (modZero_changes h)))))

theorem rejectTouch_changes {c : Nat} (h : Changes s0 s) : Changes s0 (s.rejectTouch t c) :=
  causeEnd_changes (onset_changes (modZero_changes h))

theorem commitTouch_changes {c : Nat} (h : Changes s0 s) : Changes s0 (s.commitTouch t c) := by
  unfold State.commitTouch
  have h1 := modSequencer_changes (f := fun q => { q with state := .commit }) h
  exact Changes.ite (mark_changes (endTouch_changes (rejectTouch_changes h1)))
    (endTouch_changes (acceptTouch_changes h1))

theorem startTouch_changes (h : Changes s0 s) : Changes s0 (s.startTouch t) :=
  askLent_changes (addHold_changes (lendDrive_changes (modSequencer_changes h)))

theorem judgeContact_changes {p : Nat} (h : Changes s0 s) : Changes s0 (s.judgeContact t p) := by
  unfold State.judgeContact
  refine Changes.ite h ?_
  split
  · exact Changes.ite (modSequencer_changes h) h
  · exact Changes.ite (modSequencer_changes h) h
  all_goals exact h

theorem judgeLoad_changes {p : Nat} (h : Changes s0 s) : Changes s0 (s.judgeLoad t p) :=
  Changes.ite (abortTouch_changes h) h

theorem dwellExpiry_changes (h : Changes s0 s) : Changes s0 s.dwellExpiry := by
  unfold State.dwellExpiry
  split
  · exact h
  · refine Changes.ite ?_ h
    split
    · exact h
    · exact askLent_changes (modSequencer_changes h)

theorem judgeBackoff_changes {p : Nat} (h : Changes s0 s) : Changes s0 (s.judgeBackoff t p) := by
  unfold State.judgeBackoff
  refine Changes.ite ?_ h
  split
  · exact Changes.ite (commitTouch_changes h) h
  · exact h

theorem timeLimitExpiry_changes (h : Changes s0 s) : Changes s0 s.timeLimitExpiry := by
  unfold State.timeLimitExpiry
  split
  · exact h
  · exact Changes.ite (abortTouch_changes h) h

/-! ### Supervision -/

theorem judgeTrip_changes (h : Changes s0 s) : Changes s0 (s.judgeTrip t) :=
  Changes.ite (removeHold_changes h) (addHold_changes h)

theorem setLatch_changes {w : TripLatch} {d : Option Detail} (h : Changes s0 s) : Changes s0 (s.setLatch t w d) :=
  judgeTrip_changes (onset_changes (modSupervisor_changes h))

theorem ackLatch_changes {w : TripLatch} (h : Changes s0 s) : Changes s0 (s.ackLatch t w) := by
  unfold State.ackLatch
  cases w with
  | repeatedRelief => exact judgeTrip_changes (modSupervisor_changes (modSupervisor_changes h))
  | powerTrip => exact judgeTrip_changes (modSupervisor_changes h)

theorem endLatchCause_changes {w : TripLatch} (h : Changes s0 s) : Changes s0 (s.endLatchCause t w) := by
  unfold State.endLatchCause
  split
  · exact h
  · exact causeEnd_changes h
  · exact judgeTrip_changes (causeEnd_changes (modSupervisor_changes h))

theorem judgeRepeatedRelief_changes (h : Changes s0 s) : Changes s0 (s.judgeRepeatedRelief t) := by
  unfold State.judgeRepeatedRelief
  exact Changes.ite (setLatch_changes (modSupervisor_changes h)) (modSupervisor_changes h)

theorem reliefOnset_changes (h : Changes s0 s) : Changes s0 (s.reliefOnset t) :=
  onset_changes (abortIfSubject_changes (evaluate_changes (addReason_changes
    (floorAndHold_changes (judgeRepeatedRelief_changes (modSupervisor_changes h))))))

theorem reliefEnd_changes (h : Changes s0 s) : Changes s0 (s.reliefEnd t) :=
  Changes.ite (modSupervisor_changes h) h

theorem setDetector_changes {active : Bool} (h : Changes s0 s) : Changes s0 (s.setDetector t active) := by
  unfold State.setDetector
  exact Changes.ite h (Changes.ite (reliefOnset_changes (modSupervisor_changes h))
    (reliefEnd_changes (modSupervisor_changes h)))

theorem judgeSwitch_changes (h : Changes s0 s) : Changes s0 (s.judgeSwitch t) := by
  unfold State.judgeSwitch
  split
  · exact h
  · exact setDetector_changes h

theorem judgePressure_changes {p : Nat} (h : Changes s0 s) : Changes s0 (s.judgePressure t p) := by
  unfold State.judgePressure
  split
  · exact setDetector_changes h
  · exact judgeSwitch_changes h

theorem reliefSwitchChanged_changes (h : Changes s0 s) : Changes s0 (s.reliefSwitchChanged t) := by
  unfold State.reliefSwitchChanged
  split
  · exact h
  · exact judgeSwitch_changes h

theorem clearingExpiry_changes (h : Changes s0 s) : Changes s0 (s.clearingExpiry t) := by
  unfold State.clearingExpiry
  exact Changes.ite (evaluate_changes (removeReason_changes (endLatchCause_changes (modSupervisor_changes h)))) h

theorem endOverload_changes (h : Changes s0 s) : Changes s0 (s.endOverload t) :=
  causeEnd_changes (removeHold_changes (modSupervisor_changes h))

theorem judgeOverload_changes {p : Nat} (h : Changes s0 s) : Changes s0 (s.judgeOverload t p) := by
  unfold State.judgeOverload
  refine Changes.ite (Changes.ite (endOverload_changes h) h) (Changes.ite ?_ (modSupervisor_changes h))
  split
  · exact h
  · exact modSupervisor_changes h

theorem overloadDelayExpiry_changes (h : Changes s0 s) : Changes s0 (s.overloadDelayExpiry t) := by
  unfold State.overloadDelayExpiry
  exact Changes.ite (onset_changes (floorAndHold_changes (modSupervisor_changes h))) h

theorem endTripCause_changes (h : Changes s0 s) : Changes s0 (s.endTripCause t) :=
  endLatchCause_changes (modSupervisor_changes h)

theorem judgePowerTrip_changes {p : Nat} (h : Changes s0 s) : Changes s0 (s.judgePowerTrip t p) := by
  unfold State.judgePowerTrip
  dsimp only
  have h1 : Changes s0 (if (!(s.supervisor t).tripCause && decide ((s.crusher t).tripLevel ≤ p)) = true then
      (s.modSupervisor t fun v => { v with tripCause := true }).setLatch t .powerTrip (some (.power p))
    else s) := Changes.ite (setLatch_changes (modSupervisor_changes h)) h
  exact Changes.ite (endTripCause_changes h1) h1

theorem superviseAbsent_changes (h : Changes s0 s) : Changes s0 (s.superviseAbsent t) := by
  unfold State.superviseAbsent
  have h1 : ∀ {x}, Changes s0 x → Changes s0 (x.removeReason t .relief |>.removeHold t .relief) :=
    fun hx => removeHold_changes (removeReason_changes hx)
  have h2 := h1 (modSupervisor_changes (t := t) (f := fun v =>
    { v with detectorActive := false, clearingTimer := none, relief := .normal, overloadTimer := none,
             history := [] }) h)
  have ite3 : ∀ {c : Prop} [Decidable c] {x y : State}, Changes s0 x → Changes s0 y →
      Changes s0 (if c then x else y) := fun hx hy => Changes.ite hx hy
  refine ite3 (endLatchCause_changes ?_) ?_ <;> refine ite3 (endTripCause_changes ?_) ?_ <;>
    refine ite3 (endOverload_changes ?_) ?_ <;> refine evaluate_changes (ite3 (causeEnd_changes h2) h2)

/-! ### Measuring -/

theorem takeFirstReading_changes (h : Changes s0 s) : Changes s0 (s.takeFirstReading t) :=
  Changes.ite (firstReading_changes (modGap_changes h)) h

theorem positionOutside_changes (h : Changes s0 s) : Changes s0 (s.positionOutside t) := by
  unfold State.positionOutside
  have h1 := evaluate_changes (st := crusherOf t) (addReason_changes (t := t) (r := .position)
    (takeFirstReading_changes (t := t) (modGap_changes (t := t) (f := fun g =>
      { g with validity := .notValid, recovery := none, gap := none, faultStanding := true }) h)))
  exact Changes.ite (Changes.ite (abortIfSubject_changes h1) h1)
    (onset_changes (Changes.ite (abortIfSubject_changes h1) h1))

theorem becomeValid_changes {g : Option Nat} (h : Changes s0 s) : Changes s0 (s.becomeValid t g) := by
  unfold State.becomeValid
  refine Changes.ite (causeEnd_changes ?_) ?_ <;>
  exact evaluate_changes (removeReason_changes (takeFirstReading_changes (modGap_changes h)))

theorem positionInside_changes {p : Nat} (h : Changes s0 s) : Changes s0 (s.positionInside t p) := by
  unfold State.positionInside
  split
  · exact becomeValid_changes h
  · exact takeFirstReading_changes (modGap_changes h)
  · exact takeFirstReading_changes (modGap_changes h)
  · exact modGap_changes h

theorem positionArrival_changes {r : Option (BitVec 16)} (h : Changes s0 s) :
    Changes s0 (s.positionArrival t r) := by
  unfold State.positionArrival
  cases r with
  | none => exact Changes.ite h (judgeJog_changes (positionOutside_changes h))
  | some p =>
    exact Changes.ite (inputs_changes h)
      (Changes.ite (judgeBackoff_changes (judgeJog_changes (positionInside_changes (inputs_changes h))))
        (judgeBackoff_changes (judgeJog_changes (positionOutside_changes (inputs_changes h)))))

theorem recoveryExpiry_changes (h : Changes s0 s) : Changes s0 (s.recoveryExpiry t) := by
  unfold State.recoveryExpiry
  split
  · exact h
  · exact Changes.ite (becomeValid_changes h) h

theorem pressureArrival_changes {r : LoopReading} (h : Changes s0 s) : Changes s0 (s.pressureArrival t r) := by
  unfold State.pressureArrival
  exact Changes.ite (judgeContact_changes (judgePressure_changes (inputs_changes h))) (inputs_changes h)

theorem powerArrival_changes {r : LoopReading} (h : Changes s0 s) : Changes s0 (s.powerArrival t r) := by
  unfold State.powerArrival
  exact Changes.ite
    (judgeLoad_changes (judgePowerTrip_changes (judgeOverload_changes (inputs_changes h)))) (inputs_changes h)

theorem surgeLevelArrival_changes {r : LoopReading} (h : Changes s0 s) : Changes s0 (s.surgeLevelArrival r) :=
  Changes.forTrains (f := State.judgeLevel (analogOf r 1000).scaled) (fun _ _ => judgeLevel_changes)
    (inputs_changes (x := { s.inputs with surge := some (analogOf r 1000) }) h)

theorem countLoaded_changes (h : Changes s0 s) : Changes s0 (s.countLoaded t) :=
  Changes.ite (modGap_changes h) h

theorem wearStep_changes (h : Changes s0 s) : Changes s0 (s.wearStep t) := by
  unfold State.wearStep
  refine Changes.ite (judgeWearLimit_changes ?_) h
  exact Changes.ite (mark_changes (modGap_changes h)) (modGap_changes h)

theorem runningChanged_changes {r : Bool} (h : Changes s0 s) : Changes s0 (s.runningChanged t r) := by
  unfold State.runningChanged
  exact Changes.ite h (Changes.ite (crusherRunningChanged_changes h)
    (abortIfSubject_changes (crusherRunningChanged_changes h)))

theorem deliverChange_changes {i : DigitalInput} {r : Bool} (h : Changes s0 s) :
    Changes s0 (s.deliverChange i r) := by
  unfold State.deliverChange
  split
  · exact runningChanged_changes h
  · exact Changes.ite (reliefSwitchChanged_changes h) h
  · exact conveyorCondition_changes (conveyorHold_changes h)
  · exact conveyorCondition_changes (conveyorHold_changes (conveyorHold_changes (conveyorHold_changes h)))

theorem digitalChange_changes {i : DigitalInput} (h : Changes s0 s) : Changes s0 (s.digitalChange i) := by
  unfold State.digitalChange
  exact Changes.ite (deliverChange_changes (inputs_changes h)) h

theorem estopAssert_changes (h : Changes s0 s) : Changes s0 s.estopAssert := by
  unfold State.estopAssert
  refine Changes.ite (onset_changes (abortRunning_changes ?_)) h
  exact Changes.forTrains (fun _ _ => addHold_changes)
    (Changes.forTrains (fun _ _ => addReason_changes) (inputs_changes h))

theorem estopRelease_changes (h : Changes s0 s) : Changes s0 s.estopRelease := by
  unfold State.estopRelease
  refine Changes.ite (causeEnd_changes ?_) h
  exact Changes.forTrains (fun _ _ => removeHold_changes)
    (Changes.forTrains (fun _ _ => removeReason_changes) (inputs_changes h))

/-! ### Modes, presence, parameters -/

theorem judgeModeHold_changes (h : Changes s0 s) : Changes s0 (s.judgeModeHold t) :=
  Changes.ite (removeHold_changes h) (addHold_changes h)

theorem judgeModeReason_changes (h : Changes s0 s) : Changes s0 (s.judgeModeReason t) :=
  Changes.ite (removeReason_changes h) (addReason_changes h)

theorem enterMode_changes {m : Mode} (h : Changes s0 s) : Changes s0 (s.enterMode st m) := by
  unfold State.enterMode
  have h1 := modStation_changes (st := st) (f := fun r => { r with mode := m }) h fun _ => rfl
  obtain ⟨t, r⟩ := st
  cases r with
  | feeder =>
    refine Changes.ite (removeSlots_changes ?_) ?_ <;>
      exact Changes.ite h1 (evaluate_changes (judgeModeHold_changes h1))
  | crusher =>
    refine Changes.ite (removeSlots_changes ?_) ?_ <;>
      exact Changes.ite h1 (evaluate_changes (judgeModeHold_changes
        (judgeModeReason_changes (endRunningJog_changes h1))))

theorem makeAbsent_changes (h : Changes s0 s) : Changes s0 (s.makeAbsent t) := by
  unfold State.makeAbsent
  have h1 := addReason_changes (t := t) (r := .position) (modGap_changes (t := t) (f := fun g =>
    { g with validity := .notValid, recovery := none, gap := none, faultStanding := false })
    (enterMode_changes (st := crusherOf t) (m := .outOfService)
      (enterMode_changes (st := feederOf t) (m := .outOfService) h)))
  refine Changes.ite ?_ (causeEnd_changes ?_) <;> refine evaluate_changes (evaluate_changes ?_) <;>
    refine Changes.ite (removeLevel_changes ?_) ?_ <;> refine superviseAbsent_changes ?_ <;>
    exact Changes.ite (causeEnd_changes h1) h1

theorem takeLevel_changes {i : DigitalInput} (h : Changes s0 s) : Changes s0 (s.takeLevel i) := by
  unfold State.takeLevel
  split
  · exact h
  · exact deliverChange_changes h

theorem makePresent_changes (h : Changes s0 s) : Changes s0 (s.makePresent t) := by
  unfold State.makePresent
  refine Changes.ite ?_ (onset_changes ?_) <;>
  refine takeLevel_changes (takeLevel_changes (modGap_changes (modStation_changes (modStation_changes
    (writeStanding_changes ⟨_, (State.limited_gapMax _ t).symm⟩ (writeStanding_changes ⟨0, ?_⟩
      (enterMode_changes (enterMode_changes h)))) fun _ => rfl) fun _ => rfl))) <;>
  simp [State.limited, feederOf, Standing.start]

theorem judgePresence_changes {q : Quad Bool} (h : Changes s0 s) : Changes s0 (s.judgePresence q t) := by
  unfold State.judgePresence
  split
  · exact makeAbsent_changes h
  · exact makePresent_changes h
  all_goals exact h

theorem storeLine_changes {n : LineParam} {v : Nat} (hv : n.range.defined v = true) (h : Changes s0 s) :
    Changes s0 (s.storeLine n (storedValue n.range (s.line.bounds n) v)) := by
  have h1 := h.step (.line s n v hv)
  cases n with
  | trainsPresent =>
    exact Changes.forTrains (f := State.judgePresence s.line.trainsPresent) (fun _ _ => judgePresence_changes) h1
  | surgeLow | surgeResume | surgeSlow | surgeHigh => exact h1

theorem storeFeeder_changes {n : FeederParam} {v : Nat} (hv : n.range.defined v = true) (h : Changes s0 s) :
    Changes s0 (s.storeFeeder t n (storedValue n.range ((s.feeder t).bounds n) v)) := by
  cases n with
  | rateMin => exact h.step (.feederLimit s t _ v hv (.inl rfl))
  | rateMax => exact h.step (.feederLimit s t _ v hv (.inr rfl))
  | trimLimit => exact h.step (.feederTrim s t v)
  | updateInterval | rampUp | rampDown | loadTarget | loadBand | trimUp | trimDown | slowRate | outputPolarity
  | authority | startMode =>
    exact h.step (.feederParam s t _ v hv (by decide) (by decide) (by decide))

/-- A crusher's limits written, and its target clamped into them (R21). -/
theorem clampStanding_changes {n : CrusherParam} {v : Nat} (hv : n.range.defined v = true) (h : Changes s0 s) :
    Changes s0 ({ s with
      crusherParams :=
        s.crusherParams.set t
          ((s.crusher t).put n (storedValue n.range ((s.crusher t).bounds n) v)) }.clampStanding (crusherOf t)) := by
  have h1 := fun f hf => h.step (.crusherLimit s t n v hv f hf)
  unfold State.clampStanding State.writeStanding State.writeStandingWith
  exact Changes.ite (h1 _ rfl) (retarget_changes (h1 _ rfl))

theorem storeCrusher_changes {n : CrusherParam} {v : Nat} (hv : n.range.defined v = true) (h : Changes s0 s) :
    Changes s0 (s.storeCrusher t n (storedValue n.range ((s.crusher t).bounds n) v)) := by
  cases n with
  | gapMin => exact clampStanding_changes hv h
  | gapMax => exact clampStanding_changes hv h
  | wearLimit => exact judgeWearLimit_changes (h.step (.crusherParam s t _ v hv (by decide) (by decide)))
  | gain | posLow | posHigh | deadband | kp | dutyMin | dutyMax | deadTime | sampleInterval | moveLimit
  | loadAdjust | drainTime | wearRate | loadedPower | emptyPower | powerSpan | pressureSpan | reliefSource
  | switchInvert | reliefLevel | reliefHyst | clearingTime | reliefCount | reliefWindow | contactLevel
  | contactDwell | creepDuty | backoff | zeroShiftMax | zeroTimeLimit | resumeLevel | overloadLevel | tripLevel
  | overloadDelay | openPolarity | closePolarity | authority | startMode =>
    exact h.step (.crusherParam s t _ v hv (by decide) (by decide))

end Sys2Proof.Machine
end

