-- ==== Sys2Proof/Laws/Commands.lean ====
section
/-! SUPPORT. Laws/Commands.lean: starts, requests, frames and boundaries make only the changes of
Laws/Changes.lean, and so does every command. -/

namespace Sys2Proof.Machine

variable {s0 s a b : State} {t : Train} {st : Station} {l : Link}

/-! ### Start -/

theorem reportSection_changes {sec : StoreSection} {ok : Bool} (h : Changes s0 s) :
    Changes s0 (s.reportSection sec ok) := Changes.ite h (onset_changes h)

theorem reportZero_changes (h : Changes s0 s) : Changes s0 (s.reportZero t) := Changes.ite (onset_changes h) h

theorem reportWear_changes (h : Changes s0 s) : Changes s0 (s.reportWear t) := Changes.ite (onset_changes h) h

theorem startFrom_changes {store : Store} {stamp : Stamp} (hs : store = s.store ∨ store = s.store.cutShort)
    (h : Changes s0 s) : Changes s0 (startFrom store stamp s.pending) :=
  Changes.forTrains (f := State.reportWear) (fun _ _ => reportWear_changes)
    (Changes.forTrains (f := State.reportZero) (fun _ _ => reportZero_changes)
      (reportSection_changes (reportSection_changes (reportSection_changes (h.step (.start s store stamp hs))))))

theorem powerOn_changes (h : Changes s0 s) : Changes s0 s.powerOn := startFrom_changes (.inr rfl) h

theorem lossOfPower_changes (h : Changes s0 s) : Changes s0 s.lossOfPower := h.step (.lost s)

theorem restartStart_changes (h : Changes s0 s) : Changes s0 s.restartStart :=
  Changes.ite (startFrom_changes (.inl rfl) h) h

/-! ### The judging of a request -/

theorem lockLink_changes (h : Changes s0 s) : Changes s0 (s.lockLink l) := onset_changes (modLink_changes h)

theorem unlockLink_changes (h : Changes s0 s) : Changes s0 (s.unlockLink l) := by
  unfold State.unlockLink
  exact Changes.ite (causeEnd_changes (modLink_changes h)) (modLink_changes h)

/-- An owner makes only changes. -/
def Lawful (owner : State → Decision) : Prop := ∀ s0 s, Changes s0 s → Changes s0 (owner s).state

theorem Decision.ite {c : Prop} [Decidable c] {d e : Decision} (hd : Changes s0 d.state) (he : Changes s0 e.state) :
    Changes s0 (if c then d else e).state := by
  split
  · exact hd
  · exact he

theorem takeRequest_changes {tag : Byte} {k : Kind} {ok : Bool} {owner : State → Decision} (ho : Lawful owner)
    (h : Changes s0 s) : Changes s0 (s.takeRequest l tag k ok owner) := by
  have hb : Changes s0 (s.replyBegins l) := modLink_changes h
  have hj : Changes s0 ((s.replyBegins l).judged l k ok owner).state :=
    Decision.ite hb (Decision.ite (lockLink_changes hb) (Decision.ite hb (ho _ _ hb)))
  exact Changes.ite (modLink_changes hj) h

theorem withPresent_changes {n : Byte} {f : Station → Decision} (hf : ∀ st, Changes s0 (f st).state)
    (h : Changes s0 s) : Changes s0 (s.withPresent n f).state := by
  unfold State.withPresent
  split
  · exact h
  · exact Decision.ite (hf _) h

theorem withPresentCrusher_changes {n : Byte} {f : Train → Decision} (hf : ∀ t, Changes s0 (f t).state)
    (h : Changes s0 s) : Changes s0 (s.withPresentCrusher n f).state := by
  unfold State.withPresentCrusher
  refine withPresent_changes (fun st => ?_) h
  split
  · exact h
  · exact hf _

/-! ### Setting requests -/

theorem releaseStanding_changes (h : Changes s0 s) : Changes s0 (s.releaseStanding st) := by
  unfold State.releaseStanding
  have h1 := modStation_changes (st := st) (f := fun r => { r with standing := r.standing.released }) h
    fun _ => rfl
  exact Changes.ite (select_changes h1) h1

theorem keepLapse_changes (h : Changes s0 s) : Changes s0 (s.keepLapse st) :=
  Changes.ite (releaseStanding_changes h) h

theorem waitExpiry_changes {i : Nat} (h : Changes s0 s) : Changes s0 (s.waitExpiry i) :=
  Changes.ite (freeSlot_changes h) h

theorem Board.anyWaiting_freeWhere (b : Board) (gone : Slot → Bool) :
    (b.freeWhere gone).anyWaiting gone = false := by
  simp only [Board.anyWaiting, Board.freeWhere, List.any_eq_false, List.mem_map]
  rintro o ⟨x, -, rfl⟩
  cases x with
  | none => simp
  | some r => by_cases hg : gone r = true <;> simp [hg]

theorem Board.anyWaiting_numbered (b : Board) (p : Slot → Bool) : b.numbered.anyWaiting p = b.anyWaiting p := rfl

theorem place_changes {r : Slot} {p : Placement}
    (hr : s.board.anyWaiting (Slot.isOf r.source r.station) = false) (h : Changes s0 s) :
    Changes s0 (s.place r p) := by
  unfold State.place
  split
  · exact apply_changes h
  · exact h.step (.board s _ (.place _ r hr))
  all_goals exact h

theorem decideSetting_changes {q : SettingRequest} (h : Changes s0 s) :
    Changes s0 (s.decideSetting st q).state := by
  have h1 : Changes s0 (s.numberAndSupersede (s.slotOf st q)) :=
    (freeWhere_changes (gone := Slot.isOf q.link st) h).step (.board _ _ .numbered)
  have h2 := place_changes (r := s.slotOf st q)
    (p := (s.numberAndSupersede (s.slotOf st q)).placement (s.slotOf st q))
    (Board.anyWaiting_freeWhere s.board (Slot.isOf q.link st)) h1
  exact Changes.ite (h2.step (.renumber _)) h2

theorem ownSetting_lawful (role : Role) (q : SettingRequest) : Lawful (State.ownSetting role q) := fun _ _ h =>
  withPresent_changes (fun _ => Decision.ite h (Decision.ite (lockLink_changes h)
    (decideSetting_changes (keepLapse_changes h)))) h

theorem ownWithdraw_lawful (l : Link) (n : Byte) : Lawful (State.ownWithdraw l n) := fun s0 s h =>
  withPresent_changes (fun st => by
    have h1 := freeWhere_changes (gone := Slot.isOf l st) h
    show Changes s0 (if _ then _ else _)
    exact Changes.ite (releaseStanding_changes h1) h1) h

/-! ### The other requests -/

theorem ownSetMode_lawful (n m : Byte) : Lawful (State.ownSetMode n m) := fun _ _ h =>
  withPresent_changes (fun _ => Decision.ite h (Decision.ite h (enterMode_changes h))) h

theorem storeParam_changes {p : Param} {v : Nat} (hv : p.range.defined v = true) (h : Changes s0 s) :
    Changes s0 (s.storeParam p (storedValue p.range (s.paramBounds p) v)) := by
  cases p with
  | crusher t n => exact storeCrusher_changes hv h
  | feeder t n => exact storeFeeder_changes hv h
  | line n => exact storeLine_changes hv h

theorem writeParam_changes {p : Param} {v : Nat} (h : Changes s0 s) : Changes s0 (s.writeParam p v).state := by
  unfold State.writeParam
  split
  · exact h
  · rename_i hv
    exact Decision.ite h (Decision.ite h (storeParam_changes (by simpa using hv) h))

theorem withParam_changes {set n : Byte} {f : Param → Decision} (hf : ∀ p, Changes s0 (f p).state)
    (h : Changes s0 s) : Changes s0 (s.withParam set n f).state := by
  unfold State.withParam
  split
  · exact h
  · split
    · exact h
    · exact hf _

theorem ownSetParameter_lawful (set n : Byte) (v : Half) : Lawful (State.ownSetParameter set n v) := fun _ _ h =>
  withParam_changes (fun _ => writeParam_changes h) h

theorem ownReadParameter_lawful (set n : Byte) : Lawful (State.ownReadParameter set n) := fun _ _ h =>
  withParam_changes (fun _ => h) h

theorem ownJog_lawful (n d : Byte) (u r : Half) : Lawful (State.ownJog n d u r) := fun _ _ h =>
  withPresentCrusher_changes
    (fun _ => Decision.ite h (Decision.ite h (Decision.ite h (startJog_changes h)))) h

theorem ownStartZero_lawful (n : Byte) : Lawful (State.ownStartZero n) := fun _ _ h =>
  withPresentCrusher_changes (fun _ => Decision.ite h (Decision.ite h (startTouch_changes h))) h

theorem ownAbortZero_lawful (n : Byte) : Lawful (State.ownAbortZero n) := fun _ _ h =>
  withPresentCrusher_changes (fun _ => Decision.ite h (abortTouch_changes h)) h

theorem ackOwner_changes {c : Code} (h : Changes s0 s) : Changes s0 (s.ackOwner c t) := by
  unfold State.ackOwner
  split
  · exact ackLatch_changes h
  · exact ackLatch_changes h
  · exact clearFault_changes h
  · exact modZero_changes h
  · exact modZero_changes h
  all_goals exact h

theorem acknowledge_changes {c : Code} {sub : Subject} (h : Changes s0 s) :
    Changes s0 (s.acknowledge c sub) := by
  have h1 := h.step (.conditions s (fun l => l.acknowledged c sub) (.acknowledged c sub))
  have h2 : Changes s0 ((s.modConditions fun l => l.acknowledged c sub).ackSubject c sub) := by
    unfold State.ackSubject
    split
    · exact ackOwner_changes h1
    all_goals exact h1
  exact h2.step (.conditions _ (fun l => l.withoutAnswered c sub) (.withoutAnswered c sub))

theorem ownAcknowledge_lawful (c sub : Byte) : Lawful (State.ownAcknowledge c sub) := by
  intro s0 s h
  unfold State.ownAcknowledge
  split
  · exact h
  · split
    · exact h
    · exact acknowledge_changes h

theorem ackCrusher_changes (h : Changes s0 s) : Changes s0 (s.ackCrusher t) :=
  ackOwner_changes (ackOwner_changes (ackOwner_changes (ackOwner_changes (ackOwner_changes h))))

theorem acknowledgeOwners_changes (h : Changes s0 s) : Changes s0 s.acknowledgeOwners :=
  Changes.forTrains (f := State.ackCrusher) (fun _ _ => ackCrusher_changes)
    (h.step (.conditions s ConditionList.allAcknowledged .allAcknowledged))

theorem ownAcknowledgeAll_lawful : Lawful State.ownAcknowledgeAll := fun _ _ h =>
  (acknowledgeOwners_changes h).step (.conditions _ ConditionList.allAnswered .allAnswered)

theorem ownSaveProfile_lawful : Lawful State.ownSaveProfile := fun _ _ h => mark_changes h

theorem ownRestart_lawful : Lawful State.ownRestart := fun _ _ h => restart_changes h

theorem ownSetClock_lawful (v : Word) : Lawful (State.ownSetClock v) := fun _ _ h => time_changes h

theorem ownClearLock_lawful (l : Link) : Lawful (State.ownClearLock l) := fun _ _ h => unlockLink_changes h

theorem ownReadStation_lawful (n : Byte) : Lawful (State.ownReadStation n) := by
  intro s0 s h
  unfold State.ownReadStation
  split <;> exact h

theorem ownReadZeroRecord_lawful (n : Byte) : Lawful (State.ownReadZeroRecord n) := by
  intro s0 s h
  unfold State.ownReadZeroRecord
  split
  · exact h
  · split <;> exact h

theorem takeCommand_changes (i : Instr) (h : Changes s0 s) : Changes s0 (s.takeCommand i) := by
  cases i <;> first | exact h | apply takeRequest_changes _ h
  · exact ownSetting_lawful _ _
  · exact ownSetting_lawful _ _
  · exact ownWithdraw_lawful _ _
  · exact ownSetMode_lawful _ _
  · exact ownSetParameter_lawful _ _ _
  · exact ownJog_lawful _ _ _ _
  · exact ownStartZero_lawful _
  · exact ownAbortZero_lawful _
  · exact ownAcknowledge_lawful _ _
  · exact ownAcknowledgeAll_lawful
  · exact ownSaveProfile_lawful
  · exact ownRestart_lawful
  · exact ownSetClock_lawful _
  · exact ownClearLock_lawful _
  · exact ownReadStation_lawful _
  · exact fun _ _ h => h
  · exact fun _ _ h => h
  · exact ownReadParameter_lawful _ _
  · exact ownReadZeroRecord_lawful _
  · exact fun _ _ h => h

/-! ### Frames -/

theorem receiving_changes {r : Option Receiving} (h : Changes s0 s) : Changes s0 (s.receiving l r) :=
  modLink_changes h

theorem refuseFormat_changes {tag k : Byte} (h : Changes s0 s) : Changes s0 (s.refuseFormat l tag k) := by
  have ha : Changes s0 (s.replyBegins l) := modLink_changes h
  have hb : Changes s0 ((s.replyBegins l).refuse .format).state := ha
  unfold State.refuseFormat Decision.reply
  exact modLink_changes hb

theorem takeFrame_changes {tag k : Byte} {body : List Byte} (h : Changes s0 s) :
    Changes s0 (s.takeFrame l tag k body) := by
  unfold State.takeFrame
  split
  · exact refuseFormat_changes h
  · exact takeCommand_changes _ h

theorem completeFrame_changes {bytes : List Byte} (h : Changes s0 s) :
    Changes s0 (s.completeFrame l bytes) := by
  unfold State.completeFrame
  split
  · exact Changes.ite h (Changes.ite h (takeFrame_changes h))
  · exact h

theorem frameByte_changes {bytes : List Byte} (h : Changes s0 s) : Changes s0 (s.frameByte l bytes) := by
  unfold State.frameByte
  split
  · exact Changes.ite (receiving_changes h) (receiving_changes h)
  · exact Changes.ite (completeFrame_changes (receiving_changes h)) (receiving_changes h)
  · exact receiving_changes h

theorem takeByte_changes {x : Byte} (h : Changes s0 s) : Changes s0 (s.takeByte l x) := by
  unfold State.takeByte
  split
  · exact Changes.ite (frameByte_changes h) h
  · exact frameByte_changes h

theorem interByteGap_changes (h : Changes s0 s) : Changes s0 (s.interByteGap l) :=
  Changes.ite (receiving_changes h) h

theorem linkByte_changes {x : Byte} (h : Changes s0 s) : Changes s0 (s.linkByte l x) :=
  Changes.ite (takeByte_changes (interByteGap_changes h)) h

theorem restartReplied_changes (h : Changes s0 s) : Changes s0 (s.restartReplied l) :=
  Changes.ite (restart_changes h) h

theorem replySent_changes (h : Changes s0 s) : Changes s0 (s.replySent l) :=
  Changes.ite (restartReplied_changes (modLink_changes h)) h

/-! ### Boundaries -/

theorem secondBoundary_changes (h : Changes s0 s) : Changes s0 s.secondBoundary := h.step (.second s)

theorem settleCounts_changes (h : Changes s0 s) : Changes s0 s.settleCounts :=
  Changes.foldl (f := State.waitExpiry) (fun _ _ => waitExpiry_changes) _
    (Changes.foldl (f := State.keepLapse) (fun _ _ => keepLapse_changes) _ (secondBoundary_changes h))

theorem settleInputs_changes (h : Changes s0 s) : Changes s0 s.settleInputs :=
  estopRelease_changes (estopAssert_changes
    (Changes.foldl (f := State.digitalChange) (fun _ _ => digitalChange_changes) _ h))

/-- One kind of expiry taken for the four trains. -/
theorem expiries_changes {f : State → Train → State} (hf : ∀ t a, Changes s0 a → Changes s0 (f a t))
    (h : Changes s0 s) : Changes s0 (s.forTrains fun t s => f s t) :=
  Changes.forTrains (f := fun t s => f s t) hf h

theorem settleTimers_changes (h : Changes s0 s) : Changes s0 s.settleTimers := by
  unfold State.settleTimers
  have h1 := expiries_changes (f := State.recoveryExpiry) (fun _ _ => recoveryExpiry_changes) h
  have h2 := expiries_changes (f := State.clearingExpiry) (fun _ _ => clearingExpiry_changes) h1
  have h3 := expiries_changes (f := State.overloadDelayExpiry) (fun _ _ => overloadDelayExpiry_changes) h2
  have h4 := timeLimitExpiry_changes (dwellExpiry_changes h3)
  have h5 := expiries_changes (f := State.drainExpiry) (fun _ _ => drainExpiry_changes) h4
  have h6 := expiries_changes (f := State.deadTimeExpiry) (fun _ _ => deadTimeExpiry_changes) h5
  have h7 := expiries_changes (f := State.moveTimerExpiry) (fun _ _ => moveTimerExpiry_changes) h6
  have h8 := expiries_changes (f := State.sampleExpiry) (fun _ _ => sampleExpiry_changes) h7
  have h9 := expiries_changes (f := State.jogTimeEnd) (fun _ _ => jogTimeEnd_changes) h8
  have h10 := expiries_changes (f := State.wearStep) (fun _ _ => wearStep_changes) h9
  exact expiries_changes (f := State.updateExpiry) (fun _ _ => updateExpiry_changes) h10

theorem settleLinks_changes (h : Changes s0 s) : Changes s0 s.settleLinks :=
  interByteGap_changes (interByteGap_changes (interByteGap_changes h))

theorem settle_changes (h : Changes s0 s) : Changes s0 s.settle :=
  restartStart_changes (settleLinks_changes (settleTimers_changes (settleInputs_changes
    (settleCounts_changes h))))

theorem sampleInputs_changes {x : Samples} (h : Changes s0 s) : Changes s0 (s.sampleInputs x) :=
  have h1 : Changes s0 (DigitalInput.all.foldl State.firstLevel { s with inputs := s.inputs.sampled x }) :=
    Changes.foldl (fun _ _ hx => Changes.ite (digitalChange_changes hx) hx) _ (inputs_changes h)
  Changes.ite (estopRelease_changes (estopAssert_changes h1)) h1

theorem millisecondBoundary_changes {x : Samples} (h : Changes s0 s) :
    Changes s0 (s.millisecondBoundary x) := by
  have h1 : Changes s0 ({ s.settle with time := s.settle.time.advance }).tickOutputs :=
    (time_changes (settle_changes h)).step (.tick _)
  exact Changes.forTrains (f := State.countLoaded) (fun _ _ => countLoaded_changes) (sampleInputs_changes h1)

/-! ### Every command -/

theorem whenPowered_changes {f : State → State} (h : s.whenPowered f = .next a) (hf : Changes s (f s)) :
    Changes s a := by
  simp only [State.whenPowered, Host.Outcome.next.injEq] at h
  subst h
  exact Changes.ite hf (.refl s)

/-- Every command makes only changes. -/
theorem exec_changes {i : Instr} (h : exec i s = .next a) : Changes s a := by
  have r := Changes.refl s
  cases hf : encodeRequest i with
  | some f => exact whenPowered_changes (exec_request hf s ▸ h) (takeCommand_changes i r)
  | none =>
    cases i with
    | powerOn => exact Host.Outcome.next.inj h ▸ powerOn_changes r
    | restartStart =>
      rw [exec_restartStart s] at h
      exact whenPowered_changes h (restartStart_changes r)
    | millisecondBoundary x =>
      rw [exec_millisecondBoundary x s] at h
      exact whenPowered_changes h (millisecondBoundary_changes r)
    | secondBoundary =>
      rw [exec_secondBoundary s] at h
      exact whenPowered_changes h (secondBoundary_changes r)
    | keepLapse x =>
      rw [exec_keepLapse x s] at h
      exact whenPowered_changes h (keepLapse_changes r)
    | waitExpiry x =>
      rw [exec_waitExpiry x s] at h
      exact whenPowered_changes h (waitExpiry_changes r)
    | digitalChange x =>
      rw [exec_digitalChange x s] at h
      exact whenPowered_changes h (digitalChange_changes r)
    | estopAssert =>
      rw [exec_estopAssert s] at h
      exact whenPowered_changes h (estopAssert_changes r)
    | estopRelease =>
      rw [exec_estopRelease s] at h
      exact whenPowered_changes h (estopRelease_changes r)
    | positionArrival x y =>
      rw [exec_positionArrival x y s] at h
      exact whenPowered_changes h (positionArrival_changes r)
    | recoveryExpiry x =>
      rw [exec_recoveryExpiry x s] at h
      exact whenPowered_changes h (recoveryExpiry_changes r)
    | pressureArrival x y =>
      rw [exec_pressureArrival x y s] at h
      exact whenPowered_changes h (pressureArrival_changes r)
    | powerArrival x y =>
      rw [exec_powerArrival x y s] at h
      exact whenPowered_changes h (powerArrival_changes r)
    | surgeLevelArrival x =>
      rw [exec_surgeLevelArrival x s] at h
      exact whenPowered_changes h (surgeLevelArrival_changes r)
    | overloadDelayExpiry x =>
      rw [exec_overloadDelayExpiry x s] at h
      exact whenPowered_changes h (overloadDelayExpiry_changes r)
    | clearingExpiry x =>
      rw [exec_clearingExpiry x s] at h
      exact whenPowered_changes h (clearingExpiry_changes r)
    | sampleExpiry x =>
      rw [exec_sampleExpiry x s] at h
      exact whenPowered_changes h (sampleExpiry_changes r)
    | drainExpiry x =>
      rw [exec_drainExpiry x s] at h
      exact whenPowered_changes h (drainExpiry_changes r)
    | deadTimeExpiry x =>
      rw [exec_deadTimeExpiry x s] at h
      exact whenPowered_changes h (deadTimeExpiry_changes r)
    | moveTimerExpiry x =>
      rw [exec_moveTimerExpiry x s] at h
      exact whenPowered_changes h (moveTimerExpiry_changes r)
    | jogTimeEnd x =>
      rw [exec_jogTimeEnd x s] at h
      exact whenPowered_changes h (jogTimeEnd_changes r)
    | dwellExpiry =>
      rw [exec_dwellExpiry s] at h
      exact whenPowered_changes h (dwellExpiry_changes r)
    | timeLimitExpiry =>
      rw [exec_timeLimitExpiry s] at h
      exact whenPowered_changes h (timeLimitExpiry_changes r)
    | wearStep x =>
      rw [exec_wearStep x s] at h
      exact whenPowered_changes h (wearStep_changes r)
    | updateExpiry x =>
      rw [exec_updateExpiry x s] at h
      exact whenPowered_changes h (updateExpiry_changes r)
    | storeWriteComplete x =>
      rw [exec_storeWriteComplete x s] at h
      exact whenPowered_changes h (writeCompleted_changes r)
    | linkByteReceived x y =>
      rw [exec_linkByteReceived x y s] at h
      exact whenPowered_changes h (linkByte_changes r)
    | interByteGap x =>
      rw [exec_interByteGap x s] at h
      exact whenPowered_changes h (interByteGap_changes r)
    | replySent x =>
      rw [exec_replySent x s] at h
      exact whenPowered_changes h (replySent_changes r)
    | lossOfPower =>
      rw [exec_lossOfPower s] at h
      exact whenPowered_changes h (lossOfPower_changes r)
    | setGap | setRate | withdraw | setMode | setParameter | jog | startZero | abortZero
    | acknowledge | acknowledgeAll | saveProfile | restart | setClock | clearLock | readStation
    | readWaiting | readConditions | readParameter | readZeroRecord | readClock => simp [encodeRequest] at hf

/-- A step takes at most the front command off the queue, and makes only changes beside. -/
theorem step_changes (h : step s = .next a) : ∃ q, Changes (s.withPending q) a := by
  unfold step at h
  split at h
  · exact ⟨s.pending, Host.Outcome.next.inj h ▸ Changes.refl s⟩
  · exact ⟨_, exec_changes h⟩

end Sys2Proof.Machine
end

