-- ==== Sys2Proof/Laws/Words.lean ====
section
/-! SUPPORT. Laws/Words.lean: two-byte and four-byte fields are cut into bytes and put together again without
loss (R172). -/

namespace Sys2Proof

theorem toNat_halfOf (a b : Byte) : (halfOf a b).toNat = a.toNat * 256 + b.toNat := by
  have hb := b.isLt
  simp only [halfOf, BitVec.toNat_append]
  rw [← Nat.shiftLeft_add_eq_or_of_lt hb, Nat.shiftLeft_eq]

theorem toNat_wordOf (a b c d : Byte) :
    (wordOf a b c d).toNat = a.toNat * 16777216 + b.toNat * 65536 + c.toNat * 256 + d.toNat := by
  have hb := b.isLt
  have hc := c.isLt
  have hd := d.isLt
  simp only [wordOf, BitVec.toNat_append]
  rw [← Nat.shiftLeft_add_eq_or_of_lt hb, ← Nat.shiftLeft_add_eq_or_of_lt hc, ← Nat.shiftLeft_add_eq_or_of_lt hd]
  simp only [Nat.shiftLeft_eq]
  omega

/-- A byte cut out of a field. -/
theorem toNat_cut {n : Nat} (x : BitVec n) (k : Nat) : (x.extractLsb' k 8).toNat = x.toNat / 2 ^ k % 256 := by
  simp [BitVec.extractLsb'_toNat, Nat.shiftRight_eq_div_pow]

@[simp] theorem halfOf_halfBytes (h : Half) : halfOf (h.extractLsb' 8 8) (h.extractLsb' 0 8) = h := by
  apply BitVec.eq_of_toNat_eq
  have hh := h.isLt
  rw [toNat_halfOf, toNat_cut, toNat_cut]
  omega

@[simp] theorem wordOf_wordBytes (w : Word) :
    wordOf (w.extractLsb' 24 8) (w.extractLsb' 16 8) (w.extractLsb' 8 8) (w.extractLsb' 0 8) = w := by
  apply BitVec.eq_of_toNat_eq
  have hw := w.isLt
  rw [toNat_wordOf, toNat_cut, toNat_cut, toNat_cut, toNat_cut]
  omega

@[simp] theorem halfBytes_halfOf (a b : Byte) : halfBytes (halfOf a b) = [a, b] := by
  have ha := a.isLt
  have hb := b.isLt
  simp only [halfBytes, List.cons.injEq, and_true]
  constructor <;>
    · apply BitVec.eq_of_toNat_eq
      rw [toNat_cut, toNat_halfOf]
      omega

@[simp] theorem wordBytes_wordOf (a b c d : Byte) : wordBytes (wordOf a b c d) = [a, b, c, d] := by
  have ha := a.isLt
  have hb := b.isLt
  have hc := c.isLt
  have hd := d.isLt
  simp only [wordBytes, List.cons.injEq, and_true]
  refine ⟨?_, ?_, ?_, ?_⟩ <;>
    · apply BitVec.eq_of_toNat_eq
      rw [toNat_cut, toNat_wordOf]
      omega

theorem length_halfBytes (h : Half) : (halfBytes h).length = 2 := rfl

theorem length_wordBytes (w : Word) : (wordBytes w).length = 4 := rfl

end Sys2Proof
end

