-- ==== Sys2Proof/Laws/Frames.lean ====
section
/-! SUPPORT. Laws/Frames.lean: kind bytes name kinds, and the reading of a body undoes its writing (R174,
R179). -/

namespace Sys2Proof

@[simp] theorem Kind.ofCode_code (k : Kind) : Kind.ofCode k.code = some k := by cases k <;> decide

theorem Kind.code_of_ofCode {b : Byte} {k : Kind} (h : Kind.ofCode b = some k) : k.code = b := by
  simpa using List.find?_some h

theorem toNat_byteOf {n : Nat} (h : n < 256) : (byteOf n).toNat = n := by
  simp [byteOf]
  omega

end Sys2Proof
end

