-- ==== Sys2Proof/Laws/Moves.lean ====
section
/-! SUPPORT. Laws/Moves.lean: what the moving of one crusher can do, said once: its moves, resumes, selections and
the end of its relief episode change its Positioner, two holds of its feeder, its relief state, its standing
setting, the board and the entry RELIEF, and nothing else. -/

namespace Sys2Proof.Machine

/-- The moving of a train's crusher takes one state to another. -/
structure Moves (t : Train) (a b : State) : Prop where
  rest : b = { a with
    crushers := b.crushers, board := b.board, positioners := b.positioners, governors := b.governors,
    supervisors := b.supervisors, conditions := b.conditions }
  others : ∀ v, v ≠ t → b.station (crusherOf v) = a.station (crusherOf v) ∧ b.positioner v = a.positioner v ∧
    b.governor v = a.governor v ∧ b.supervisor v = a.supervisor v
  reasons : (b.positioner t).reasons = (a.positioner t).reasons
  mode : (b.station (crusherOf t)).mode = (a.station (crusherOf t)).mode
  holds : ∀ c, c ≠ .gapMove → c ≠ .relief → (b.governor t).holds.has c = (a.governor t).holds.has c
  base : (b.governor t).base = (a.governor t).base
  trim : (b.governor t).trim = (a.governor t).trim
  timer : (b.governor t).updateTimer = (a.governor t).updateTimer
  bound : (b.governor t).capBound = (a.governor t).capBound
  supervisor : b.supervisor t = { a.supervisor t with relief := (b.supervisor t).relief }
  episode : (b.supervisor t).relief = (a.supervisor t).relief ∧
      (b.governor t).holds.relief = (a.governor t).holds.relief ∧ b.conditions = a.conditions ∨
    (a.supervisor t).relief = .restoring ∧ (b.supervisor t).relief = .normal ∧
      (b.governor t).holds.relief = false ∧ b.conditions = a.conditions.causeEnded .relief (.crusher t)

variable {t : Train} {a b c s : State}

theorem Moves.refl (a : State) : Moves t a a where
  rest := rfl
  others := fun _ _ => ⟨rfl, rfl, rfl, rfl⟩
  reasons := rfl
  mode := rfl
  holds := fun _ _ _ => rfl
  base := rfl
  trim := rfl
  timer := rfl
  bound := rfl
  supervisor := rfl
  episode := .inl ⟨rfl, rfl, rfl⟩

theorem Moves.trans (h : Moves t a b) (k : Moves t b c) : Moves t a c where
  rest := by rw [k.rest, h.rest]
  others := fun v hv => by
    obtain ⟨h1, h2, h3, h4⟩ := h.others v hv
    obtain ⟨k1, k2, k3, k4⟩ := k.others v hv
    exact ⟨k1.trans h1, k2.trans h2, k3.trans h3, k4.trans h4⟩
  reasons := k.reasons.trans h.reasons
  mode := k.mode.trans h.mode
  holds := fun x h1 h2 => (k.holds x h1 h2).trans (h.holds x h1 h2)
  base := k.base.trans h.base
  trim := k.trim.trans h.trim
  timer := k.timer.trans h.timer
  bound := k.bound.trans h.bound
  supervisor := by rw [k.supervisor, h.supervisor]
  episode := by
    rcases h.episode with ⟨h1, h2, h3⟩ | ⟨h1, h2, h3, h4⟩ <;>
      rcases k.episode with ⟨k1, k2, k3⟩ | ⟨k1, k2, k3, k4⟩
    · exact .inl ⟨k1.trans h1, k2.trans h2, k3.trans h3⟩
    · exact .inr ⟨h1 ▸ k1, k2, k3, k4.trans (by rw [h3])⟩
    · exact .inr ⟨h1, k1.trans h2, k2.trans h3, k3.trans h4⟩
    · rw [h2] at k1
      cases k1

theorem Moves.ite {p : Prop} [Decidable p] (h : Moves t s a) (k : Moves t s b) :
    Moves t s (if p then a else b) := by
  split
  · exact h
  · exact k

/-! ### Primitive updates -/

theorem Moves.positioner (h : Moves t s a) {f : Positioner → Positioner}
    (hf : (f (a.positioner t)).reasons = (a.positioner t).reasons) : Moves t s (a.modPositioner t f) :=
  h.trans
    { rest := rfl
      others := fun v hv => ⟨by simp, a.positioner_modPositioner_of_ne hv f, by simp, by simp⟩
      reasons := by simpa using hf
      mode := by simp
      holds := fun _ _ _ => by simp
      base := by simp
      trim := by simp
      timer := by simp
      bound := by simp
      supervisor := by simp
      episode := .inl ⟨by simp, by simp, by simp⟩ }

theorem Moves.station (h : Moves t s a) {f : StationRecord → StationRecord} (hf : ∀ r, (f r).mode = r.mode) :
    Moves t s (a.modStation (crusherOf t) f) :=
  h.trans
    { rest := rfl
      others := fun v hv =>
        ⟨a.station_modStation_of_ne (by simpa [crusherOf] using hv) f, by simp, by simp, by simp⟩
      reasons := by simp
      mode := by simp [hf]
      holds := fun _ _ _ => by simp
      base := by simp
      trim := by simp
      timer := by simp
      bound := by simp
      supervisor := by simp
      episode := .inl ⟨by simp, by simp, by simp⟩ }

theorem Moves.freeSlot (h : Moves t s a) (i : Nat) : Moves t s (a.freeSlot i) :=
  h.trans
    { rest := rfl
      others := fun _ _ => ⟨rfl, rfl, rfl, rfl⟩
      reasons := rfl
      mode := rfl
      holds := fun _ _ _ => rfl
      base := rfl
      trim := rfl
      timer := rfl
      bound := rfl
      supervisor := rfl
      episode := .inl ⟨rfl, rfl, rfl⟩ }

/-- What a rejudging leaves alone. -/
theorem Governor.rejudged_keeps (g g' : Governor) :
    (g.rejudged g').holds = g'.holds ∧ (g.rejudged g').base = g'.base ∧ (g.rejudged g').trim = g'.trim ∧
      (g.rejudged g').updateTimer = g'.updateTimer ∧ (g.rejudged g').capBound = g'.capBound := by
  unfold Governor.rejudged
  split <;> exact ⟨rfl, rfl, rfl, rfl, rfl⟩

theorem Holds.has_put (h : Holds) (c d : Hold) (v : Bool) :
    (h.put c v).has d = if d = c then v else h.has d := by
  cases c <;> cases d <;> rfl

theorem Governor.hold_keeps (g : Governor) (c : Hold) :
    (∀ d, (g.hold c).holds.has d = (d = c || g.holds.has d)) ∧ (g.hold c).base = g.base ∧
      (g.hold c).trim = g.trim ∧ (g.hold c).updateTimer = g.updateTimer ∧
      (g.hold c).capBound = g.capBound := by
  unfold Governor.hold
  split
  · rename_i h
    refine ⟨fun d => ?_, rfl, rfl, rfl, rfl⟩
    by_cases hd : d = c <;> simp [hd, h]
  · obtain ⟨h1, h2, h3, h4, h5⟩ := g.rejudged_keeps { g with holds := g.holds.put c true }
    refine ⟨fun d => ?_, h2, h3, h4, h5⟩
    rw [h1, Holds.has_put]
    by_cases hd : d = c <;> simp [hd]

theorem Governor.release_keeps (g : Governor) (c : Hold) :
    (∀ d, (g.release c).holds.has d = (d ≠ c && g.holds.has d)) ∧ (g.release c).base = g.base ∧
      (g.release c).trim = g.trim ∧ (g.release c).updateTimer = g.updateTimer ∧
      (g.release c).capBound = g.capBound := by
  unfold Governor.release
  split
  · obtain ⟨h1, h2, h3, h4, h5⟩ := g.rejudged_keeps { g with holds := g.holds.put c false }
    refine ⟨fun d => ?_, h2, h3, h4, h5⟩
    rw [h1, Holds.has_put]
    by_cases hd : d = c <;> simp [hd]
  · rename_i h
    refine ⟨fun d => ?_, rfl, rfl, rfl, rfl⟩
    by_cases hd : d = c <;> simp_all

theorem Moves.governor (h : Moves t s a) {f : Governor → Governor} {v : Bool}
    (hf : ∀ g, (∀ d, (f g).holds.has d = if d = .gapMove then v else g.holds.has d) ∧
      (f g).base = g.base ∧ (f g).trim = g.trim ∧ (f g).updateTimer = g.updateTimer ∧
      (f g).capBound = g.capBound) : Moves t s (a.modGovernor t f) := by
  obtain ⟨h1, h2, h3, h4, h5⟩ := hf (a.governor t)
  exact h.trans
    { rest := rfl
      others := fun w hw => ⟨by simp, by simp, a.governor_modGovernor_of_ne hw f, by simp⟩
      reasons := by simp
      mode := by simp
      holds := fun c hc _ => by simp [h1, hc]
      base := by simpa using h2
      trim := by simpa using h3
      timer := by simpa using h4
      bound := by simpa using h5
      supervisor := by simp
      episode := .inl ⟨by simp, by simpa [Holds.has] using h1 .relief, by simp⟩ }

theorem Moves.addGapMove (h : Moves t s a) : Moves t s (a.addHold t .gapMove) :=
  h.governor (v := true) fun g => by
    obtain ⟨h1, h2⟩ := g.hold_keeps .gapMove
    refine ⟨fun d => ?_, h2⟩
    rw [h1]
    by_cases hd : d = .gapMove <;> simp [hd]

theorem Moves.removeGapMove (h : Moves t s a) : Moves t s (a.removeHold t .gapMove) :=
  h.governor (v := false) fun g => by
    obtain ⟨h1, h2⟩ := g.release_keeps .gapMove
    refine ⟨fun d => ?_, h2⟩
    rw [h1]
    by_cases hd : d = .gapMove <;> simp [hd]

/-- The end of a relief episode, up to the selection it may bring (R139). -/
theorem Moves.episodeEnds (h : Moves t s a) (hr : (a.supervisor t).relief = .restoring) :
    Moves t s (((a.modSupervisor t fun v => { v with relief := .normal }).removeHold t .relief).causeEnd
      .relief (.crusher t)) := by
  obtain ⟨h1, h2, h3, h4, h5⟩ := (a.governor t).release_keeps .relief
  exact h.trans
    { rest := rfl
      others := fun w hw =>
        ⟨by simp [State.removeHold, State.causeEnd], by simp [State.removeHold, State.causeEnd],
          by simp [State.removeHold, State.causeEnd, State.governor_modGovernor_of_ne _ hw],
          by simp [State.removeHold, State.causeEnd, State.supervisor_modSupervisor_of_ne _ hw]⟩
      reasons := by simp [State.removeHold, State.causeEnd]
      mode := by simp [State.removeHold, State.causeEnd]
      holds := fun c _ hc => by simp [State.removeHold, State.causeEnd, h1, hc]
      base := by simp [State.removeHold, State.causeEnd, h2]
      trim := by simp [State.removeHold, State.causeEnd, h3]
      timer := by simp [State.removeHold, State.causeEnd, h4]
      bound := by simp [State.removeHold, State.causeEnd, h5]
      supervisor := by simp [State.removeHold, State.causeEnd]
      episode := .inr ⟨hr, by simp [State.removeHold, State.causeEnd],
        by simpa [State.removeHold, State.causeEnd, Holds.has] using h1 .relief, by simp [State.removeHold, State.causeEnd]⟩ }

/-! ### The drive leaves the reasons alone -/

@[simp] theorem Positioner.driveOff_reasons (now : Nat) (p : Positioner) :
    (p.driveOff now).reasons = p.reasons := by
  unfold Positioner.driveOff
  split <;> rfl

@[simp] theorem Positioner.driveOff_drive (now : Nat) (p : Positioner) : (p.driveOff now).drive = none := by
  unfold Positioner.driveOff
  split
  · assumption
  · rfl

@[simp] theorem Positioner.discardPending_reasons (p : Positioner) : p.discardPending.reasons = p.reasons := rfl

@[simp] theorem Positioner.ask_reasons (p : Positioner) (now d : Nat) (r : Direction) (u : Nat) :
    (p.ask now d r u).reasons = p.reasons := by
  unfold Positioner.ask
  split <;> rfl

@[simp] theorem Positioner.askDrive_reasons (p : Positioner) (now d : Nat) (r : Direction) (u : Nat) :
    (p.askDrive now d r u).reasons = p.reasons := by
  unfold Positioner.askDrive
  split
  · simp
  · split <;> simp

@[simp] theorem Positioner.askMove_reasons (p : Positioner) (now : Nat) (q : CrusherParams) (e : Int) :
    (p.askMove now q e).reasons = p.reasons := by
  simp [Positioner.askMove]

@[simp] theorem Positioner.dropJog_reasons (now : Nat) (p : Positioner) :
    (p.dropJog now).reasons = p.reasons := by
  simp [Positioner.dropJog]

theorem Positioner.steer_reasons (now : Nat) (q : CrusherParams) (e : Int) (p : Positioner) :
    (p.steer now q e).reasons = p.reasons := by
  unfold Positioner.steer
  split
  · rfl
  · split <;> simp

theorem Positioner.steerPending_reasons (now : Nat) (q : CrusherParams) (e : Int) (p : Positioner) :
    (p.steerPending now q e).reasons = p.reasons := by
  unfold Positioner.steerPending
  split
  · rfl
  · split <;> simp

/-! ### The operations -/

theorem Moves.driveMove (h : Moves t s a) (e : Int) : Moves t s (a.driveMove t e) :=
  h.positioner (by simp)

theorem Moves.startMove (h : Moves t s a) (e : Int) : Moves t s (a.startMove t e) := by
  unfold State.startMove
  have h1 := h.positioner (f := fun p => { p with move := some ⟨a.now, (a.crusher t).loadAdjust⟩ }) rfl
  exact Moves.ite (h1.removeGapMove.driveMove e)
    (Moves.ite (h1.addGapMove.driveMove e) (h1.addGapMove.positioner (by simp)))

theorem Moves.startMoveOr {f : State → State} (hf : Moves t s (f a)) (h : Moves t s a) :
    Moves t s (a.startMoveOr t f) := by
  unfold State.startMoveOr
  split
  · exact hf
  · exact Moves.ite hf (h.startMove _)

theorem Moves.retargetIdle (h : Moves t s a) : Moves t s (a.retargetIdle t) := by
  unfold State.retargetIdle
  exact Moves.ite (Moves.startMoveOr h h) h

section report

variable {report : Train → State → State} (hr : ∀ a, Moves t s a → Moves t s (report t a))
include hr

theorem Moves.writeStandingWith (h : Moves t s a) (x : Standing) :
    Moves t s (a.writeStandingWith report (crusherOf t) x) := by
  unfold State.writeStandingWith
  have h1 := h.station (f := fun r => { r with standing := x }) fun _ => rfl
  exact Moves.ite h1 (hr _ h1)

theorem Moves.applyWith (h : Moves t s a) {r : Slot} (hs : r.station = crusherOf t) :
    Moves t s (a.applyWith report r) := by
  unfold State.applyWith
  rw [hs]
  have h1 := h.station (f := fun rec => { rec with lastApplied := some ⟨r.source, r.tag⟩ }) fun _ => rfl
  exact h1.writeStandingWith hr _

end report

theorem bestSlot_station {st : Station} {i : Nat} {slots : List (Option Slot)} {j : Nat} {r : Slot}
    (h : bestSlot st i slots = some (j, r)) : r.station = st := by
  induction slots generalizing i with
  | nil => cases h
  | cons o rest ih =>
    cases o with
    | none => exact ih h
    | some q =>
      simp only [bestSlot] at h
      split at h
      · rename_i hq
        split at h
        · cases h
          exact hq
        · rename_i hb
          split at h
          · cases h
            exact ih hb
          · cases h
            exact hq
      · exact ih h

section report

variable {report : Train → State → State} (hr : ∀ a, Moves t s a → Moves t s (report t a))
include hr

theorem Moves.selectWith (h : Moves t s a) : Moves t s (a.selectWith report (crusherOf t)) := by
  unfold State.selectWith
  split
  · exact h
  · rename_i hb
    exact Moves.ite ((h.freeSlot _).applyWith hr (bestSlot_station hb)) h

theorem Moves.evaluateWith (h : Moves t s a) : Moves t s (a.evaluateWith report (crusherOf t)) := by
  unfold State.evaluateWith
  have h1 := h.station (f := fun r => { r with lastAccepting := a.accepting (crusherOf t) }) fun _ => rfl
  exact Moves.ite (h1.selectWith hr) h1

end report

theorem Moves.arriveIdle (h : Moves t s a) : Moves t s (a.arriveIdle t) := by
  unfold State.arriveIdle
  split
  · rename_i hr
    exact (h.episodeEnds hr).evaluateWith fun _ => Moves.retargetIdle
  · exact h

theorem Moves.enterIdle (h : Moves t s a) : Moves t s (a.enterIdle t) :=
  (h.positioner (f := fun p => { p with state := .idle, move := none }) rfl).removeGapMove.arriveIdle

theorem Moves.endMove (h : Moves t s a) : Moves t s (a.endMove t) := (h.positioner (by simp)).enterIdle

theorem Moves.resume (h : Moves t s a) : Moves t s (a.resume t) := Moves.startMoveOr h.enterIdle h

theorem Moves.endJog (h : Moves t s a) : Moves t s (a.endJog t) := by
  unfold State.endJog
  have h1 := h.positioner (f := fun p => { p.dropJog a.now with state := .suspended }) (by simp)
  exact Moves.ite h1.resume h1

theorem Moves.endRunningJog (h : Moves t s a) : Moves t s (a.endRunningJog t) := Moves.ite h.endJog h

theorem Moves.judgeMove (h : Moves t s a) {f : Nat → CrusherParams → Int → Positioner → Positioner}
    (hf : ∀ n q e p, (f n q e p).reasons = p.reasons) : Moves t s (a.judgeMove t f) := by
  unfold State.judgeMove
  split
  · exact h.endMove
  · exact Moves.ite h.endMove (h.positioner (hf _ _ _ _))

theorem Moves.retarget (h : Moves t s a) : Moves t s (a.retarget t) := by
  have h1 := h.positioner
    (f := fun p => { p with moveTimer := some (a.timer ((a.crusher t).moveLimit * 1000)) }) rfl
  unfold State.retarget
  split
  · exact h.retargetIdle
  · exact h1.judgeMove Positioner.steer_reasons
  · exact h1.judgeMove Positioner.steerPending_reasons
  all_goals exact h

theorem Moves.driftTest (h : Moves t s a) : Moves t s (a.driftTest t) := by
  unfold State.driftTest
  split
  · exact h
  · exact Moves.ite h (h.startMove _)

theorem Moves.sampleAction (h : Moves t s a) : Moves t s (a.sampleAction t) := by
  unfold State.sampleAction
  split
  · exact h.driftTest
  · exact h.judgeMove Positioner.steer_reasons
  · exact h.judgeMove Positioner.steerPending_reasons
  all_goals exact h

theorem Moves.sampleExpiry (h : Moves t s a) : Moves t s (a.sampleExpiry t) :=
  Moves.ite (h.sampleAction.positioner rfl) h

theorem Moves.writeStanding (h : Moves t s a) (x : Standing) : Moves t s (a.writeStanding (crusherOf t) x) :=
  h.writeStandingWith (fun _ => Moves.retarget) x

theorem Moves.select (h : Moves t s a) : Moves t s (a.select (crusherOf t)) :=
  h.selectWith fun _ => Moves.retarget

theorem Moves.evaluate (h : Moves t s a) : Moves t s (a.evaluate (crusherOf t)) :=
  h.evaluateWith fun _ => Moves.retarget

theorem Moves.drainExpiry (h : Moves t s a) : Moves t s (a.drainExpiry t) := by
  unfold State.drainExpiry
  refine Moves.ite ?_ h
  have h1 := h.positioner (f := fun p => { p with drainTimer := none }) rfl
  dsimp only
  split
  · exact h1.endMove
  · exact Moves.ite h1.endMove (h1.driveMove _)

theorem Moves.startJog (h : Moves t s a) (d : Direction) (u r : Nat) : Moves t s (a.startJog t d u r) := by
  unfold State.startJog
  have h1 := h.positioner (f := fun p => { p with jog := some ⟨d, u, r⟩, state := .jogging }) rfl
  exact Moves.ite h1.endJog (h1.positioner (by simp))

theorem Moves.judgeJog (h : Moves t s a) : Moves t s (a.judgeJog t) := Moves.ite h.endJog h

theorem Moves.jogTimeEnd (h : Moves t s a) : Moves t s (a.jogTimeEnd t) := Moves.ite h.endJog h

theorem Moves.clearFault (h : Moves t s a) : Moves t s (a.clearFault t) := by
  unfold State.clearFault
  exact Moves.ite (Moves.ite h.resume (h.positioner rfl)).evaluate h

/-! ### Reasons -/

theorem Reasons.has_put (r : Reasons) (n m : Reason) (v : Bool) :
    (r.put n v).has m = if m = n then v else r.has m := by
  cases n <;> cases m <;> rfl

theorem Reasons.put_has (r : Reasons) (n : Reason) : r.put n (r.has n) = r := by
  cases n <;> rfl

@[simp] theorem Positioner.suspend_reasons (now : Nat) (p : Positioner) :
    (p.suspend now).reasons = p.reasons := by
  unfold Positioner.suspend
  split <;> simp

/-- A reason added: after the reason itself, the moving of the crusher alone. -/
theorem State.addReason_moves (s : State) (t : Train) (r : Reason) :
    ∃ f : Positioner → Positioner, (f (s.positioner t)).reasons = (s.positioner t).reasons.put r true ∧
      Moves t (s.modPositioner t f) (s.addReason t r) := by
  unfold State.addReason
  by_cases h : (s.positioner t).reasons.has r = true
  · refine ⟨id, ?_, ?_⟩
    · simpa only [id, h] using (Reasons.put_has (s.positioner t).reasons r).symm
    · rw [if_pos h]
      have : s.modPositioner t id = s := by simp [State.modPositioner, State.positioner]
      rw [this]
      exact Moves.refl _
  · rw [if_neg h]
    exact ⟨_, rfl, Moves.ite (Moves.refl _).endJog (Moves.refl _)⟩

/-- A reason removed: after the reason itself, the moving of the crusher alone. -/
theorem State.removeReason_moves (s : State) (t : Train) (r : Reason) :
    Moves t (s.modPositioner t fun p => { p with reasons := p.reasons.put r false }) (s.removeReason t r) := by
  unfold State.removeReason
  by_cases h : (s.positioner t).reasons.has r = true
  · simp only [h, Bool.not_true, Bool.false_eq_true, if_false]
    exact Moves.ite (Moves.refl _).resume (Moves.refl _)
  · simp only [Bool.not_eq_true] at h
    have hp : (s.positioner t).reasons.put r false = (s.positioner t).reasons := by
      simpa only [h] using Reasons.put_has (s.positioner t).reasons r
    have hs : (s.modPositioner t fun p => { p with reasons := p.reasons.put r false }) = s := by
      simp only [State.modPositioner, hp]
      exact congrArg (fun q => { s with positioners := q }) (s.positioners.set_get t)
    simp only [h, Bool.not_false, if_true, hs]
    exact Moves.refl _

end Sys2Proof.Machine
end

