-- ==== Sys2Proof/Laws/Params.lean ====
section
/-! SUPPORT. Laws/Params.lean: what a parameter set reads after one of its parameters is written, and that the
value R19 stores lies in its parameter's range. -/

namespace Sys2Proof.Machine

/-! ### Codes of named values -/

theorem boolCode_lt (b : Bool) : boolCode b < 2 := by cases b <;> decide

theorem LinkSet.code_lt (a : LinkSet) : a.code < 8 := by
  have h1 := boolCode_lt a.lc
  have h2 := boolCode_lt a.op
  have h3 := boolCode_lt a.sv
  unfold LinkSet.code
  omega

theorem trainSetCode_lt (q : Quad Bool) : trainSetCode q < 16 := by
  have h0 := boolCode_lt q.q0
  have h1 := boolCode_lt q.q1
  have h2 := boolCode_lt q.q2
  have h3 := boolCode_lt q.q3
  unfold trainSetCode
  omega

/-- A code below 2 is read back. -/
theorem boolCode_boolOf {v : Nat} (h : v < 2) : boolCode (boolOf v) = v := by
  match v, h with
  | 0, _ => rfl
  | 1, _ => rfl

theorem Polarity.code_ofCode {v : Nat} (h : v < 2) : (Polarity.ofCode v).code = v := by
  match v, h with
  | 0, _ => rfl
  | 1, _ => rfl

theorem ReliefSource.code_ofCode {v : Nat} (h : v < 2) : (ReliefSource.ofCode v).code = v := by
  match v, h with
  | 0, _ => rfl
  | 1, _ => rfl

theorem StartMode.code_ofCode {v : Nat} (h : v < 2) : (StartMode.ofCode v).code = v := by
  match v, h with
  | 0, _ => rfl
  | 1, _ => rfl

theorem LinkSet.code_ofCode {v : Nat} (h : v < 8) : (LinkSet.ofCode v).code = v := by
  have k : ∀ i : Fin 8, (LinkSet.ofCode i.val).code = i.val := by decide
  exact k ⟨v, h⟩

theorem trainSetCode_of {v : Nat} (h : v < 16) : trainSetCode (trainSetOf v) = v := by
  have k : ∀ i : Fin 16, trainSetCode (trainSetOf i.val) = i.val := by decide
  exact k ⟨v, h⟩

/-! ### A set read after a write -/

/-- The parameter written reads as the value, where the value lies in its range. -/
theorem CrusherParams.get_put_self (p : CrusherParams) (n : CrusherParam) {v : Nat} (h : n.range.holds v = true) :
    (p.put n v).get n = v := by
  cases n <;> try rfl
  all_goals simp only [CrusherParam.range, ParamRange.holds, decide_eq_true_eq] at h
  all_goals
    first
      | exact boolCode_boolOf h
      | exact Polarity.code_ofCode h
      | exact ReliefSource.code_ofCode h
      | exact StartMode.code_ofCode h
      | exact LinkSet.code_ofCode h

/-- Every other parameter is as it was: the parameters of a constraint are never moved by a write (R19). -/
theorem CrusherParams.get_put_of_ne (p : CrusherParams) {n m : CrusherParam} (h : m ≠ n) (v : Nat) :
    (p.put n v).get m = p.get m := by
  cases n <;> cases m <;> first | rfl | exact absurd rfl h

theorem FeederParams.get_put_self (p : FeederParams) (n : FeederParam) {v : Nat} (h : n.range.holds v = true) :
    (p.put n v).get n = v := by
  cases n <;> try rfl
  all_goals simp only [FeederParam.range, ParamRange.holds, decide_eq_true_eq] at h
  all_goals
    first
      | exact Polarity.code_ofCode h
      | exact StartMode.code_ofCode h
      | exact LinkSet.code_ofCode h

theorem FeederParams.get_put_of_ne (p : FeederParams) {n m : FeederParam} (h : m ≠ n) (v : Nat) :
    (p.put n v).get m = p.get m := by
  cases n <;> cases m <;> first | rfl | exact absurd rfl h

theorem LineParams.get_put_self (p : LineParams) (n : LineParam) {v : Nat} (h : n.range.holds v = true) :
    (p.put n v).get n = v := by
  cases n <;> try rfl
  simp only [LineParam.range, ParamRange.holds, decide_eq_true_eq] at h
  exact trainSetCode_of h

theorem LineParams.get_put_of_ne (p : LineParams) {n m : LineParam} (h : m ≠ n) (v : Nat) :
    (p.put n v).get m = p.get m := by
  cases n <;> cases m <;> first | rfl | exact absurd rfl h

/-! ### What R19 stores -/

theorem clamp_le {lo hi : Nat} (v : Nat) : clamp lo hi v ≤ hi := by
  unfold clamp
  omega

theorem le_clamp {lo hi : Nat} (v : Nat) (h : lo ≤ hi) : lo ≤ clamp lo hi v := by
  unfold clamp
  omega

/-- A value within the bounds is not moved by a clamp. -/
theorem clamp_eq {lo hi v : Nat} (h1 : lo ≤ v) (h2 : v ≤ hi) : clamp lo hi v = v := by
  unfold clamp
  omega

/-! ### Sets that keep their ranges and constraints -/

theorem CrusherParam.mem_all (n : CrusherParam) : n ∈ CrusherParam.all := by cases n <;> decide

theorem FeederParam.mem_all (n : FeederParam) : n ∈ FeederParam.all := by cases n <;> decide

theorem LineParam.mem_all (n : LineParam) : n ∈ LineParam.all := by cases n <;> decide

theorem CrusherParams.ok_iff (p : CrusherParams) :
    p.ok = true ↔ (∀ n : CrusherParam, n.range.holds (p.get n) = true) ∧ p.gapMin ≤ p.gapMax ∧
      p.posLow < p.posHigh ∧ p.dutyMin ≤ p.dutyMax ∧ p.reliefHyst ≤ p.reliefLevel ∧
      p.resumeLevel ≤ p.overloadLevel ∧ p.overloadLevel ≤ p.tripLevel := by
  simp only [CrusherParams.ok, Bool.and_eq_true, decide_eq_true_eq, List.all_eq_true, and_assoc]
  exact and_congr_left' ⟨fun h n => h n n.mem_all, fun h n _ => h n⟩

theorem FeederParams.ok_iff (p : FeederParams) :
    p.ok = true ↔ (∀ n : FeederParam, n.range.holds (p.get n) = true) ∧ p.rateMin ≤ p.rateMax := by
  simp only [FeederParams.ok, Bool.and_eq_true, decide_eq_true_eq, List.all_eq_true]
  exact and_congr_left' ⟨fun h n => h n n.mem_all, fun h n _ => h n⟩

theorem LineParams.ok_iff (p : LineParams) :
    p.ok = true ↔ (∀ n : LineParam, n.range.holds (p.get n) = true) ∧ p.surgeLow < p.surgeResume ∧
      p.surgeResume ≤ p.surgeSlow ∧ p.surgeSlow < p.surgeHigh := by
  simp only [LineParams.ok, Bool.and_eq_true, decide_eq_true_eq, List.all_eq_true, and_assoc]
  exact and_congr_left' ⟨fun h n => h n n.mem_all, fun h n _ => h n⟩

/-- What R19 stores lies in the parameter's range. -/
theorem CrusherParams.stored_holds {p : CrusherParams} (n : CrusherParam) {v : Nat}
    (hv : n.range.defined v = true) (h : p.ok = true) :
    n.range.holds (storedValue n.range (p.bounds n) v) = true := by
  obtain ⟨h1, h2⟩ := (CrusherParams.ok_iff p).1 h
  have g1 := h1 .gapMax
  have g2 := h1 .posHigh
  have g3 := h1 .dutyMax
  have g4 := h1 .reliefHyst
  have g5 := h1 .reliefLevel
  have g6 := h1 .tripLevel
  simp only [CrusherParam.range, ParamRange.holds, CrusherParams.get, Bool.and_eq_true,
    decide_eq_true_eq] at g1 g2 g3 g4 g5 g6
  cases n <;> simp only [CrusherParam.range, ParamRange.holds, ParamRange.defined, storedValue,
    CrusherParams.bounds, clamp, Bool.and_eq_true, decide_eq_true_eq] at hv ⊢ <;> omega

/-- A write by R19 keeps every range and constraint of a crusher's set. -/
theorem CrusherParams.ok_put {p : CrusherParams} (n : CrusherParam) {v : Nat} (hv : n.range.defined v = true)
    (h : p.ok = true) : (p.put n (storedValue n.range (p.bounds n) v)).ok = true := by
  have hs := CrusherParams.stored_holds n hv h
  obtain ⟨h1, h2⟩ := (CrusherParams.ok_iff p).1 h
  rw [CrusherParams.ok_iff]
  refine ⟨fun m => ?_, ?_⟩
  · by_cases hm : m = n
    · subst hm
      rw [CrusherParams.get_put_self _ _ hs]
      exact hs
    · rw [CrusherParams.get_put_of_ne _ hm]
      exact h1 m
  · have g1 := h1 .gapMax
    have g2 := h1 .posHigh
    have g3 := h1 .dutyMax
    have g4 := h1 .reliefHyst
    have g5 := h1 .reliefLevel
    have g6 := h1 .tripLevel
    simp only [CrusherParam.range, ParamRange.holds, CrusherParams.get, Bool.and_eq_true,
      decide_eq_true_eq] at g1 g2 g3 g4 g5 g6
    cases n <;> simp only [CrusherParam.range, CrusherParams.put, storedValue, CrusherParams.bounds, clamp] <;>
      omega

theorem FeederParams.stored_holds {p : FeederParams} (n : FeederParam) {v : Nat}
    (hv : n.range.defined v = true) (h : p.ok = true) :
    n.range.holds (storedValue n.range (p.bounds n) v) = true := by
  obtain ⟨h1, h2⟩ := (FeederParams.ok_iff p).1 h
  have g1 := h1 .rateMax
  simp only [FeederParam.range, ParamRange.holds, FeederParams.get, Bool.and_eq_true, decide_eq_true_eq] at g1
  cases n <;> simp only [FeederParam.range, ParamRange.holds, ParamRange.defined, storedValue,
    FeederParams.bounds, clamp, Bool.and_eq_true, decide_eq_true_eq] at hv ⊢ <;> omega

theorem FeederParams.ok_put {p : FeederParams} (n : FeederParam) {v : Nat} (hv : n.range.defined v = true)
    (h : p.ok = true) : (p.put n (storedValue n.range (p.bounds n) v)).ok = true := by
  have hs := FeederParams.stored_holds n hv h
  obtain ⟨h1, h2⟩ := (FeederParams.ok_iff p).1 h
  rw [FeederParams.ok_iff]
  refine ⟨fun m => ?_, ?_⟩
  · by_cases hm : m = n
    · subst hm
      rw [FeederParams.get_put_self _ _ hs]
      exact hs
    · rw [FeederParams.get_put_of_ne _ hm]
      exact h1 m
  · have g1 := h1 .rateMax
    simp only [FeederParam.range, ParamRange.holds, FeederParams.get, Bool.and_eq_true,
      decide_eq_true_eq] at g1
    cases n <;> simp only [FeederParam.range, FeederParams.put, storedValue, FeederParams.bounds, clamp] <;>
      omega

theorem LineParams.stored_holds {p : LineParams} (n : LineParam) {v : Nat} (hv : n.range.defined v = true)
    (h : p.ok = true) : n.range.holds (storedValue n.range (p.bounds n) v) = true := by
  obtain ⟨h1, h2⟩ := (LineParams.ok_iff p).1 h
  have g1 := h1 .surgeHigh
  simp only [LineParam.range, ParamRange.holds, LineParams.get, Bool.and_eq_true, decide_eq_true_eq] at g1
  cases n <;> simp only [LineParam.range, ParamRange.holds, ParamRange.defined, storedValue,
    LineParams.bounds, clamp, Bool.and_eq_true, decide_eq_true_eq] at hv ⊢ <;> omega

theorem LineParams.ok_put {p : LineParams} (n : LineParam) {v : Nat} (hv : n.range.defined v = true)
    (h : p.ok = true) : (p.put n (storedValue n.range (p.bounds n) v)).ok = true := by
  have hs := LineParams.stored_holds n hv h
  obtain ⟨h1, h2⟩ := (LineParams.ok_iff p).1 h
  rw [LineParams.ok_iff]
  refine ⟨fun m => ?_, ?_⟩
  · by_cases hm : m = n
    · subst hm
      rw [LineParams.get_put_self _ _ hs]
      exact hs
    · rw [LineParams.get_put_of_ne _ hm]
      exact h1 m
  · have g1 := h1 .surgeHigh
    simp only [LineParam.range, ParamRange.holds, LineParams.get, Bool.and_eq_true, decide_eq_true_eq] at g1
    cases n <;> simp only [LineParam.range, LineParams.put, storedValue, LineParams.bounds, clamp] <;> omega

end Sys2Proof.Machine
end

