-- ==== Sys2Proof/Laws/PerInstr.lean ====
section
/-! SUPPORT. Laws/PerInstr.lean: one statement about every command as syntax, proved constructor by
constructor: a command that is a request travels in a frame whose body has the length that R174 gives its
kind, and no other command has a frame. -/

namespace Sys2Proof.Laws

/-- The frame of a command, where it has one, has the body length of its kind (R174). -/
def Framed.Statement (i : Instr) : Prop :=
  ∀ f, encodeRequest i = some f → f.body.length = f.kind.bodyLength

theorem Framed.powerOn : Framed.Statement .powerOn := fun _ h => by cases h

theorem Framed.restartStart : Framed.Statement .restartStart := fun _ h => by cases h

theorem Framed.millisecondBoundary (samples : Samples) : Framed.Statement (.millisecondBoundary samples) :=
  fun _ h => by cases h

theorem Framed.secondBoundary : Framed.Statement .secondBoundary := fun _ h => by cases h

theorem Framed.keepLapse (st : Station) : Framed.Statement (.keepLapse st) := fun _ h => by cases h

theorem Framed.waitExpiry (slot : Fin 24) : Framed.Statement (.waitExpiry slot) := fun _ h => by cases h

theorem Framed.digitalChange (input : DigitalInput) : Framed.Statement (.digitalChange input) :=
  fun _ h => by cases h

theorem Framed.estopAssert : Framed.Statement .estopAssert := fun _ h => by cases h

theorem Framed.estopRelease : Framed.Statement .estopRelease := fun _ h => by cases h

theorem Framed.positionArrival (t : Train) (reading : Option (BitVec 16)) :
    Framed.Statement (.positionArrival t reading) := fun _ h => by cases h

theorem Framed.recoveryExpiry (t : Train) : Framed.Statement (.recoveryExpiry t) := fun _ h => by cases h

theorem Framed.pressureArrival (t : Train) (loop : LoopReading) : Framed.Statement (.pressureArrival t loop) :=
  fun _ h => by cases h

theorem Framed.powerArrival (t : Train) (loop : LoopReading) : Framed.Statement (.powerArrival t loop) :=
  fun _ h => by cases h

theorem Framed.surgeLevelArrival (loop : LoopReading) : Framed.Statement (.surgeLevelArrival loop) :=
  fun _ h => by cases h

theorem Framed.overloadDelayExpiry (t : Train) : Framed.Statement (.overloadDelayExpiry t) :=
  fun _ h => by cases h

theorem Framed.clearingExpiry (t : Train) : Framed.Statement (.clearingExpiry t) := fun _ h => by cases h

theorem Framed.sampleExpiry (t : Train) : Framed.Statement (.sampleExpiry t) := fun _ h => by cases h

theorem Framed.drainExpiry (t : Train) : Framed.Statement (.drainExpiry t) := fun _ h => by cases h

theorem Framed.deadTimeExpiry (t : Train) : Framed.Statement (.deadTimeExpiry t) := fun _ h => by cases h

theorem Framed.moveTimerExpiry (t : Train) : Framed.Statement (.moveTimerExpiry t) := fun _ h => by cases h

theorem Framed.jogTimeEnd (t : Train) : Framed.Statement (.jogTimeEnd t) := fun _ h => by cases h

theorem Framed.dwellExpiry : Framed.Statement .dwellExpiry := fun _ h => by cases h

theorem Framed.timeLimitExpiry : Framed.Statement .timeLimitExpiry := fun _ h => by cases h

theorem Framed.wearStep (t : Train) : Framed.Statement (.wearStep t) := fun _ h => by cases h

theorem Framed.updateExpiry (t : Train) : Framed.Statement (.updateExpiry t) := fun _ h => by cases h

theorem Framed.storeWriteComplete (success : Bool) : Framed.Statement (.storeWriteComplete success) :=
  fun _ h => by cases h

theorem Framed.linkByteReceived (l : Link) (b : Byte) : Framed.Statement (.linkByteReceived l b) :=
  fun _ h => by cases h

theorem Framed.interByteGap (l : Link) : Framed.Statement (.interByteGap l) := fun _ h => by cases h

theorem Framed.replySent (l : Link) : Framed.Statement (.replySent l) := fun _ h => by cases h

theorem Framed.setGap (l : Link) (tag station : Byte) (value : Half) (priority : Byte) (keep wait : Half) :
    Framed.Statement (.setGap l tag station value priority keep wait) := fun _ h => by cases h; rfl

theorem Framed.setRate (l : Link) (tag station : Byte) (value : Half) (priority : Byte) (keep wait : Half) :
    Framed.Statement (.setRate l tag station value priority keep wait) := fun _ h => by cases h; rfl

theorem Framed.withdraw (l : Link) (tag station : Byte) : Framed.Statement (.withdraw l tag station) :=
  fun _ h => by cases h; rfl

theorem Framed.setMode (l : Link) (tag station mode : Byte) : Framed.Statement (.setMode l tag station mode) :=
  fun _ h => by cases h; rfl

theorem Framed.setParameter (l : Link) (tag set number : Byte) (value : Half) :
    Framed.Statement (.setParameter l tag set number value) := fun _ h => by cases h; rfl

theorem Framed.jog (l : Link) (tag station direction : Byte) (duty duration : Half) :
    Framed.Statement (.jog l tag station direction duty duration) := fun _ h => by cases h; rfl

theorem Framed.startZero (l : Link) (tag station : Byte) : Framed.Statement (.startZero l tag station) :=
  fun _ h => by cases h; rfl

theorem Framed.abortZero (l : Link) (tag station : Byte) : Framed.Statement (.abortZero l tag station) :=
  fun _ h => by cases h; rfl

theorem Framed.acknowledge (l : Link) (tag code subject : Byte) :
    Framed.Statement (.acknowledge l tag code subject) := fun _ h => by cases h; rfl

theorem Framed.acknowledgeAll (l : Link) (tag : Byte) : Framed.Statement (.acknowledgeAll l tag) :=
  fun _ h => by cases h; rfl

theorem Framed.saveProfile (l : Link) (tag : Byte) : Framed.Statement (.saveProfile l tag) :=
  fun _ h => by cases h; rfl

theorem Framed.restart (l : Link) (tag : Byte) : Framed.Statement (.restart l tag) :=
  fun _ h => by cases h; rfl

theorem Framed.setClock (l : Link) (tag : Byte) (value : Word) : Framed.Statement (.setClock l tag value) :=
  fun _ h => by cases h; rfl

theorem Framed.clearLock (l : Link) (tag : Byte) : Framed.Statement (.clearLock l tag) :=
  fun _ h => by cases h; rfl

theorem Framed.readStation (l : Link) (tag station : Byte) : Framed.Statement (.readStation l tag station) :=
  fun _ h => by cases h; rfl

theorem Framed.readWaiting (l : Link) (tag : Byte) : Framed.Statement (.readWaiting l tag) :=
  fun _ h => by cases h; rfl

theorem Framed.readConditions (l : Link) (tag : Byte) : Framed.Statement (.readConditions l tag) :=
  fun _ h => by cases h; rfl

theorem Framed.readParameter (l : Link) (tag set number : Byte) :
    Framed.Statement (.readParameter l tag set number) := fun _ h => by cases h; rfl

theorem Framed.readZeroRecord (l : Link) (tag station : Byte) :
    Framed.Statement (.readZeroRecord l tag station) := fun _ h => by cases h; rfl

theorem Framed.readClock (l : Link) (tag : Byte) : Framed.Statement (.readClock l tag) :=
  fun _ h => by cases h; rfl

theorem Framed.lossOfPower : Framed.Statement .lossOfPower := fun _ h => by cases h

end Sys2Proof.Laws
end

