-- ==== Sys2Proof/Tests/Slice0.lean ====
section
/-! SUPPORT. Tests/Slice0.lean: the checks of WellFormed, the frames, one step of every command on the manual's
worked examples, and states that meet the hypotheses of the statements. Expected values are the manual's, or
worked from its rules by hand. -/

namespace Sys2Proof.Tests

open Sys2Proof Sys2Proof.Machine

-- One theorem is elaborated at a time, which keeps the check's memory small.
set_option Elab.async false

/-! ### WellFormed: each check refuses an ill-formed command -/

theorem test_wf_priority_16 : wellFormed (.setGap .lc 0 5 300 16 0 0) = false := by decide
theorem test_wf_priority_15 : wellFormed (.setRate .lc 0 4 300 15 0 0) = true := by decide
theorem test_wf_wait_3601 : wellFormed (.setRate .lc 0 4 300 1 0 3601) = false := by decide
theorem test_wf_wait_3600 : wellFormed (.setGap .lc 0 5 300 1 0 3600) = true := by decide
theorem test_wf_mode_3 : wellFormed (.setMode .op 0 5 3) = false := by decide
theorem test_wf_jog_direction_0 : wellFormed (.jog .sv 0 5 0 100 10) = false := by decide
theorem test_wf_jog_direction_3 : wellFormed (.jog .sv 0 5 3 100 10) = false := by decide
theorem test_wf_jog_duration_0 : wellFormed (.jog .sv 0 5 1 100 0) = false := by decide
theorem test_wf_jog_duration_10001 : wellFormed (.jog .sv 0 5 2 100 10001) = false := by decide
theorem test_wf_code_0 : wellFormed (.acknowledge .op 0 0 0xFF) = false := by decide
theorem test_wf_code_18 : wellFormed (.acknowledge .op 0 18 0xFF) = false := by decide
theorem test_wf_subject_43h : wellFormed (.acknowledge .op 0 17 0x43) = false := by decide
theorem test_wf_subject_83h : wellFormed (.acknowledge .op 0 16 0x83) = false := by decide

/-! ### Frames (R172, and the worked exchange of section 10.5) -/

/-- The check value of a CRC-16 with generator 1021h and starting value FFFFh over the digits 1 to 9. -/
theorem test_crc16_digits :
    crc16 [0x31, 0x32, 0x33, 0x34, 0x35, 0x36, 0x37, 0x38, 0x39] = 0x29B1#16 := by decide +kernel

/-- The request of the worked exchange: SET GAP, station 5, value 260, priority 5, no keep, wait 300, tag 03h. -/
def opRequest : Instr := .setGap .op 0x03 0x05 260 0x05 0 300

theorem test_exchange_body :
    encodeRequest opRequest =
      some ⟨.op, 0x03, .setGap, [0x05, 0x01, 0x04, 0x05, 0x00, 0x00, 0x01, 0x2C]⟩ := by decide +kernel

theorem test_exchange_frame_begins :
    (encodeRequest opRequest).map (fun f => f.bytes.take 12) =
      some [0xC5, 0x0A, 0x03, 0x01, 0x05, 0x01, 0x04, 0x05, 0x00, 0x00, 0x01, 0x2C] := by decide +kernel

theorem test_exchange_read :
    decodeRequest .op 0x03 0x01 [0x05, 0x01, 0x04, 0x05, 0x00, 0x00, 0x01, 0x2C] = some opRequest := by decide +kernel

theorem test_no_table_word (n w : Nat) : decodeTableWord n w = none := rfl

/-! ### A running line -/

/-- A debounced input whose level is this. -/
def level (v : Bool) : Digital := ⟨v, some v, 0, false⟩

/-- An input whose sampled level is this and whose change is due. -/
def changing (v : Bool) : Digital := ⟨v, some (!v), 20, true⟩

/-- The four trains running at uptime 8000.000, each cone as station 5 in the worked gap arithmetic: reading
22,100, Z 21,400 and W 1,450, so a gap of 301, with the target there. -/
def live : State :=
  { State.reset with
    time := ⟨8000, 0, false, 905114200, true⟩
    line := { LineParams.afterFailedLoad with trainsPresent := Quad.all true }
    feeders := Quad.all ⟨.run, Standing.start 650, none, true⟩
    crushers := (Quad.all ⟨.run, Standing.start 301, none, true⟩).set .t0 ⟨.run, Standing.start 1500, none, true⟩
    inputs :=
      { FieldInputs.atStart with
        position := Quad.all (some 22100)
        pressure := Quad.all (some ⟨500, 488⟩)
        power := Quad.all (some ⟨3093, 302⟩)
        surge := some ⟨2048, 500⟩
        running := Quad.all (level true)
        reliefSwitch := Quad.all (level false)
        surgeConveyor := level true
        productConveyor := level true
        estop := level true }
    gaps := Quad.all ⟨.valid, false, none, some 301, false, 0, 0, 1450, 4309⟩
    positioners := Quad.all
      { Positioner.atStart ⟨false, false, false, false, false⟩ 50 with
        state := .idle
        lastEnd := ⟨7990000, some .opening⟩
        sampleTimer := ⟨7999990, 50⟩ }
    zeros := Quad.all ⟨21400, true, none, false, false⟩
    governors := Quad.all
      { Governor.atStart Holds.empty 500 with
        base := 650
        demand := 650
        command := 650
        updateTimer := ⟨7999990, 500⟩
        output := ⟨650, 3⟩ }
    conditions := ConditionList.atStart }

/-- Station 5, the cone of train 2, and station 4, its feeder. -/
def cone : Station := crusherOf .t2
def feed : Station := feederOf .t2

/-- The next state of a command; no command has another outcome. -/
def after (c : Instr) (s : State) : State :=
  match exec c s with
  | .next t => t
  | .fault e => nomatch e
  | .refused _ => s

/-- The status, flags and body of the reply a link sends. -/
def replied (s : State) (l : Link) : List Byte := ((s.link l).reply.drop 4).dropLast.dropLast

/-- A latched condition of station 5, a listed condition of another code, and an onset's stamp. -/
def entryOf (code : Code) (sub : Subject) (acknowledged active : Bool) : Entry :=
  ⟨code, sub, ⟨905114000, true⟩, 1, acknowledged, active, none⟩

/-- The same line with one Positioner changed. -/
def mov (f : Positioner → Positioner) : State := live.modPositioner .t2 f

/-- The cone in MAINTENANCE and suspended for it, its feeder held. -/
def service : State :=
  ((live.modStation cone fun r => { r with mode := .maintenance, lastAccepting := false }).modPositioner .t2
    fun p => { p with state := .suspended, reasons := { p.reasons with mode := true } }).modGovernor .t2
      fun g => g.hold .mode

theorem test_start_is_reset : startFrom Store.blank ⟨0, false⟩ [] = State.reset := by decide +kernel

/-! ### The machine and its laws -/

theorem witness_StepTakesTheFrontCommand :
    step (live.withPending [.secondBoundary, .estopAssert]) = exec .secondBoundary (live.withPending [.estopAssert]) :=
  rfl

theorem witness_StepTakesTheFrontCommand_idle :
    live.pending = [] ∧ (after .lossOfPower live).powered = false ∧ Instr.estopAssert ≠ .powerOn := by
  decide +kernel

/-- The line with one unacknowledged overload listed and one acknowledged trip. -/
def listing : State :=
  { live with
    conditions :=
      ⟨[entryOf .powerTrip (.crusher .t2) true true, entryOf .overload (.crusher .t1) false true], 2,
        some ⟨.powerTrip, .crusher .t2, ⟨905114000, true⟩⟩⟩
    pending := [.secondBoundary] }

theorem witness_ConditionListLawKept :
    listing.conditions.lawful ∧ step listing = .next (after .secondBoundary (listing.withPending [])) :=
  ⟨by unfold ConditionList.lawful; decide +kernel, rfl⟩

theorem live_profile : live.store.readProfile = none := rfl
theorem live_writing : live.store.writing = none := rfl

theorem live_params : live.paramsOk := by
  unfold State.paramsOk
  rw [live_profile, live_writing]
  exact ⟨by decide +kernel, by simp, by simp⟩

theorem witness_GovernorLawsKept :
    live.paramsOk ∧ live.governorsLawful ∧ live.ratesInRange ∧ step live = .next live := by
  refine ⟨live_params, ?_, ?_, rfl⟩
  · intro u
    unfold Governor.lawful
    cases u <;> decide +kernel
  · intro u
    cases u <;> decide +kernel

/-- The board of the worked contention after its step 4: slot 4 is OP's and slot 5 LC's, both for station 5. -/
def contended : Board :=
  ⟨((List.replicate 24 none).set 4 (some ⟨cone, 260, 5, .op, 3, 42, none, 291⟩)).set 5
    (some ⟨cone, 270, 6, .lc, 13, 44, none, 600⟩), 45⟩

/-- The contention while SV's 450 stands at priority 7 with number 43. -/
def settled : State :=
  (live.withBoard contended).modStation cone fun r => { r with standing := ⟨450, 7, .request .sv 77 43, some 60⟩ }

theorem contended_lawful : settled.board.lawful := by
  refine ⟨by decide +kernel, ?_, by decide +kernel, by decide +kernel⟩
  rintro l ⟨t, r⟩
  cases l <;> cases t <;> cases r <;> decide +kernel

theorem settled_touch : settled.touchLawful := by
  refine ⟨by decide +kernel, ?_, ?_⟩
  · intro u
    cases u <;> decide +kernel
  · intro u
    cases u <;> decide +kernel

/-- What holds of every waiting slot of a board and its place. -/
theorem slots_all {l : List (Option Slot)} {p : Nat → Slot → Prop} (h : ∀ x ∈ l.zipIdx, ∀ q ∈ x.1, p x.2 q) :
    ∀ j q, l[j]? = some (some q) → p j q := fun j q hj =>
  h (some q, j) (List.mem_zipIdx_iff_getElem?.mpr hj) q rfl

theorem settled_selections : settled.selectionsMade := by
  rintro ⟨u, r⟩
  refine ⟨by cases u <;> cases r <;> decide +kernel, fun _ q hq hs => ?_⟩
  obtain ⟨j, hj⟩ := List.mem_iff_getElem?.mp hq
  have h := slots_all (l := settled.board.slots) (p := fun _ q => q.station = cone ∧
    outranks q.priority q.sequence (settled.station cone).standing = false) (by decide +kernel) j q hj
  rw [← hs, h.1]
  exact h.2

theorem witness_BoardLawKept :
    settled.board.lawful ∧ settled.numbersLawful ∧ settled.touchLawful ∧ settled.selectionsMade ∧
      settled.accepting cone = true ∧ step settled = .next settled :=
  ⟨contended_lawful, by unfold State.numbersLawful; decide +kernel, settled_touch, settled_selections,
    by decide +kernel, rfl⟩

theorem witness_ParametersKeepTheirRanges : live.paramsOk ∧ step live = .next live := ⟨live_params, rfl⟩

theorem witness_TargetsStayWithinLimits : live.paramsOk ∧ live.targetsWithin ∧ live.basesFollow ∧
    step live = .next live := by
  refine ⟨live_params, ?_, ?_, rfl⟩
  · rintro ⟨u, r⟩
    unfold State.withinLimits
    cases u <;> cases r <;> decide +kernel
  · intro u
    cases u <;> decide +kernel

/-! ### Frames and links -/

/-- A link's interface: receiving this, with a reply pending or not, locked or not. -/
def withLink (l : Link) (r : Option Receiving) (pending locked : Bool) : State :=
  live.modLink l fun _ => ⟨r, pending, locked, []⟩

/-- Two bytes of a frame taken at uptime u. -/
def begun (u : Nat) : Option Receiving := some ⟨[0xC5], u⟩

theorem witness_FrameByBytesIsItsRequest :
    (encodeRequest opRequest).isSome = true ∧ live.listening ∧ (live.link .op).receiving = none ∧
      (live.link .op).replyPending = false := by unfold State.listening; decide +kernel

/-- Clause 1 by its CRC and by a reply pending, at bodies of 0 and 40 bytes; clause 2 by an unknown kind and by a
wrong length. -/
theorem witness_BadFramesChangeNothing :
    (live.listening ∧ (live.link .op).receiving = none ∧ (0 : Nat) ≤ 40 ∧ 0x0000#16 ≠ crc16 (frameCore 3 0x15 [])) ∧
      ((withLink .op none true false).listening ∧ ((withLink .op none true false).link .op).receiving = none ∧
        (List.replicate 40 0xC5#8).length ≤ 40 ∧ ((withLink .op none true false).link .op).replyPending = true) ∧
      decodeRequest .op 3 0x0F [] = none ∧ decodeRequest .op 3 0x15 (List.replicate 40 0x00) = none := by
  unfold State.listening; decide +kernel

theorem witness_BytesAreJudgedByReceiveState :
    ((withLink .op none false false).powered = true ∧ (withLink .op none false false).restart = .notTaken ∧
      0xC4#8 ≠ 0xC5#8) ∧
      (live.withRestart .replying).restart ≠ .notTaken ∧
      (((withLink .op (begun 7999995) false false).link .op).receiving = begun 7999995 ∧
        elapsed live.now 7999995 ≤ 5 ∧ (1#8).toNat < 2 ∧ 42 < (43#8).toNat) ∧
      5 < elapsed live.now 7999994 ∧ ((withLink .op none true false).link .op).replyPending = true := by
  decide +kernel

/-- A length of 2 and of 42 is taken, one of 1 and of 43 discards the frame begun. -/
theorem test_length_bounds :
    (((after (.linkByteReceived .op 2) (withLink .op (begun 8000000) false false)).link .op).receiving.isSome,
      ((after (.linkByteReceived .op 42) (withLink .op (begun 8000000) false false)).link .op).receiving.isSome,
      ((after (.linkByteReceived .op 1) (withLink .op (begun 8000000) false false)).link .op).receiving.isSome,
      ((after (.linkByteReceived .op 43) (withLink .op (begun 8000000) false false)).link .op).receiving.isSome) =
      (true, true, false, false) := by decide +kernel

theorem test_interByteGap :
    ((after (.interByteGap .op) (withLink .op (begun 7999994) false false)).link .op).receiving = none := by
  decide +kernel

theorem test_replySent :
    ((after (.replySent .op) (withLink .op none true false)).link .op).replyPending = false := by decide +kernel

theorem witness_RequestsAreJudgedInOrder :
    ((live.withRestart .replying).restart ≠ .notTaken) ∧
      ((withLink .op none false true).listening ∧ ((withLink .op none false true).link .op).locked = true ∧
        Kind.isRead .setGap = false ∧ Kind.setGap ≠ .clearLock) ∧
      (live.takesOn .op ∧ Kind.allowed .setClock .op = false) ∧
      (Kind.allowed .setGap .op = true ∧ wellFormed (.setGap .op 3 5 260 16 0 300) = false) ∧
      (let s := live.withCrusher .t2 { CrusherParams.defaults false with authority := ⟨true, false, true⟩ }
       s.takesOn .op ∧ (15#8).toNat ≤ 15 ∧ (3600#16).toNat ≤ 3600 ∧ (5#8).toNat = cone.number ∧
        s.present cone.train = true ∧ (s.authority cone).has .op = false) ∧
      (let s := live.withFeeder .t2 { FeederParams.defaults false with authority := ⟨true, false, true⟩ }
       s.takesOn .op ∧ (4#8).toNat = feed.number ∧ (s.authority feed).has .op = false) := by
  unfold State.takesOn State.listening; decide +kernel

/-- The last sentence of the worked exchange: OP's SET CLOCK is answered 8Dh with status 08h and OP is LOCKED. -/
theorem test_exchange_setClock :
    (((after (.setClock .op 3 7) live).link .op).reply.take 5 = [0xC5, 0x04, 0x03, 0x8D, 0x08] ∧
      ((after (.setClock .op 3 7) live).link .op).locked = true ∧
      (after (.setClock .op 3 7) live).conditions.listed .linkLocked (.link .op) = true) := by decide +kernel

/-! ### Start, supply and store -/

/-- The store of the running line with its sections stored. -/
def stored : Store :=
  ⟨⟨false, false, false⟩, none, some (.make Profile.bytes live.working),
    some (.make zeroBytes (Quad.all ⟨21400, true, none⟩)), some (.make wearBytes (Quad.all ⟨1450, 4309⟩))⟩

/-- A write of PROFILE in progress. -/
def saving : State := live.withStore { stored with profile := none, writing := some (.profile live.working) }

theorem witness_StartsLoadTheStore :
    (saving.powered = true ∧ saving.store.writing ≠ none) ∧
      (let s := (live.withStore stored).withRestart .replied
       s.powered = true ∧ s.restart = .replied ∧ s.store.writing = none) ∧
      (live.withRestart .replying).restart ≠ .replied := by decide +kernel

/-- A PROFILE that was written in full is read, and gives the stations their START_MODE. -/
theorem test_profile_loads : stored.profileAtStart = live.working ∧ stored.profileAtStart.crusherMode .t2 = .run := by
  have h : stored.profileAtStart = live.working := by simp [Store.profileAtStart, Store.readProfile, stored]
  exact ⟨h, by rw [h]; decide +kernel⟩

theorem test_zero_loads : stored.zerosAtStart = Quad.all ⟨21400, true, none⟩ := by
  simp [Store.zerosAtStart, Store.readZero, stored]

/-- The store of the running line with WEAR alone. -/
def worn : Store := { stored with profile := none, zero := none }

/-- WEAR is read, and a PROFILE and a ZERO never written are reported. -/
theorem test_powerOn_loads :
    let t := after .powerOn (live.withStore worn)
    (t.gap .t2).wear = 1450 ∧ t.time.clockSet = false ∧
      t.conditions.entries.map Entry.subject = [.storeSection .profile, .storeSection .zero] := by decide +kernel

theorem test_restartStart_keeps_the_clock :
    (after .restartStart ((live.withStore worn).withRestart .replied)).time =
      ⟨0, 0, false, 905114200, true⟩ := by decide +kernel

theorem witness_LossOfPowerKeepsTheSections :
    saving.powered = true ∧ saving.store.writing = some (.profile live.working) ∧
      saving.store.dirty = ⟨false, false, false⟩ ∧
      (live.withStore stored).store.writing.map WriteJob.sec ≠ some .profile := by decide +kernel

/-- The check value of W 1,450 and 4,309 tenth-hours for each crusher: the CRC-16 of 24 bytes, worked apart. -/
theorem test_section_check : stored.wear.map StoredSection.check = some 0x3382#16 := by decide +kernel

/-- A section whose check value is off by one fails; the WEAR as written passes. -/
theorem test_section_fails :
    ({ stored with wear := some ⟨Quad.all ⟨1450, 4309⟩, 0x3383⟩ } : Store).readWear = none ∧
      stored.readWear = some (Quad.all ⟨1450, 4309⟩) := by decide +kernel

/-- A PROFILE cut short by a loss of power fails, while ZERO and WEAR pass. -/
theorem test_write_cut_short :
    let t := after .lossOfPower saving
    t.store.readProfile = none ∧ t.store.readZero = some (Quad.all ⟨21400, true, none⟩) ∧
      t.store.readWear = some (Quad.all ⟨1450, 4309⟩) :=
  ⟨readSection_torn _, readSection_make _, readSection_make _⟩

/-- The dirty set empty and not, a RESTART taken and not, and the four cases of SAVE PROFILE. -/
theorem witness_StoreWritesFollowTheDirtySet :
    (saving.powered = true ∧ saving.store.dirty = ⟨false, false, false⟩) ∧
      (saving.withRestart .replying).restart ≠ .notTaken ∧
      (let s := saving.withStore { saving.store with dirty := ⟨true, false, true⟩ }
       s.restart = .notTaken ∧ s.store.dirty ≠ ⟨false, false, false⟩ ∧
        (after (.storeWriteComplete true) s).store.writing = some (.wear (Quad.all ⟨1450, 4309⟩))) ∧
      live.takesOn .sv ∧ saving.takesOn .sv ∧ live.store.writing = none ∧ live.store.dirty.zero = false ∧
      (live.withStore { stored with dirty := ⟨false, true, false⟩ }).store.dirty.zero = true ∧
      (live.withStore { stored with dirty := ⟨false, false, true⟩ }).store.dirty.wear = true := by
  unfold State.takesOn State.listening; decide +kernel

theorem test_saveProfile :
    (after (.saveProfile .sv 1) live).store.writing = some (.profile live.working) := by decide +kernel

theorem test_write_fails :
    (after (.storeWriteComplete false) saving).store.dirty.profile = true ∧
      (after (.storeWriteComplete false) saving).conditions.listed .storeFault (.storeSection .profile) = true := by
  decide +kernel

theorem witness_RestartClockAndLockRequests :
    live.takesOn .sv ∧ live.takesOn .lc ∧ (withLink .op none false true).listening := by
  unfold State.takesOn State.listening; decide +kernel

theorem test_restart : (after (.restart .sv 1) live).restart = .replying := by decide +kernel

theorem test_setClock :
    (after (.setClock .lc 1 4294967295) live).time.lineClock = 4294967295 ∧
      replied (after (.setClock .lc 1 4294967295) live) .lc = [0, 0, 0xFF, 0xFF, 0xFF, 0xFF] := by decide +kernel

theorem test_clearLock :
    ((after (.clearLock .op 1) (withLink .op none false true)).link .op).locked = false := by decide +kernel

/-! ### The Condition List -/

/-- A full List: four of each of four codes, MOVE_TIMEOUT of train 0 with its cause inactive or not. -/
def fullList (active : Bool) : ConditionList :=
  ⟨(entryOf .positionFault (.crusher .t0) false true :: entryOf .moveTimeout (.crusher .t0) false active ::
      (Train.all.drop 1).flatMap fun u =>
        [entryOf .positionFault (.crusher u) false true, entryOf .moveTimeout (.crusher u) false true]) ++
    Train.all.flatMap fun u => [entryOf .overload (.crusher u) true true, entryOf .relief (.crusher u) false true],
    65535, none⟩

/-- A recurrence, room at 15 entries and none, an overflow, and an eviction of an inactive entry and of the
oldest; then the end of a cause not listed, unlatched, latched and acknowledged, and latched alone. -/
theorem witness_ReportsActOnTheList :
    listing.conditions.lawful ∧ (fullList true).lawful ∧ (fullList false).lawful ∧
      listing.conditions.entries =
        [] ++ entryOf .powerTrip (.crusher .t2) true true :: [entryOf .overload (.crusher .t1) false true] ∧
      (∀ e ∈ listing.conditions.entries, e.name ≠ (.estop, .line)) ∧ listing.conditions.entries.length < 16 ∧
      (∀ e ∈ (fullList true).entries, e.name ≠ (.estop, .line)) ∧ (fullList true).entries.length = 16 ∧
      Code.cls .estop ≠ .trip ∧ Code.cls .powerTrip = .trip ∧
      (∀ e ∈ (fullList true).entries, e.name ≠ (.powerTrip, .crusher .t2)) ∧
      ((fullList true).entries =
          [] ++ entryOf .positionFault (.crusher .t0) false true :: (fullList true).entries.drop 1 ∧
        ∀ d ∈ (fullList true).entries, d.code.cls = .trip ∨ d.active = true) ∧
      ((fullList false).entries =
          [entryOf .positionFault (.crusher .t0) false true] ++
            entryOf .moveTimeout (.crusher .t0) false false :: (fullList false).entries.drop 2 ∧
        ∀ d ∈ [entryOf .positionFault (.crusher .t0) false true], d.code.cls = .trip ∨ d.active = true) ∧
      Code.latched .overload = false ∧ Code.latched .powerTrip = true ∧ Code.latched .moveTimeout = true := by
  unfold ConditionList.lawful; decide +kernel

theorem test_eviction :
    let l := (fullList false).onset .powerTrip (.crusher .t2) (some (.power 385)) ⟨9, true⟩
    l.entries.length = 16 ∧ l.listed .moveTimeout (.crusher .t0) = false ∧ l.overflow = 65535 ∧
      l.firstOut = some ⟨.powerTrip, .crusher .t2, ⟨9, true⟩⟩ := by decide +kernel

/-- A CLOSE drive of train 2, a jog at its end and a pending drive at its end; the outputs of a station out of
RUN, with no touch. -/
theorem witness_OutputsFollowTheirBlocks :
    (let s := mov fun p => { p with drive := some ⟨.closing, 270⟩, valve := ⟨200, 3⟩ }
     s.powered = true ∧ (s.positioner .t2).drive = some ⟨.closing, 270⟩ ∧
      s.valveOutput .t2 .closing = 200 ∧ s.valveOutput .t2 .opening = 0) ∧
      ((live.positioner .t2).drive = none ∧ live.rateOutput .t2 = 650) ∧
      (let s := mov fun p => { p with state := .deadTime, pendingDrive := some ⟨.opening, 440, ⟨7999960, 40⟩⟩ }
       s.powered = true ∧ (s.positioner .t2).pendingDrive = some ⟨.opening, 440, ⟨7999960, 40⟩⟩ ∧
        40 ≤ elapsed s.now 7999960) ∧
      (let s := mov fun p =>
        { p with
          state := .jogging
          reasons := { p.reasons with mode := true }
          drive := some ⟨.opening, 100⟩
          jog := some ⟨.opening, 100, 0⟩ }
       (s.positioner .t2).state = .jogging ∧ (s.positioner .t2).jog = some ⟨.opening, 100, 0⟩ ∧
        (s.positioner .t2).reasons.isEmpty = false) ∧
      service.takesOn .sv ∧ (service.station cone).mode ≠ .run ∧ service.isSubject .t2 = false ∧
      ((live.modStation feed fun r => { r with mode := .maintenance }).station feed).mode ≠ .run := by
  unfold State.takesOn State.listening; decide +kernel

/-- Under INVERTED a duty of 440 is sent as 560 and a drive that is off as 1000, and a command of 650 as 350. -/
theorem test_inverted_outputs :
    let s := (mov fun p =>
      { p with state := .deadTime, pendingDrive := some ⟨.opening, 440, ⟨7999960, 40⟩⟩ }).withCrusher .t2
        { CrusherParams.defaults false with openPolarity := .inverted, closePolarity := .inverted }
    let t := after (.deadTimeExpiry .t2) s
    let f := live.withFeeder .t2 { FeederParams.defaults false with outputPolarity := .inverted }
    (s.valveOutput .t2 .opening, t.valveOutput .t2 .opening, t.valveOutput .t2 .closing, f.rateOutput .t2) =
      (1000, 560, 1000, 350) := by decide +kernel

theorem test_beacons :
    ((fullList true).beacon .hold, listing.conditions.beacon .trip, listing.conditions.beacon .info) =
      (.flashing, .steady, .off) := by decide +kernel

/-! ### Boundaries, countdowns and digital inputs -/

theorem live_quiet : live.quiet := by
  unfold State.quiet
  refine ⟨rfl, ?_, ?_, ?_, rfl, ?_, rfl, rfl, ?_, rfl⟩
  · rintro ⟨u, r⟩
    cases u <;> cases r <;> rfl
  · intro i
    have h : live.board.slots = List.replicate 24 none := rfl
    simp only [Board.waitDue, h, List.getElem?_replicate]
    cases Nat.decLt i 24 <;> rename_i hi <;> simp [hi]
  · intro i
    cases i with
    | running u => cases u <;> rfl
    | reliefSwitch u => cases u <;> rfl
    | surgeConveyor => rfl
    | productConveyor => rfl
  · intro u
    unfold State.quietTrain
    cases u <;> decide +kernel
  · intro l
    cases l <;> rfl

/-- Every input energized and the E-stop loop closed, or open. -/
def samples (loop : Bool) : Samples := ⟨Quad.all true, Quad.all false, true, true, loop⟩

theorem witness_MillisecondBoundaryAdvancesUptime :
    live.powered = true ∧ live.quiet ∧ (∀ i, (live.inputs.digital i).level ≠ none) ∧
      live.inputs.estop.level ≠ none := by
  refine ⟨rfl, live_quiet, ?_, by decide +kernel⟩
  intro i
  cases i with
  | running u => cases u <;> decide +kernel
  | reliefSwitch u => cases u <;> decide +kernel
  | surgeConveyor => decide +kernel
  | productConveyor => decide +kernel

/-- The millisecond that reaches a second boundary, with a loaded cone. -/
theorem test_millisecond_wraps :
    let t := after (.millisecondBoundary (samples true))
      (live.withTime ⟨4294967295, 999, false, 5, true⟩)
    (t.time.seconds, t.time.millis, t.time.secondDue, (t.gap .t2).loadedTime) = (0, 0, true, 1) := by
  decide +kernel

theorem witness_MillisecondBoundaryAdvancesUptime_samples :
    live.powered = true ∧ live.quiet ∧
      ((live.inputs.digital (.running .t2)).level = some true ∧ (samples true).level (.running .t2) = true) ∧
      (live.inputs.digital (.running .t2)).count < 20 ∧ live.inputs.estop.level = some true ∧
      State.reset.powered = true ∧ (State.reset.inputs.digital .surgeConveyor).level = none ∧
      State.reset.inputs.estop.level = none :=
  ⟨rfl, live_quiet, by decide +kernel, by decide +kernel, by decide +kernel, by decide +kernel, by decide +kernel,
    by decide +kernel⟩

/-- The first differing sample and the twentieth; an open E-stop loop is due at once. -/
theorem test_debounce :
    let s (n : Nat) := live.withInputs { live.inputs with surgeConveyor := ⟨true, some true, n, false⟩ }
    let x : Samples := ⟨Quad.all true, Quad.all false, false, true, false⟩
    (after (.millisecondBoundary x) (s 0)).inputs.surgeConveyor = ⟨false, some true, 1, false⟩ ∧
      (after (.millisecondBoundary x) (s 19)).inputs.surgeConveyor = ⟨false, some true, 20, true⟩ ∧
      (after (.millisecondBoundary x) (s 0)).inputs.estop = ⟨false, some true, 0, true⟩ := by decide +kernel

/-- A second boundary due, keeps of 1 and 600 s and a wait of 291 s. -/
def ticking : State :=
  ((live.withBoard contended).withTime ⟨8000, 0, true, 4294967295, true⟩).modStation cone fun r =>
    { r with standing := ⟨450, 7, .request .sv 77 43, some 1⟩ }

theorem witness_SecondBoundaryCountsDown :
    ticking.powered = true ∧ ticking.time.secondDue = true ∧
      (let s := live.withBoard ⟨(List.replicate 24 none).set 23 (some ⟨cone, 260, 5, .op, 3, 42, none, 0⟩), 43⟩
       s.powered = true ∧ s.board.slots[23]? = some (some ⟨cone, 260, 5, .op, 3, 42, none, 0⟩) ∧
        (after (.waitExpiry 23) s).board.slots[23]? = some none) := by decide +kernel

theorem test_secondBoundary :
    let t := after .secondBoundary ticking
    (t.station cone).standing.keep = some 0 ∧ t.time.lineClock = 0 ∧
      (t.board.slots[4]?.join.map Slot.wait) = some 290 := by decide +kernel

/-- Slot 5 is the best for station 5 of the contention's board. -/
theorem contended_best : ∀ j q, contended.slots[j]? = some (some q) → q.station = cone → j ≠ 5 →
    q.priority < 6 ∨ q.priority = 6 ∧ q.sequence < 44 :=
  slots_all (by decide +kernel)

/-- The contention's lapse: SV's keep has reached 0, and LC's slot 5 is the best. -/
def lapsing (keep : Option Nat) (origin : Origin) : State :=
  (live.withBoard contended).modStation cone fun r => { r with standing := ⟨450, 7, origin, keep⟩ }

theorem witness_SecondBoundaryCountsDown_lapse :
    (let s := (lapsing (some 0) (.request .sv 77 43)).modSupervisor .t2 fun v => { v with relief := .clearing }
     s.powered = true ∧ (s.station cone).standing.keep = some 0 ∧ s.accepting cone = false) ∧
      (let s := (lapsing (some 0) (.request .sv 77 43)).withBoard ⟨List.replicate 24 none, 46⟩
       (s.station cone).standing.keep = some 0 ∧ s.board.waitingFor cone = 0) ∧
      (let s := lapsing (some 0) (.request .sv 77 43)
       s.powered = true ∧ (s.station cone).standing.keep = some 0 ∧ s.accepting cone = true ∧
        s.board.slots[5]? = some (some ⟨cone, 270, 6, .lc, 13, 44, none, 600⟩) ∧ 0 < 6 ∧
        (s.station cone).lastAccepting = true) ∧
      ∀ j q, (lapsing (some 0) (.request .sv 77 43)).board.slots[j]? = some (some q) → q.station = cone → j ≠ 5 →
        q.priority < 6 ∨ q.priority = 6 ∧ q.sequence < 44 :=
  ⟨by decide +kernel, by decide +kernel, by decide +kernel, contended_best⟩

/-- A lapse whose only waiting request, of priority 0, is older than the standing setting. -/
theorem witness_SecondBoundaryCountsDown_not_outranked :
    let s := (lapsing (some 0) (.request .sv 77 43)).withBoard
      ⟨(List.replicate 24 none).set 0 (some ⟨cone, 260, 0, .op, 3, 42, none, 291⟩), 46⟩
    s.accepting cone = true ∧ (s.station cone).standing.keep = some 0 ∧
      s.board.slots[0]? = some (some ⟨cone, 260, 0, .op, 3, 42, none, 291⟩) ∧
      (∀ j q, s.board.slots[j]? = some (some q) → q.station = cone → j ≠ 0 →
        q.priority < 0 ∨ q.priority = 0 ∧ q.sequence < 42) ∧
      ¬(0 < 0 ∨ ∀ l tag n, (s.station cone).standing.origin = .request l tag n → n < 42) :=
  ⟨by decide +kernel, by decide +kernel, by decide +kernel, slots_all (by decide +kernel), fun h => by
    rcases h with h | h
    · exact absurd h (by decide)
    · exact absurd (h .sv 77 43 rfl) (by decide)⟩

/-- The contention's step 9, by the lapse: LC's 270 at priority 6. -/
theorem test_keepLapse :
    let t := after (.keepLapse cone) (lapsing (some 0) (.request .sv 77 43))
    (t.station cone).standing = ⟨270, 6, .request .lc 13 44, none⟩ ∧ t.board.slots[5]? = some none ∧
      (t.station cone).lastApplied = some ⟨.lc, 13⟩ := by decide +kernel

theorem witness_DigitalChangesSetTheHolds :
    (let s := live.withInputs { live.inputs with running := live.inputs.running.set .t2 (changing false) }
     s.powered = true ∧ (s.inputs.running.get .t2).due = true ∧ (s.inputs.running.get .t2).raw = false ∧
      s.present .t2 = true ∧ s.isSubject .t2 = false ∧
      ((after (.digitalChange (.running .t2)) s).governor .t2).holds.crusherStopped = true) ∧
      (let s := live.withInputs { live.inputs with surgeConveyor := changing false }
       s.inputs.surgeConveyor.due = true ∧ s.inputs.surgeConveyor.raw = false ∧
        ((after (.digitalChange .surgeConveyor) s).governor .t0).holds.conveyor = true ∧
        ((after (.digitalChange .surgeConveyor) s).governor .t1).holds.conveyor = false) ∧
      (let s := live.withInputs { live.inputs with productConveyor := changing true }
       s.inputs.productConveyor.due = true ∧ s.inputs.productConveyor.raw = true) ∧
      (let s := (live.withInputs
          { live.inputs with
            running := live.inputs.running.set .t2 (changing false)
            reliefSwitch := live.inputs.reliefSwitch.set .t2 (changing true) }).withLine LineParams.afterFailedLoad
       s.present .t2 = false ∧ (s.inputs.running.get .t2).due = true ∧
        (s.inputs.reliefSwitch.get .t2).due = true) ∧
      (live.crusher .t2).reliefSource = .analog := by decide +kernel

theorem witness_HoldsStopTheFeeder :
    (live.governor .t2).lawful 200 ∧ Hold.estop ≠ .mode ∧ ((live.governor .t2).hold .mode).lawful 200 := by
  unfold Governor.lawful; decide +kernel

/-- The E-stop loop has opened: the cone drives, train 1's cone jogs and train 3's is lent to a touch. -/
def stopping : State :=
  (((((live.withInputs { live.inputs with estop := changing false }).modPositioner .t2 fun p =>
      { p with state := .driving, drive := some ⟨.closing, 270⟩, move := some ⟨7999000, true⟩ }).modPositioner .t1
    fun p => { p with state := .jogging, drive := some ⟨.opening, 100⟩, jog := some ⟨.opening, 100, 50⟩ }).modPositioner
      .t3 fun p => { p with state := .lent, drive := some ⟨.closing, 120⟩ }).modStation (crusherOf .t3) fun r =>
        { r with mode := .maintenance }).modSequencer fun _ =>
          ⟨.approach, some .t3, true, none, some ⟨7990000, 180000⟩, none, none, some 7990000⟩

theorem witness_EstopStopsTheLine :
    stopping.powered = true ∧ stopping.inputs.estop.due = true ∧ stopping.inputs.estop.raw = false ∧
      stopping.governorsLawful ∧ (∀ u, (stopping.positioner u).reasons.estop = false) ∧
      (∀ u, (stopping.positioner u).drive = none ∨
        (stopping.positioner u).state = .driving ∧ (stopping.positioner u).reasons.isEmpty = true ∨
        (stopping.positioner u).state = .jogging ∨
        (stopping.positioner u).state = .lent ∧ stopping.sequencer.subject = some u) ∧
      (live.withInputs { live.inputs with estop := changing false }).sequencer.subject = none := by
  refine ⟨rfl, rfl, rfl, ?_, ?_, ?_, rfl⟩
  · intro u
    unfold Governor.lawful
    cases u <;> decide +kernel
  · intro u
    cases u <;> decide +kernel
  · intro u
    cases u <;> decide +kernel

theorem test_estopAssert :
    let t := after .estopAssert stopping
    (t.positioner .t2).drive = none ∧ (t.positioner .t2).lastEnd = ⟨8000000, some .closing⟩ ∧
      (t.positioner .t2).move = some ⟨7999000, true⟩ ∧ (t.positioner .t1).jog = none ∧
      ((t.zero .t3).outcome.map TouchOutcome.result) = some .abortedEstop ∧ (t.governor .t0).command = 0 := by
  decide +kernel

/-- The E-stop loop has closed again, with the trains suspended for the stop alone, or for MODE too. -/
def released (mode : Bool) : State :=
  { live with
    inputs := { live.inputs with estop := changing true }
    positioners := live.positioners.map fun p =>
      { p with state := .suspended, reasons := { p.reasons with estop := true, mode := mode } }
    governors := live.governors.map fun g => g.hold .estop }

theorem witness_EstopReleaseRemovesItsHolds :
    (released true).powered = true ∧ (released true).inputs.estop.due = true ∧
      (released true).inputs.estop.raw = true ∧
      ∀ u, ((released true).positioner u).state = .suspended → ((released true).positioner u).reasons.mode = true := by
  refine ⟨rfl, rfl, rfl, ?_⟩
  intro u
  cases u <;> decide +kernel

/-- With nothing else held, the release resumes: the gap is at its target, so the Positioner is IDLE. -/
theorem test_estopRelease :
    ((after .estopRelease (released false)).positioner .t2).state = .idle ∧
      ((after .estopRelease (released false)).governor .t2).state = .running := by decide +kernel

/-! ### Readings, the measured gap and the position -/

/-- Train 2 left out of the line. -/
def absent : State := live.withLine LineParams.afterFailedLoad

theorem witness_ReadingsAreKeptAndMeasured :
    absent.powered = true ∧ absent.present .t2 = false ∧
      (live.powered = true ∧ live.present .t2 = true ∧ (live.gap .t2).validity = .valid ∧
        (live.crusher .t2).posLow ≤ (1000#16).toNat ∧ (64000#16).toNat ≤ (live.crusher .t2).posHigh ∧
        live.isSubject .t2 = false ∧ (live.positioner .t2).state ≠ .jogging) := by decide +kernel

/-- The worked gap arithmetic of the cone: working, one count open, at the low end of the window, and with W
saturated. -/
theorem test_worked_gap :
    let g (r : BitVec 16) (w : Nat) :=
      ((after (.positionArrival .t2 (some r)) (live.modGap .t2 fun x => { x with wear := w })).gap .t2).gap
    (g 22100 1450, g 21401 1450, g 1000 1450, g 22100 65535) = (some 301, some 14, some 14, some 942) := by
  decide +kernel

/-- The worked scaling: 2867 and 2868 raw are 2799 and 2800 bar tenths, 3306 raw is 322 kW, 3687 raw 900. -/
theorem test_worked_scaling :
    ((after (.pressureArrival .t2 (.raw 2867)) absent).inputs.pressure.get .t2,
      (after (.powerArrival .t2 (.raw 3306)) absent).inputs.power.get .t2,
      (after (.surgeLevelArrival (.raw 3687)) live).inputs.surge,
      (after (.pressureArrival .t2 .below) absent).inputs.pressure.get .t2,
      (after (.powerArrival .t2 .above) absent).inputs.power.get .t2) =
      (some ⟨2867, 2799⟩, some ⟨3306, 322⟩, some ⟨3687, 900⟩, some ⟨0, 0⟩, some ⟨4095, 399⟩) := by decide +kernel

/-- The cone's position state put to this, with the fault standing or not. -/
def judging (v : Validity) (standing : Bool) : State :=
  (live.modGap .t2 fun g =>
    { g with
      validity := v
      faultStanding := standing
      recovery := if v = .recovering then some ⟨⟨7999000, 1000⟩, some 301⟩ else none
      gap := if v = .valid then g.gap else none }).modPositioner .t2 fun p =>
        { p with state := .suspended, reasons := { p.reasons with position := v ≠ .valid } }

/-- The readings of 999 and 64,001 counts lie outside the window, those of 1000 and 64,000 within it. -/
theorem witness_PositionIsLostAndRecovers :
    ((999#16).toNat < (live.crusher .t2).posLow ∧ (live.crusher .t2).posHigh < (64001#16).toNat ∧
      (live.gap .t2).validity = .valid ∧ (live.gap .t2).firstReadingDue = false ∧ live.isSubject .t2 = false ∧
      (live.positioner .t2).state ≠ .jogging ∧ (live.positioner .t2).reasons.isEmpty = true) ∧
      (let s := mov fun p => { p with state := .driving, drive := some ⟨.closing, 270⟩ }
       (s.positioner .t2).state = .driving ∧ (s.positioner .t2).reasons.isEmpty = true ∧
        (s.positioner .t2).drive = some ⟨.closing, 270⟩) ∧
      ((judging .notValid true).present .t2 = true ∧ ((judging .notValid true).gap .t2).validity = .notValid) ∧
      (((judging .recovering true).gap .t2).validity = .recovering ∧
        ((judging .recovering true).gap .t2).faultStanding = true ∧
        ((judging .recovering true).positioner .t2).reasons.position = true) ∧
      ((judging .recovering true).gap .t2).recovery = some ⟨⟨7999000, 1000⟩, some 301⟩ ∧
      1000 ≤ elapsed (judging .recovering true).now 7999000 ∧
      (judging .recovering false).board.waitingFor cone = 0 ∧
      (((judging .notValid true).gap .t2).firstReadingDue = false ∧
        ((judging .notValid true).positioner .t2).state ≠ .jogging ∧
        ((judging .notValid true).positioner .t2).reasons.position = true ∧
        (judging .notValid true).isSubject .t2 = false) := by decide +kernel

theorem test_position_lost :
    let t := after (.positionArrival .t2 (some 64001)) live
    (t.gap .t2).gap = none ∧ t.accepting cone = false ∧
      t.conditions.listed .positionFault (.crusher .t2) = true := by decide +kernel

theorem test_recoveryExpiry :
    let t := after (.recoveryExpiry .t2) (judging .recovering true)
    (t.gap .t2).gap = some 301 ∧ (t.positioner .t2).state = .idle ∧ t.accepting cone = true := by decide +kernel

/-- A GAIN written and a W stepped after the latest reading of a recovery, 22,100, do not act on the gap at its expiry
(R62); at a reading before the expiry they do: 700 × 840 / 1024 = 574 and 16,000 / 100 = 160. -/
theorem test_recovery_keeps_its_arrival :
    let written (s : State) := (s.withCrusher .t2 { CrusherParams.defaults false with gain := 840 }).modGap .t2
      fun g => { g with wear := 16000 }
    let arrival : Instr := .positionArrival .t2 (some 22100)
    ((after (.recoveryExpiry .t2) (written (after arrival (judging .recovering true)))).gap .t2).gap = some 301 ∧
      ((after (.recoveryExpiry .t2) (after arrival (written (judging .recovering true)))).gap .t2).gap =
        some 734 := by decide +kernel

/-- Right after a start: no position arrival taken yet. -/
def unread : State :=
  live.modGap .t2 fun g => { g with validity := .unchecked, gap := none, firstReadingDue := true }

theorem witness_FirstReadingWritesTheStartTarget :
    unread.powered = true ∧ unread.present .t2 = true ∧ (unread.gap .t2).validity = .unchecked ∧
      (unread.gap .t2).firstReadingDue = true ∧ unread.board.waitingFor cone = 0 ∧
      unread.isSubject .t2 = false ∧
      ((after (.positionArrival .t2 (some 22100)) unread).station cone).standing = Standing.start 301 ∧
      ((after (.positionArrival .t2 none) unread).station cone).standing = Standing.start 450 := by decide +kernel

/-- Right after train 2 is made present again: no position arrival taken since. -/
def returned : State := (judging .notValid false).modGap .t2 fun g => { g with firstReadingDue := true }

theorem witness_FirstReadingWritesTheStartTarget_return :
    returned.powered = true ∧ returned.present .t2 = true ∧ (returned.gap .t2).validity = .notValid ∧
      (returned.gap .t2).firstReadingDue = true ∧ (returned.gap .t2).gap = none ∧
      (returned.positioner .t2).reasons.position = true ∧ (returned.positioner .t2).state = .suspended ∧
      returned.isSubject .t2 = false ∧ (returned.crusher .t2).posLow ≤ (1000#16).toNat ∧
      (1000#16).toNat ≤ (returned.crusher .t2).posHigh ∧ (999#16).toNat < (returned.crusher .t2).posLow := by
  decide +kernel

/-- A reading in the window begins a recovery; one outside it reports POSITION_FAULT; both write GAP_MAX, 450. -/
theorem test_first_reading_of_a_return :
    let t (r : BitVec 16) := after (.positionArrival .t2 (some r)) returned
    ((t 1000).gap .t2).recovery = some ⟨⟨8000000, 1000⟩, some 14⟩ ∧
      ((t 1000).station cone).standing = Standing.start 450 ∧
      ((t 999).station cone).standing = Standing.start 450 ∧
      (t 999).conditions.listed .positionFault (.crusher .t2) = true := by decide +kernel

/-! ### Relief, overload and trips -/

/-- The cone after a relief onset: its detector active and its relief state this. -/
def relieving (active : Bool) (r : ReliefState) : State :=
  ((live.modSupervisor .t2 fun v =>
      { v with
        relief := r
        detectorActive := active
        history := [7700, 7990]
        reliefLatch := .setAcknowledged
        clearingTimer := if r = .clearing then some ⟨7985000, 15000⟩ else none }).modPositioner .t2 fun p =>
    { p with state := .suspended, reasons := { p.reasons with relief := true } }).modGovernor .t2 fun g =>
      g.hold .relief

/-- The cone under SWITCH, its switch's change due. -/
def switched (active raw : Bool) : State :=
  ((relieving active .relieving).withCrusher .t2 { CrusherParams.defaults false with reliefSource := .switch }).withInputs
    { live.inputs with reliefSwitch := live.inputs.reliefSwitch.set .t2 (changing raw) }

theorem witness_ReliefDetectorFollowsItsSource :
    (live.powered = true ∧ live.present .t2 = true ∧ (live.crusher .t2).reliefSource = .analog ∧
      live.isSubject .t2 = false ∧ (live.supervisor .t2).detectorActive = false ∧
      (analogOf (.raw 2867) 4000).scaled = 2799 ∧ (live.crusher .t2).reliefLevel = 2800) ∧
      (((relieving true .relieving).supervisor .t2).detectorActive = true ∧
        ((relieving true .relieving).supervisor .t2).relief = .relieving ∧
        (analogOf (.raw 2560) 4000).scaled = 2500 ∧ (analogOf (.raw 2559) 4000).scaled = 2499) ∧
      (((switched true false).crusher .t2).reliefSource = .switch ∧
        ((switched true false).inputs.reliefSwitch.get .t2).due = true ∧
        ((switched true false).supervisor .t2).detectorActive = true ∧
        ((switched true false).inputs.reliefSwitch.get .t2).raw =
          ((switched true false).crusher .t2).switchInvert) ∧
      ((switched true true).supervisor .t2).detectorActive = true ∧
      ((switched false true).supervisor .t2).detectorActive = false ∧
      ((switched false true).inputs.reliefSwitch.get .t2).raw ≠
        ((switched false true).crusher .t2).switchInvert := by decide +kernel

/-- The switch's level at a pressure arrival: none yet, inactive, active. -/
theorem witness_ReliefDetectorFollowsItsSource_arrival :
    let s (active : Bool) (level : Option Bool) := (switched active false).withInputs
      { live.inputs with reliefSwitch := live.inputs.reliefSwitch.set .t2 ⟨false, level, 0, false⟩ }
    ((s true none).powered = true ∧ (s true none).present .t2 = true ∧ (s true none).isSubject .t2 = false ∧
      ((s true none).inputs.reliefSwitch.get .t2).level = none) ∧
      (((s true (some false)).inputs.reliefSwitch.get .t2).level = some false ∧
        ((s true (some false)).crusher .t2).switchInvert = false ∧
        ((s true (some false)).supervisor .t2).relief = .relieving) ∧
      ((s false (some true)).supervisor .t2).detectorActive = false := by decide +kernel

theorem test_switch_at_a_pressure_arrival :
    let s := (switched true false).withInputs
      { live.inputs with reliefSwitch := live.inputs.reliefSwitch.set .t2 (level false) }
    ((after (.pressureArrival .t2 (.raw 4000)) s).supervisor .t2).relief = .clearing := by decide +kernel

theorem test_relief_end :
    ((after (.pressureArrival .t2 (.raw 2559)) (relieving true .relieving)).supervisor .t2).clearingTimer =
      some ⟨8000000, 15000⟩ := by decide +kernel

/-- An onset that is the first, and one that finds two within the window. -/
theorem witness_ReliefOnsetStopsTheTrain :
    (live.present .t2 = true ∧ (live.supervisor .t2).detectorActive = false ∧
      (live.crusher .t2).reliefLevel ≤ (analogOf (.raw 2868) (live.crusher .t2).pressureSpan).scaled ∧
      (live.governor .t2).lawful (live.feeder .t2).trimLimit ∧ (live.positioner .t2).reasons.relief = false ∧
      (live.positioner .t2).drive = none) ∧
      (let s := live.modSupervisor .t2 fun v => { v with history := [7400, 7990] }
       (s.crusher .t2).reliefCount = 3 ∧
        ((s.supervisor .t2).history ++ [s.time.seconds]).countP
          (fun x => (s.time.seconds + 4294967296 - x) % 4294967296 ≤ 600) = 3) := by
  unfold Governor.lawful; decide +kernel

theorem test_relief_onset :
    let t := after (.pressureArrival .t2 (.raw 2868))
      (live.modSupervisor .t2 fun v => { v with history := [7399, 7990] })
    (t.governor .t2).trim = -200 ∧ (t.governor .t2).command = 0 ∧ (t.supervisor .t2).reliefLatch = .clear ∧
      (t.supervisor .t2).history = [7399, 7990, 8000] := by decide +kernel

theorem witness_ClearingExpiryRestores :
    (relieving false .clearing).powered = true ∧ ((relieving false .clearing).supervisor .t2).relief = .clearing ∧
      ((relieving false .clearing).supervisor .t2).clearingTimer = some ⟨7985000, 15000⟩ ∧
      15000 ≤ elapsed (relieving false .clearing).now 7985000 := by decide +kernel

/-- The gap is at its target, so the Positioner reaches IDLE at once and the episode ends. -/
theorem test_clearingExpiry :
    let t := after (.clearingExpiry .t2) (relieving false .clearing)
    (t.supervisor .t2).relief = .normal ∧ (t.supervisor .t2).reliefLatch = .clear ∧
      (t.governor .t2).holds.relief = false := by decide +kernel

/-- The cone in an overload episode. -/
def overloaded : State :=
  { (live.modSupervisor .t2 fun v => { v with overload := true }).modGovernor .t2 fun g => g.hold .overload with
    conditions := ⟨[entryOf .overload (.crusher .t2) false true], 0, none⟩ }

/-- The overload delay of the cone runs out. -/
def delayed : State := live.modSupervisor .t2 fun v => { v with overloadTimer := some ⟨7997000, 3000⟩ }

/-- Powers of 319 and 320 about OVERLOAD_LEVEL, and of 280 and 281 about RESUME_LEVEL. -/
theorem witness_OverloadEpisodesFollowThePower :
    (live.powered = true ∧ live.present .t2 = true ∧ live.isSubject .t2 = false ∧
      (live.supervisor .t2).tripCause = false ∧ (live.supervisor .t2).overload = false ∧
      (analogOf (.raw 3277) 400).scaled = 320 ∧ (analogOf (.raw 3276) 400).scaled = 319 ∧
      (live.crusher .t2).overloadLevel = 320 ∧ (live.crusher .t2).tripLevel = 380) ∧
      ((overloaded.supervisor .t2).overload = true ∧ (analogOf (.raw 2868) 400).scaled = 280 ∧
        (analogOf (.raw 2878) 400).scaled = 281 ∧ (live.crusher .t2).resumeLevel = 280) ∧
      (delayed.supervisor .t2).overloadTimer = some ⟨7997000, 3000⟩ ∧ 3000 ≤ elapsed delayed.now 7997000 := by
  decide +kernel

theorem test_overload :
    ((after (.powerArrival .t2 (.raw 3277)) live).supervisor .t2).overloadTimer = some ⟨8000000, 3000⟩ ∧
      ((after (.overloadDelayExpiry .t2) delayed).governor .t2).trim = -200 ∧
      (after (.powerArrival .t2 (.raw 2868)) overloaded).conditions.entries = [] := by decide +kernel

/-- The cone tripped by its power, the latch acknowledged. -/
def tripped : State :=
  { (live.modSupervisor .t2 fun v => { v with tripCause := true, powerLatch := .setAcknowledged }).modGovernor .t2
      fun g => g.hold .trip with
    conditions := listing.conditions }

theorem witness_PowerTripLatches :
    (live.present .t2 = true ∧ live.isSubject .t2 = false ∧ (live.supervisor .t2).tripCause = false ∧
      (live.crusher .t2).tripLevel ≤ (analogOf (.raw 3892) (live.crusher .t2).powerSpan).scaled ∧
      (live.crusher .t2).resumeLevel < (analogOf (.raw 3892) (live.crusher .t2).powerSpan).scaled ∧
      (live.governor .t2).lawful (live.feeder .t2).trimLimit) ∧
      ((tripped.supervisor .t2).tripCause = true ∧ (tripped.supervisor .t2).overload = false ∧
        (analogOf (.raw 2868) (tripped.crusher .t2).powerSpan).scaled ≤ (tripped.crusher .t2).resumeLevel ∧
        (tripped.supervisor .t2).powerLatch = .setAcknowledged ∧
        (tripped.supervisor .t2).reliefLatch = .clear) := by
  unfold Governor.lawful; decide +kernel

/-- A latch that is CLEAR, and one in SET_ACKNOWLEDGED, agree with the List. -/
theorem listed_clear {s : State} {u : Train} {w : TripLatch} (h : (s.supervisor u).latch w = .clear)
    (n : ∀ e ∈ s.conditions.entries, e.name ≠ (w.code, .crusher u)) : s.latchListed u w := by
  unfold State.latchListed
  rw [h]
  exact n

theorem listed_acknowledged {s : State} {u : Train} {w : TripLatch}
    (h : (s.supervisor u).latch w = .setAcknowledged) (c : (s.supervisor u).causeActive w = true)
    (n : ∃ e ∈ s.conditions.entries, e.name = (w.code, .crusher u) ∧ e.acknowledged = true ∧ e.active = true) :
    s.latchListed u w := by
  unfold State.latchListed
  rw [h]
  exact ⟨c, n⟩

/-- The step that ends the cause of the acknowledged trip. -/
theorem witness_TripLatchesStayListed :
    let c : Instr := .powerArrival .t2 (.raw 2868)
    (tripped.withPending [c]).conditions.lawful ∧ (tripped.withPending [c]).tripsListed ∧
      step (tripped.withPending [c]) = .next (after c tripped) ∧
      (tripped.supervisor .t2).powerLatch = .setAcknowledged := by
  refine ⟨by unfold ConditionList.lawful; decide +kernel, ⟨?_, ?_, ?_⟩, rfl, by decide +kernel⟩
  · intro e he _
    have h : e ∈ [entryOf .powerTrip (.crusher .t2) true true, entryOf .overload (.crusher .t1) false true] := he
    simp only [List.mem_cons, List.not_mem_nil, or_false] at h
    obtain rfl | rfl := h
    · exact ⟨.t2, rfl⟩
    · exact ⟨.t1, rfl⟩
  · intro u w
    cases u <;> cases w <;>
      first
        | exact listed_clear (by decide +kernel) (by decide +kernel)
        | exact listed_acknowledged (by decide +kernel) (by decide +kernel) (by decide +kernel)
  · intro u
    cases u <;> decide +kernel

theorem test_power_trip :
    (after (.powerArrival .t2 (.raw 3892)) live).conditions.entries.map (fun e => (e.code, e.detail)) =
        [(.powerTrip, some (.power 380))] ∧
      ((after (.powerArrival .t2 (.raw 2868)) tripped).governor .t2).holds.trip = false := by decide +kernel

theorem witness_SurgeLevelHoldsTheFeeders : live.powered = true ∧ live.line.surgeLow < live.line.surgeResume := by
  decide +kernel

/-- Levels of 899 and 900 about SURGE_HIGH, and of 150 and 151 about SURGE_LOW. -/
theorem test_surge :
    let held (raw : BitVec 12) (u : Train) := ((after (.surgeLevelArrival (.raw raw)) live).governor u).holds.level
    (held 3686 .t0, held 3687 .t0, held 615 .t1, held 619 .t1) = (false, true, true, false) := by decide +kernel

/-- Held from a level below SURGE_LOW, the secondaries are released as train 0 is held, at 900: SURGE_HIGH comes, and
SURGE_LOW goes. -/
theorem test_surge_conditions :
    let low := after (.surgeLevelArrival (.raw 400)) live
    let high := after (.surgeLevelArrival (.raw 3687)) low
    (low.conditions.entries.map Entry.code, high.conditions.entries.map Entry.code) = ([.surgeLow], [.surgeHigh]) := by
  decide +kernel

/-! ### Moves and jogs -/

/-- The cone with this measured gap and target, its Positioner changed, and the sample due. -/
def aimed (gap target : Nat) (f : Positioner → Positioner) : State :=
  ((live.modGap .t2 fun g => { g with gap := some gap }).modStation cone fun r =>
    { r with standing := Standing.start target }).modPositioner .t2 fun p =>
      f { p with sampleTimer := ⟨7999950, 50⟩ }

/-- The same under LOAD_ADJUST NO. -/
def draining (s : State) : State := s.withCrusher .t2 { CrusherParams.defaults false with loadAdjust := false }

/-- The same with DRAIN_TIME 0. -/
def drainless (s : State) : State :=
  s.withCrusher .t2 { CrusherParams.defaults false with loadAdjust := false, drainTime := 0 }

/-- Errors of 6 and 7 about the drift band; a drive that begins at once, and one that waits. -/
theorem witness_MovesStartByDriftAndDrain :
    (let s := aimed 301 307 id
     s.powered = true ∧ (s.positioner .t2).state = .idle ∧ 50 ≤ elapsed s.now 7999950 ∧
      (s.gap .t2).gap = some 301 ∧ (307 - 301 : Int).natAbs ≤ (s.crusher .t2).deadband) ∧
      (let s := aimed 301 308 id
       (s.crusher .t2).deadband < (308 - 301 : Int).natAbs ∧ (s.crusher .t2).loadAdjust = true ∧
        (s.positioner .t2).drive = none ∧ (s.positioner .t2).lastEnd.direction = some .opening) ∧
      (let s := aimed 308 301 fun p => { p with lastEnd := ⟨7999961, some .opening⟩ }
       (s.crusher .t2).deadTime = 40 ∧ elapsed s.now (s.positioner .t2).lastEnd.uptime = 39) ∧
      (((draining live).crusher .t2).loadAdjust = false ∧ ((draining live).crusher .t2).drainTime ≠ 0) ∧
      ((drainless live).crusher .t2).loadAdjust = false ∧ ((drainless live).crusher .t2).drainTime = 0 := by
  decide +kernel

/-- An error of 7 under LOAD_ADJUST YES drives at the least duty, 150; an error of −27 at 270; under NO it drains
for 20 s, but drives at once with DRAIN_TIME 0, GAP_MOVE held. -/
theorem test_sample_idle :
    ((after (.sampleExpiry .t2) (aimed 301 308 id)).positioner .t2).drive = some ⟨.opening, 150⟩ ∧
      ((after (.sampleExpiry .t2) (aimed 277 250 id)).positioner .t2).drive = some ⟨.closing, 270⟩ ∧
      ((after (.sampleExpiry .t2) (draining (aimed 277 250 id))).positioner .t2).drainTimer =
        some ⟨8000000, 20000⟩ ∧
      (let t := after (.sampleExpiry .t2) (drainless (aimed 277 250 id))
       (t.positioner .t2).drive = some ⟨.closing, 270⟩ ∧ (t.governor .t2).holds.gapMove = true) := by
  decide +kernel

/-- A Positioner in a move of 7,965.975 with this drive. -/
def moving (d : Option Drive) (p : Positioner) : Positioner :=
  { p with
    state := .driving
    drive := d
    move := some ⟨7965975, true⟩
    moveTimer := some ⟨7965975, 90000⟩ }

/-- A Positioner waiting for the dead time of an OPEN drive until 7,999.990 or later. -/
def waiting (p : Positioner) : Positioner :=
  { moving none p with
    state := .deadTime
    lastEnd := ⟨7999960, some .closing⟩
    pendingDrive := some ⟨.opening, 440, ⟨7999960, 40⟩⟩ }

/-- The settle band is 3: errors of 4 and −4. -/
theorem witness_SampleSteersTheMove :
    (let s := aimed 300 304 (moving (some ⟨.opening, 300⟩))
     s.powered = true ∧ 50 ≤ elapsed s.now 7999950 ∧ (s.positioner .t2).state = .driving ∧
      (s.positioner .t2).drive = some ⟨.opening, 300⟩ ∧ (s.crusher .t2).deadband / 2 < (304 - 300 : Int).natAbs) ∧
      (let s := aimed 304 300 (moving (some ⟨.opening, 300⟩))
       (s.crusher .t2).deadband / 2 < (300 - 304 : Int).natAbs ∧ ¬(0 < (300 - 304 : Int)) ∧
        0 < (s.crusher .t2).deadTime) ∧
      (let s := aimed 300 304 waiting
       (s.positioner .t2).state = .deadTime ∧
        (s.positioner .t2).pendingDrive = some ⟨.opening, 440, ⟨7999960, 40⟩⟩) ∧
      ((aimed 304 300 waiting).positioner .t2).drive = none ∧
      (let s := aimed 304 300 fun p => { waiting p with lastEnd := ⟨7999960, some .closing⟩ }
       (s.positioner .t2).lastEnd.direction = some .closing) ∧
      (let s := aimed 304 300 fun p => { waiting p with lastEnd := ⟨7999961, none⟩ }
       (s.positioner .t2).lastEnd.direction ≠ some .closing ∧
        elapsed s.now (s.positioner .t2).lastEnd.uptime < (s.crusher .t2).deadTime) ∧
      (service.positioner .t2).state = .suspended ∧ (service.gap .t2).gap = some 301 := by decide +kernel

/-- A pending OPEN drive whose error reverses to −4: the CLOSE drive begins at once, at 150, after a CLOSE end; and
waits out the 40 ms since an end of no direction. -/
theorem test_sample_reverses_in_dead_time :
    let t (e : DriveEnd) := after (.sampleExpiry .t2) (aimed 304 300 fun p => { waiting p with lastEnd := e })
    ((t ⟨7999999, some .closing⟩).positioner .t2).drive = some ⟨.closing, 150⟩ ∧
      ((t ⟨7999961, none⟩).positioner .t2).pendingDrive = some ⟨.closing, 150, ⟨7999961, 40⟩⟩ := by decide +kernel


/-- The worked move's duties: an error of 46 at 460, and a reversal to −33 pending at 330. -/
theorem test_sample_steers :
    ((after (.sampleExpiry .t2) (aimed 304 350 (moving (some ⟨.opening, 300⟩)))).positioner .t2).drive =
        some ⟨.opening, 460⟩ ∧
      ((after (.sampleExpiry .t2) (aimed 333 300 (moving (some ⟨.opening, 300⟩)))).positioner .t2).pendingDrive =
        some ⟨.closing, 330, ⟨8000000, 40⟩⟩ := by decide +kernel

/-- The move of a relief episode in RESTORING. -/
def restoring : State :=
  { ((aimed 297 300 (moving (some ⟨.closing, 150⟩))).modSupervisor .t2 fun v =>
      { v with relief := .restoring }).modGovernor .t2 fun g => g.hold .relief with
    conditions := ⟨[entryOf .relief (.crusher .t2) false true], 0, none⟩ }

theorem witness_MoveEndsWithinTheSettleBand :
    (let s := aimed 297 300 (moving (some ⟨.closing, 150⟩))
     s.powered = true ∧ 50 ≤ elapsed s.now 7999950 ∧ (s.positioner .t2).state = .driving ∧
      (∀ g ∈ (s.gap .t2).gap,
        (((s.station cone).standing.target : Int) - g).natAbs ≤ (s.crusher .t2).deadband / 2) ∧
      (s.positioner .t2).move = some ⟨7965975, true⟩ ∧ (s.supervisor .t2).relief ≠ .restoring) ∧
      ((restoring.supervisor .t2).relief = .restoring ∧ (restoring.positioner .t2).state = .driving ∧
        (restoring.station cone).lastAccepting = true ∧ restoring.board.waitingFor cone = 0 ∧
        ∀ g ∈ (restoring.gap .t2).gap,
          (((restoring.station cone).standing.target : Int) - g).natAbs ≤ (restoring.crusher .t2).deadband / 2) := by
  decide +kernel

/-- The worked move's length: from 7,965.975 to 8,000.000. -/
theorem test_move_ends :
    ((after (.sampleExpiry .t2) (aimed 297 300 (moving (some ⟨.closing, 150⟩)))).positioner .t2).lastDuration =
        some 34025 ∧
      ((after (.sampleExpiry .t2) restoring).supervisor .t2).relief = .normal ∧
      (after (.sampleExpiry .t2) restoring).conditions.entries = [] := by decide +kernel

/-- A drain that ends at 8,000.000, with this last drive end. -/
def drained (gap target : Nat) (lastEnd : DriveEnd) : State :=
  draining ((aimed gap target fun p =>
    { p with
      state := .draining
      drainTimer := some ⟨7980000, 20000⟩
      move := some ⟨7980000, false⟩
      lastEnd := lastEnd }).modGovernor .t2 fun g => g.hold .gapMove)

theorem witness_MovesStartByDriftAndDrain_drain :
    (let s := drained 300 304 ⟨7999960, some .closing⟩
     s.powered = true ∧ (s.positioner .t2).state = .draining ∧
      (s.positioner .t2).drainTimer = some ⟨7980000, 20000⟩ ∧ 20000 ≤ elapsed s.now 7980000 ∧
      (s.positioner .t2).drive = none ∧ (s.positioner .t2).move = some ⟨7980000, false⟩ ∧
      (s.gap .t2).gap = some 300 ∧ (s.crusher .t2).deadTime ≤ elapsed s.now (s.positioner .t2).lastEnd.uptime) ∧
      (let s := drained 300 304 ⟨7999961, some .closing⟩
       (s.positioner .t2).lastEnd.direction ≠ some .opening ∧
        elapsed s.now (s.positioner .t2).lastEnd.uptime < (s.crusher .t2).deadTime) ∧
      (let s := drained 300 303 ⟨7999961, some .closing⟩
       (303 - 300 : Int).natAbs ≤ (s.crusher .t2).deadband / 2 ∧ (s.supervisor .t2).relief ≠ .restoring) := by
  decide +kernel

/-- The worked move's drain expiry, with an error of −150: CLOSE at the largest duty, 700. -/
theorem test_drainExpiry :
    let t := after (.drainExpiry .t2) (drained 300 150 ⟨7000000, some .opening⟩)
    (t.positioner .t2).drive = some ⟨.closing, 700⟩ ∧
      (t.positioner .t2).moveTimer = some ⟨8000000, 90000⟩ := by decide +kernel

/-- A Positioner in JOGGING with so many ms left. -/
def jogging (remaining : Nat) (p : Positioner) : Positioner :=
  { p with
    state := .jogging
    reasons := { p.reasons with mode := true }
    drive := some ⟨.opening, 100⟩
    jog := some ⟨.opening, 100, remaining⟩ }

/-- The cone with this Positioner, its measured gap 301 and its target 301 or this, SET GAP taking it to 308: IDLE, in
both directions of a move, and waiting for a dead time. -/
theorem witness_MovesAreRetargetedAndResumed :
    (live.takesOn .op ∧ (5#8).toNat = (crusherOf .t2).number ∧ live.accepting cone = true ∧
      (live.station cone).lastAccepting = true ∧ (live.crusher .t2).authority.has .op = true ∧
      (live.station cone).standing.keep ≠ some 0 ∧ live.board.counter < 4294967295 ∧
      (live.station cone).standing.priority < 1 ∧ min (max (308#16).toNat 100) 450 = 308 ∧
      (live.crusher .t2).gapMin = 100 ∧ (live.crusher .t2).gapMax = 450 ∧
      308 ≠ (live.station cone).standing.target ∧ (live.gap .t2).gap = some 301 ∧
      (live.crusher .t2).deadband / 2 < (308 - 301 : Int).natAbs) ∧
      ((live.positioner .t2).state = .idle ∧ (live.positioner .t2).drive = none) ∧
      (let s (d : Direction) := aimed 301 320 (moving (some ⟨d, 190⟩))
       ((s .opening).positioner .t2).state = .driving ∧
        ((s .opening).positioner .t2).drive = some ⟨.opening, 190⟩ ∧
        ((s .closing).positioner .t2).drive = some ⟨.closing, 190⟩ ∧ 0 < ((s .closing).crusher .t2).deadTime ∧
        ((s .opening).positioner .t2).move = some ⟨7965975, true⟩ ∧
        (303 - 301 : Int).natAbs ≤ ((s .opening).crusher .t2).deadband / 2) ∧
      (let s := aimed 301 320 waiting
       (s.positioner .t2).state = .deadTime ∧ (s.positioner .t2).drive = none ∧
        (s.positioner .t2).pendingDrive = some ⟨.opening, 440, ⟨7999960, 40⟩⟩ ∧ ¬0 < (294 - 301 : Int)) ∧
      (let s := aimed 301 320 fun p => { waiting p with lastEnd := ⟨7999961, none⟩ }
       (s.positioner .t2).lastEnd.direction ≠ some .closing ∧
        elapsed s.now (s.positioner .t2).lastEnd.uptime < (s.crusher .t2).deadTime) := by
  unfold State.takesOn State.listening; decide +kernel

/-- A move of 7,965.975 given 308 by OP keeps its start and takes the duty of 7 and the full limit; given 303 it ends;
a target of 294 reverses it. -/
theorem test_retarget :
    let t (v : Half) := (after (.setGap .op 1 5 v 1 0 0) (aimed 301 320 (moving (some ⟨.opening, 190⟩)))).positioner .t2
    (t 308).drive = some ⟨.opening, 150⟩ ∧ (t 308).move = some ⟨7965975, true⟩ ∧
      (t 308).moveTimer = some ⟨8000000, 90000⟩ ∧ (t 303).state = .idle ∧
      (t 294).pendingDrive = some ⟨.closing, 150, ⟨8000000, 40⟩⟩ := by decide +kernel

/-- The cone suspended for one reason, or in FAULT for it, 20 from its target, and the command that takes it away:
train 2's gap 301, its target 321. -/
def heldFor (state : PositionerState) (r : Reasons) : State :=
  (aimed 301 321 fun p => { p with state := state, reasons := r, move := some ⟨7965975, true⟩ })

/-- ESTOP, POSITION, RELIEF and MODE alone, and a FAULT with no reason and with one. -/
theorem witness_MovesAreRetargetedAndResumed_resumed :
    (let s := (heldFor .suspended ⟨false, false, true, false, false⟩).withInputs
      { live.inputs with estop := changing true }
     s.powered = true ∧ (s.positioner .t2).drive = none ∧ s.board.waitingFor cone = 0 ∧
      s.inputs.estop.due = true ∧ s.inputs.estop.raw = true ∧ (s.positioner .t2).state = .suspended ∧
      ∀ x, (s.positioner .t2).reasons.has x = true ↔ x = .estop) ∧
      (let s := (heldFor .suspended ⟨false, false, false, true, false⟩).modGap .t2 fun g =>
        { g with validity := .recovering, recovery := some ⟨⟨7999000, 1000⟩, some 301⟩ }
       (s.gap .t2).validity = .recovering ∧ (s.gap .t2).recovery = some ⟨⟨7999000, 1000⟩, some 301⟩ ∧
        1000 ≤ elapsed s.now 7999000 ∧ (s.gap .t2).firstReadingDue = false ∧
        ∀ x, (s.positioner .t2).reasons.has x = true ↔ x = .position) ∧
      (let s := (heldFor .suspended ⟨false, true, false, false, false⟩).modSupervisor .t2 fun v =>
        { v with relief := .clearing, clearingTimer := some ⟨7985000, 15000⟩ }
       (s.supervisor .t2).relief = .clearing ∧ (s.supervisor .t2).clearingTimer = some ⟨7985000, 15000⟩ ∧
        15000 ≤ elapsed s.now 7985000 ∧ ∀ x, (s.positioner .t2).reasons.has x = true ↔ x = .relief) ∧
      (let s := (heldFor .suspended ⟨true, false, false, false, false⟩).modStation cone fun r =>
        { r with mode := .maintenance }
       s.takesOn .op ∧ Link.op ≠ .lc ∧ (5#8).toNat = (crusherOf .t2).number ∧ s.present .t2 = true ∧
        s.isSubject .t2 = false ∧ (s.station cone).mode = .maintenance ∧
        ∀ x, (s.positioner .t2).reasons.has x = true ↔ x = .mode) ∧
      ((heldFor .fault ⟨false, false, false, false, false⟩).positioner .t2).state = .fault ∧
      ((heldFor .fault ⟨false, false, false, false, false⟩).positioner .t2).reasons.isEmpty = true ∧
      ((heldFor .fault ⟨true, false, false, false, false⟩).positioner .t2).reasons.isEmpty = false ∧
      (let s := mov fun p => { jogging 0 p with reasons := ⟨false, false, false, false, false⟩ }
       (s.positioner .t2).state = .jogging ∧ (s.positioner .t2).jog = some ⟨.opening, 100, 0⟩ ∧
        (s.positioner .t2).reasons.isEmpty = true) := by
  unfold State.takesOn State.listening
  refine ⟨?_, ?_, ?_, ?_, by decide +kernel, by decide +kernel, by decide +kernel, by decide +kernel⟩
  · exact ⟨rfl, rfl, by decide +kernel, rfl, rfl, rfl, fun x => by cases x <;> decide +kernel⟩
  · exact ⟨rfl, rfl, by decide +kernel, rfl, fun x => by cases x <;> decide +kernel⟩
  · exact ⟨rfl, rfl, by decide +kernel, fun x => by cases x <;> decide +kernel⟩
  · exact ⟨by decide +kernel, by decide, by decide, by decide +kernel, by decide +kernel, by decide +kernel,
      fun x => by cases x <;> decide +kernel⟩

/-- The cone jogs under MODE alone, in MAINTENANCE, 20 below its target. -/
def jogged : State :=
  (aimed 301 321 (jogging 500)).modStation cone fun r => { r with mode := .maintenance, lastAccepting := false }

theorem witness_MovesAreRetargetedAndResumed_jog :
    jogged.takesOn .op ∧ Link.op ≠ .lc ∧ (5#8).toNat = (crusherOf .t2).number ∧ jogged.present .t2 = true ∧
      jogged.isSubject .t2 = false ∧ jogged.board.waitingFor cone = 0 ∧
      (jogged.station cone).mode = .maintenance ∧ (jogged.positioner .t2).state = .jogging ∧
      (∀ x, (jogged.positioner .t2).reasons.has x = true ↔ x = .mode) ∧
      (jogged.positioner .t2).drive = some ⟨.opening, 100⟩ := by
  refine ⟨?_, by decide, by decide, by decide +kernel, by decide +kernel, by decide +kernel, by decide +kernel,
    by decide +kernel, fun x => by cases x <;> decide +kernel, by decide +kernel⟩
  unfold State.takesOn State.listening; decide +kernel

/-- A jog ended by a change to RUN hands over to a move from the jog's own drive end: an OPEN one begins at once. -/
theorem test_jog_ended_by_run :
    let t := (after (.setMode .op 1 5 0) jogged).positioner .t2
    t.state = .driving ∧ t.drive = some ⟨.opening, 200⟩ ∧ t.jog = none ∧
      t.lastEnd = ⟨8000000, some .opening⟩ ∧ t.reasons.isEmpty = true := by decide +kernel

/-- A FAULT acknowledged with no reason held starts a fresh move of an error of 20, at 200, and is SUSPENDED under
MODE with its move kept. -/
theorem test_fault_acknowledged :
    let t (r : Reasons) := (after (.acknowledge .op 1 10 5) (heldFor .fault r)).positioner .t2
    (t ⟨false, false, false, false, false⟩).move = some ⟨8000000, true⟩ ∧
      (t ⟨false, false, false, false, false⟩).drive = some ⟨.opening, 200⟩ ∧
      (t ⟨true, false, false, false, false⟩).state = .suspended ∧
      (t ⟨true, false, false, false, false⟩).move = some ⟨7965975, true⟩ := by decide +kernel

/-- A pending OPEN drive in this state, its dead time run but for so many ms. -/
def pendingIn (state : PositionerState) (left : Nat) : State :=
  mov fun p =>
    { p with
      state := state
      lastEnd := ⟨7999960 + left, some .closing⟩
      pendingDrive := some ⟨.opening, 440, ⟨7999960 + left, 40⟩⟩
      move := some ⟨7965975, true⟩ }

/-- A Positioner with no drive, on or pending, keeps the drives' law out of DRIVING and DEAD_TIME. -/
theorem lawful_off {p : Positioner} (h : p.drive = none) (w : p.pendingDrive = none) (d : p.state ≠ .driving)
    (t : p.state ≠ .deadTime) : p.driveLawful :=
  ⟨by simp [h], by simp [w], fun e => absurd e d, fun e => absurd e t⟩

/-- A step that begins a drive at the end of its dead time. -/
theorem witness_DriveLawKept :
    let s := (pendingIn .deadTime 0).withPending [.deadTimeExpiry .t2]
    let t := after (.deadTimeExpiry .t2) (pendingIn .deadTime 0)
    s.touchLawful ∧ s.drivesLawful ∧ step s = .next t ∧ (t.positioner .t2).drive = some ⟨.opening, 440⟩ := by
  refine ⟨⟨by decide +kernel, ?_, ?_⟩, ?_, rfl, by decide +kernel⟩
  · intro u
    cases u <;> decide +kernel
  · intro u
    cases u <;> decide +kernel
  · intro u
    cases u with
    | t2 =>
      have h : ((pendingIn .deadTime 0).positioner .t2).pendingDrive = some ⟨.opening, 440, ⟨7999960, 40⟩⟩ := rfl
      refine ⟨fun d e => (nomatch e), fun d e => ?_, by decide +kernel, by decide +kernel⟩
      cases h.symm.trans e
      decide +kernel
    | t0 | t1 | t3 =>
      exact lawful_off (by decide +kernel) (by decide +kernel) (by decide +kernel) (by decide +kernel)

theorem witness_DriveTimersExpire :
    (elapsed (pendingIn .deadTime 1).now 7999961 < 40 ∧ 40 ≤ elapsed (pendingIn .deadTime 0).now 7999960 ∧
      ((pendingIn .deadTime 0).positioner .t2).state = .deadTime ∧
      ((pendingIn .jogging 0).positioner .t2).state = .jogging ∧
      ((pendingIn .lent 0).positioner .t2).state = .lent ∧
      ((pendingIn .lent 0).positioner .t2).pendingDrive = some ⟨.opening, 440, ⟨7999960, 40⟩⟩) ∧
      (let s := mov fun p => { moving (some ⟨.closing, 700⟩) p with moveTimer := some ⟨7910000, 90000⟩ }
       (s.positioner .t2).state = .driving ∧ (s.positioner .t2).moveTimer = some ⟨7910000, 90000⟩ ∧
        90000 ≤ elapsed s.now 7910000) ∧
      (((mov (jogging 1)).positioner .t2).jog = some ⟨.opening, 100, 1⟩ ∧
        ((mov (jogging 0)).positioner .t2).jog = some ⟨.opening, 100, 0⟩ ∧
        ((mov (jogging 0)).positioner .t2).reasons.isEmpty = false) := by decide +kernel

theorem test_drive_timers :
    ((after (.deadTimeExpiry .t2) (pendingIn .deadTime 0)).positioner .t2).drive = some ⟨.opening, 440⟩ ∧
      ((after (.jogTimeEnd .t2) (mov (jogging 0))).positioner .t2).lastEnd = ⟨8000000, some .opening⟩ := by
  decide +kernel

theorem test_moveTimerExpiry :
    let t := after (.moveTimerExpiry .t2)
      (mov fun p => { moving (some ⟨.closing, 700⟩) p with moveTimer := some ⟨7910000, 90000⟩ })
    (t.positioner .t2).state = .fault ∧ t.accepting cone = false ∧
      t.conditions.entries.map (fun e => (e.code, e.active)) = [(.moveTimeout, false)] := by decide +kernel

/-- The cone in MAINTENANCE with this measured gap and its Positioner changed. -/
def serviced (gap : Nat) (f : Positioner → Positioner) : State :=
  (service.modGap .t2 fun g => { g with gap := some gap }).modPositioner .t2 f

/-- A gap of 101 and of 100 about GAP_MIN; the drive off, of the same and of the other direction; the dead time
run and one ms short. -/
theorem witness_JogDrivesTheValve :
    (service.takesOn .sv ∧ jogFieldsOk 1 1 = true ∧ jogFieldsOk 2 10000 = true ∧ service.present .t2 = true ∧
      service.isSubject .t2 = false ∧ (service.station cone).mode = .maintenance ∧
      (service.positioner .t2).state ≠ .fault ∧ (service.positioner .t2).reasons.estop = false ∧
      (service.positioner .t2).reasons.relief = false ∧ (service.positioner .t2).reasons.isEmpty = false) ∧
      (((serviced 101 id).gap .t2).gap = some 101 ∧ ((serviced 100 id).gap .t2).gap = some 100 ∧
        ((serviced 101 id).crusher .t2).gapMin = 100) ∧
      ((serviced 101 (jogging 9)).positioner .t2).drive = some ⟨.opening, 100⟩ ∧
      ((serviced 101 id).positioner .t2).drive = none ∧
      (let s := serviced 101 fun p => { p with lastEnd := ⟨7999960, some .opening⟩ }
       (s.crusher .t2).deadTime ≤ elapsed s.now (s.positioner .t2).lastEnd.uptime) ∧
      (let s := serviced 101 fun p => { p with lastEnd := ⟨7999961, some .opening⟩ }
       (s.positioner .t2).lastEnd.direction ≠ some .closing ∧
        elapsed s.now (s.positioner .t2).lastEnd.uptime < (s.crusher .t2).deadTime) := by
  unfold State.takesOn State.listening; decide +kernel

/-- A CLOSE jog at an arrival whose measured gap, with W 1,450, is 101 or 100, and with no valid zero. -/
theorem witness_JogDrivesTheValve_arrival :
    let s := serviced 200 fun p => { jogging 9 p with jog := some ⟨.closing, 100, 9⟩ }
    s.present .t2 = true ∧ (s.gap .t2).validity = .valid ∧ (s.crusher .t2).posLow ≤ (21613#16).toNat ∧
      (21613#16).toNat ≤ (s.crusher .t2).posHigh ∧ s.isSubject .t2 = false ∧
      (s.positioner .t2).state = .jogging ∧ (s.positioner .t2).jog = some ⟨.closing, 100, 9⟩ ∧
      (s.zero .t2).valid = true ∧ (s.crusher .t2).gapMin = 100 ∧
      measuredGap 21613 (s.zero .t2).z (s.crusher .t2).gain (s.gap .t2).wear = 101 ∧
      measuredGap 21611 (s.zero .t2).z (s.crusher .t2).gain (s.gap .t2).wear = 100 ∧
      (s.positioner .t2).reasons.isEmpty = false := by decide +kernel

/-- The jog ends at GAP_MIN and goes on above it. -/
theorem test_jog_ends_at_gap_min :
    let t (r : BitVec 16) := ((after (.positionArrival .t2 (some r))
      (serviced 200 fun p => { jogging 9 p with jog := some ⟨.closing, 100, 9⟩ })).positioner .t2)
    ((t 21611).state, (t 21611).drive, (t 21613).state) = (.suspended, none, .jogging) := by decide +kernel

/-- A CLOSE jog asked at 800 is taken at DUTY_MAX 700, the reply CLAMPED with 02BCh. -/
theorem test_jog :
    let t := after (.jog .sv 9 5 2 800 250) (serviced 101 id)
    (t.positioner .t2).jog = some ⟨.closing, 700, 250⟩ ∧ replied t .sv = [0, 1, 0x02, 0xBC] := by decide +kernel

/-! ### Zero touch, wear and the feed update -/

/-- The cone of the worked touch: in MAINTENANCE, empty at 22 kW. -/
def emptied : State :=
  service.withInputs
    { live.inputs with
      power := live.inputs.power.set .t2 (some ⟨226, 22⟩)
      position := live.inputs.position.set .t2 (some 21363) }

theorem witness_StartZeroStartsTheTouch :
    emptied.takesOn .sv ∧ emptied.present .t2 = true ∧ emptied.sequencer.state = .idle ∧
      (emptied.station cone).mode = .maintenance ∧ (emptied.positioner .t2).state = .suspended ∧
      (emptied.positioner .t2).drive = none ∧ emptied.estopAsserted = false ∧
      (emptied.supervisor .t2).relief = .normal ∧ (emptied.gap .t2).validity = .valid ∧
      (emptied.inputs.running.get .t2).level = some true ∧ emptied.inputs.power.get .t2 = some ⟨226, 22⟩ ∧
      22 ≤ (emptied.crusher .t2).emptyPower ∧
      (emptied.crusher .t2).deadTime ≤ elapsed emptied.now (emptied.positioner .t2).lastEnd.uptime ∧
      (let s := emptied.modPositioner .t2 fun p => { p with lastEnd := ⟨7999961, some .opening⟩ }
       (s.positioner .t2).lastEnd.direction ≠ some .closing ∧
        elapsed s.now (s.positioner .t2).lastEnd.uptime < (s.crusher .t2).deadTime) := by
  unfold State.takesOn State.listening; decide +kernel

/-- A jog that runs when the touch is asked for: its OPEN drive ends now. -/
theorem witness_StartZeroStartsTheTouch_jogging :
    let s := emptied.modPositioner .t2 (jogging 9)
    (s.positioner .t2).state = .jogging ∧ (s.positioner .t2).drive = some ⟨.opening, 100⟩ ∧
      elapsed s.now s.now < (s.crusher .t2).deadTime := by decide +kernel

theorem test_startZero_from_a_jog :
    let t := after (.startZero .sv 1 5) (emptied.modPositioner .t2 (jogging 9))
    (t.positioner .t2).jog = none ∧ (t.positioner .t2).lastEnd = ⟨8000000, some .opening⟩ ∧
      (t.positioner .t2).pendingDrive = some ⟨.closing, 120, ⟨8000000, 40⟩⟩ ∧ t.sequencer.armed = false := by
  decide +kernel

/-- The worked touch's start: a limit of 180 s, CLOSE at 120 at once, contact armed. -/
theorem test_startZero :
    let t := after (.startZero .sv 1 5) emptied
    t.sequencer = ⟨.approach, some .t2, true, none, some ⟨8000000, 180000⟩, none, none, some 8000000⟩ ∧
      (t.positioner .t2).drive = some ⟨.closing, 120⟩ ∧ (t.governor .t2).holds.calibration = true := by
  decide +kernel

/-- The worked touch in this state, begun 72.118 s before 8,000.000, its zero contact 21,363. -/
def touching (state : SequencerState) (drive : Option Drive) : State :=
  (emptied.modSequencer fun _ =>
      ⟨state, some .t2, true, if state = .dwell then some ⟨7999800, 200⟩ else none, some ⟨7927882, 180000⟩,
        if state = .backoff then some 21363 else none, if state = .backoff then some 21729 else none,
        some 7927882⟩).modPositioner .t2 fun p => { p with state := .lent, drive := drive }

/-- The same with CALIBRATION held: the law of a touch that runs. -/
def touchHeld : State :=
  (touching .approach (some ⟨.closing, 120⟩)).modGovernor .t2 fun g => g.hold .calibration

theorem witness_TouchLawKept :
    (touchHeld.withPending [.abortZero .sv 1 5]).touchLawful ∧
      step (touchHeld.withPending [.abortZero .sv 1 5]) = .next (after (.abortZero .sv 1 5) touchHeld) := by
  refine ⟨⟨by decide +kernel, ?_, ?_⟩, rfl⟩
  · intro u
    cases u <;> decide +kernel
  · intro u
    cases u <;> decide +kernel

/-- Pressures of 899 and 900 about CONTACT_LEVEL, armed and not, in APPROACH and DWELL; then the dwell's end. -/
theorem witness_TouchFindsItsContact :
    (let s := touching .approach (some ⟨.closing, 120⟩)
     s.powered = true ∧ s.present .t2 = true ∧ (s.crusher .t2).reliefSource = .analog ∧
      (s.supervisor .t2).detectorActive = false ∧ s.sequencer.subject = some .t2 ∧
      (analogOf (.raw 922) 4000).scaled = 900 ∧ (analogOf (.raw 921) 4000).scaled = 899 ∧
      (s.crusher .t2).contactLevel = 900 ∧ s.sequencer.state = .approach ∧ s.sequencer.armed = true ∧
      ((s.modSequencer fun q => { q with armed := false }).sequencer.armed) = false) ∧
      (let s := touching .dwell (some ⟨.closing, 120⟩)
       s.sequencer.state = .dwell ∧ s.sequencer.dwellTimer = some ⟨7999800, 200⟩ ∧
        200 ≤ elapsed s.now 7999800 ∧ s.inputs.position.get .t2 = some 21363 ∧
        (s.positioner .t2).drive = some ⟨.closing, 120⟩ ∧ 0 < (s.crusher .t2).deadTime ∧
        0 < (s.crusher .t2).gain) := by decide +kernel

/-- The worked touch's dwell expiry: contact 21,363 and target 21,729. -/
theorem test_dwellExpiry :
    let t := after .dwellExpiry (touching .dwell (some ⟨.closing, 120⟩))
    (t.sequencer.contact, t.sequencer.target) = (some 21363, some 21729) ∧
      (t.positioner .t2).pendingDrive = some ⟨.opening, 120, ⟨8000000, 40⟩⟩ := by decide +kernel

/-- A reading at the target; a shift of 37 is within ZERO_SHIFT_MAX, one of 900 beyond it. -/
theorem witness_TouchCommitsAtTheBackoffTarget :
    let s := touching .backoff (some ⟨.opening, 120⟩)
    s.powered = true ∧ s.present .t2 = true ∧ s.sequencer.subject = some .t2 ∧ s.sequencer.state = .backoff ∧
      s.sequencer.contact = some 21363 ∧ s.sequencer.target = some 21729 ∧ 21729 ≤ (21729#16).toNat ∧
      (s.gap .t2).validity = .valid ∧ (s.crusher .t2).posLow ≤ (21729#16).toNat ∧
      (21729#16).toNat ≤ (s.crusher .t2).posHigh ∧ (s.positioner .t2).state = .lent ∧
      (s.station cone).mode = .maintenance ∧ (s.zero .t2).valid = true ∧
      ¬(s.crusher .t2).zeroShiftMax < 21400 - 21363 ∧ (s.crusher .t2).zeroShiftMax < 21400 - 20500 ∧
      s.sequencer.start = some 7927882 ∧ (s.positioner .t2).drive = some ⟨.opening, 120⟩ := by
  decide +kernel

/-- The worked touch's outcome, and the one it would have had at 20,500. -/
theorem test_commit :
    let s := touching .backoff (some ⟨.opening, 120⟩)
    let t := after (.positionArrival .t2 (some 21730)) s
    let r := after (.positionArrival .t2 (some 21730)) (s.modSequencer fun q => { q with contact := some 20500 })
    (t.zero .t2).outcome =
        some ⟨.accepted, some 21400, some 21363, some 15, 1450, 72118, ⟨905114200, true⟩⟩ ∧
      t.store.writing = some (.zero ((live.zeros.map fun z => ⟨z.z, z.valid, z.outcome⟩).set .t2
        ⟨21363, true, (t.zero .t2).outcome⟩)) ∧ t.store.dirty = ⟨false, false, true⟩ ∧
      (r.zero .t2).outcome.map (fun o => (o.result, o.wearFound)) = some (.rejectedShift, some 369) ∧
      (r.zero .t2).z = 21400 ∧ (r.gap .t2).wear = 1450 := by decide +kernel

/-- An accepted touch ends ZERO_UNSET and WEAR_LIMIT; a rejected one leaves its entry with the cause inactive. -/
theorem test_commit_reports :
    let s := { touching .backoff (some ⟨.opening, 120⟩) with
      conditions := ⟨[entryOf .zeroUnset (.crusher .t2) false true, entryOf .wearLimit (.crusher .t2) false true],
        0, none⟩ }
    let s := (s.modZero .t2 fun z => { z with valid := false }).withCrusher .t2
      { CrusherParams.defaults false with wearLimit := 14 }
    let r := (touching .backoff none).modSequencer fun q => { q with contact := some 20500 }
    (after (.positionArrival .t2 (some 21730)) s).conditions.entries = [] ∧
      (after (.positionArrival .t2 (some 21730)) r).conditions.entries =
        [⟨.zeroRejected, .crusher .t2, ⟨905114200, true⟩, 1, false, false, none⟩] := by decide +kernel

theorem witness_EventsAbortTheTouch :
    (let s := touching .approach (some ⟨.closing, 120⟩)
     s.takesOn .sv ∧ s.present .t2 = true ∧ s.sequencer.subject = some .t2 ∧ s.sequencer.state ≠ .idle ∧
      (s.positioner .t2).state = .lent ∧ (s.gap .t2).validity = .valid ∧ (s.gap .t2).firstReadingDue = false ∧
      (s.crusher .t2).reliefSource = .analog ∧ (s.supervisor .t2).detectorActive = false ∧
      (s.crusher .t2).reliefLevel ≤ (analogOf (.raw 2868) (s.crusher .t2).pressureSpan).scaled ∧
      (s.crusher .t2).emptyPower < (analogOf (.raw 318) (s.crusher .t2).powerSpan).scaled ∧
      (s.supervisor .t2).overload = false ∧ (s.supervisor .t2).tripCause = false ∧
      (analogOf (.raw 318) (s.crusher .t2).powerSpan).scaled < (s.crusher .t2).tripLevel) ∧
      (let s := (touching .backoff none).modSequencer fun q => { q with limitTimer := some ⟨7820000, 180000⟩ }
       s.sequencer.limitTimer = some ⟨7820000, 180000⟩ ∧ 180000 ≤ elapsed s.now 7820000) ∧
      (let s := (touching .dwell none).withInputs
        { live.inputs with running := live.inputs.running.set .t2 (changing false) }
       (s.inputs.running.get .t2).due = true ∧ (s.inputs.running.get .t2).raw = false) := by
  unfold State.takesOn State.listening; decide +kernel

theorem test_aborts :
    let s := touching .approach (some ⟨.closing, 120⟩)
    let result (c : Instr) := ((after c s).zero .t2).outcome.map TouchOutcome.result
    (result (.abortZero .sv 1 5), result (.powerArrival .t2 (.raw 318)), result (.positionArrival .t2 none),
      result (.pressureArrival .t2 (.raw 2868))) =
      (some .abortedRequest, some .abortedLoaded, some .abortedPosition, some .abortedRelief) := by decide +kernel

/-- A reading above POS_HIGH that also reaches the backoff target, a premise of the lost position and its outcome
(log 24). -/
theorem witness_EventsAbortTheTouch_outside :
    let s := touching .backoff (some ⟨.opening, 120⟩)
    (s.crusher .t2).posHigh < (64001#16).toNat ∧ s.sequencer.target = some 21729 ∧ 21729 ≤ (64001#16).toNat ∧
      s.sequencer.state ≠ .idle ∧ (s.positioner .t2).state = .lent ∧ (s.gap .t2).validity = .valid ∧
      ((after (.positionArrival .t2 (some 64001)) s).zero .t2).outcome.map TouchOutcome.result =
        some .abortedPosition := by decide +kernel

/-- The entries of a touch aborted by load, and by a relief onset, which is listed after it. -/
theorem test_abort_reports :
    let s := touching .approach (some ⟨.closing, 120⟩)
    (after (.powerArrival .t2 (.raw 318)) s).conditions.entries =
        [⟨.zeroAborted, .crusher .t2, ⟨905114200, true⟩, 1, false, false, some (.result .abortedLoaded)⟩] ∧
      (after (.pressureArrival .t2 (.raw 2868)) s).conditions.entries.map (fun e => (e.code, e.active)) =
        [(.zeroAborted, false), (.relief, true)] := by decide +kernel

theorem test_timeLimitExpiry :
    ((after .timeLimitExpiry ((touching .backoff none).modSequencer fun q =>
      { q with limitTimer := some ⟨7820000, 180000⟩ })).zero .t2).outcome.map TouchOutcome.result =
      some .abortedTimeout := by decide +kernel

/-- The worked wear step of station 3. -/
def wearing : State :=
  live.modGap .t1 fun g => { g with loadedTime := 360000, wear := 11996, wearSteps := 9 }

theorem witness_WearStepAddsWear :
    wearing.powered = true ∧ 360000 ≤ (wearing.gap .t1).loadedTime ∧ 9 ≤ (wearing.gap .t1).wearSteps ∧
      (wearing.gap .t1).wear ≤ 65535 ∧
      ((wearing.modGap .t1 fun g => { g with wearSteps := 8 }).gap .t1).wearSteps < 9 := by decide +kernel

theorem test_worked_wear_step :
    let t := after (.wearStep .t1) wearing
    t.gap .t1 = { wearing.gap .t1 with loadedTime := 0, tenths := 4310, wear := 12000, wearSteps := 0 } ∧
      t.conditions.listed .wearLimit (.crusher .t1) = true ∧
      t.store.writing.map WriteJob.sec = some .wear := by decide +kernel

/-- A feeder at its update: command, trim, power and surge level. -/
def updating (u : Train) (base command : Nat) (trim : Int) (power surge : Nat) : State :=
  (live.modGovernor u fun g =>
    { g with base := base, command := command, trim := trim, updateTimer := ⟨7999500, 500⟩ }).withInputs
      { live.inputs with power := live.inputs.power.set u (some ⟨0, power⟩), surge := some ⟨0, surge⟩ }

theorem witness_UpdateTrimsAndRamps :
    (let s := updating .t2 650 650 0 322 500
     s.powered = true ∧ 500 ≤ elapsed s.now 7999500 ∧ (s.governor .t2).holds.isEmpty = true ∧
      0 < (s.governor .t2).base ∧ 0 < (s.governor .t2).command ∧
      s.inputs.power.get .t2 = some ⟨0, 322⟩) ∧
      (let s := updating .t0 700 740 40 176 800
       s.inputs.surge = some ⟨0, 800⟩ ∧ s.line.surgeSlow ≤ 800 ∧ (s.feeder .t0).slowRate < 740) ∧
      ((updating .t2 0 0 0 322 500).governor .t2).base = 0 ∧
      (((updating .t2 650 0 0 322 500).modGovernor .t2 fun g => g.hold .mode).governor .t2).holds.isEmpty = false := by
  decide +kernel

/-- The trim, demand, command and cap bound after a feeder's update. -/
def updated (u : Train) (s : State) : Int × Nat × Nat × Bool :=
  let g := (after (.updateExpiry u) s).governor u
  (g.trim, g.demand, g.command, g.capBound)

/-- The worked trim's update 1 and its restart's update 1. -/
theorem test_worked_trim :
    updated .t2 (updating .t2 650 650 0 322 500) = (-15, 635, 635, false) ∧
      updated .t2 (updating .t2 650 0 (-200) 38 500) = (-200, 450, 20, false) := by decide +kernel

/-- The worked surge pile's updates 1 and 11. -/
theorem test_worked_cap :
    updated .t0 (updating .t0 700 740 40 176 805) = (40, 300, 690, true) ∧
      updated .t0 (updating .t0 700 20 40 168 797) = (45, 745, 40, false) := by decide +kernel

/-! ### Requests -/

theorem witness_StationAndParameterChecksRefuse :
    (live.takesOn .op ∧ settingFieldsOk 15 3600 = true ∧ jogFieldsOk 1 1 = true ∧ 7 < (8#8).toNat ∧
      (absent.takesOn .op ∧ (5#8).toNat = cone.number ∧ absent.present cone.train = false) ∧
      ((4#8).toNat = (feederOf .t2).number ∧ live.present .t2 = true ∧ (5#8).toNat = (crusherOf .t2).number)) ∧
      (live.takesOn .sv ∧ (8#8).toNat < 255 ∧ (255#8).toNat = 255 ∧ 5 < (6#8).toNat ∧ 14 < (15#8).toNat ∧
        41 < (42#8).toNat) ∧
      (ParamSet.ofByte 5 = some (.station cone) ∧ (ParamSet.station cone).param 13 = some (.crusher .t2 .loadAdjust) ∧
        (Param.crusher .t2 .loadAdjust).range = .named 2 ∧ 2 ≤ (2#16).toNat ∧ (1#16).toNat < 2) ∧
      ((live.station cone).mode = .run ∧ ParamSet.ofByte 0xFF = some .line) ∧
      (let s := touching .approach none
       (s.station cone).mode ≠ .run ∧ s.isSubject .t2 = true) ∧
      (let s := { touching .approach none with
          feeders := live.feeders.map fun (r : StationRecord) => { r with mode := .outOfService }
          crushers := live.crushers.map fun (r : StationRecord) => { r with mode := .maintenance } }
       (∀ st : Station, s.present st.train = true → (s.station st).mode ≠ .run) ∧ s.sequencer.subject = some .t2 ∧
        (trainSetOf (11#16).toNat).get .t2 = false) := by
  refine ⟨by unfold State.takesOn State.listening; decide +kernel,
    by unfold State.takesOn State.listening; decide +kernel, by decide +kernel, by decide +kernel,
    by decide +kernel, ?_, by decide +kernel, by decide +kernel⟩
  rintro ⟨u, r⟩
  cases u <;> cases r <;> decide +kernel

/-- A touch's subject and another crusher; a crusher in RUN with no touch; and subjects of each kind. -/
theorem witness_StationAndParameterChecksRefuse_owners :
    (let s := touching .approach none
     s.takesOn .sv ∧ (5#8).toNat = (crusherOf .t2).number ∧ s.present .t2 = true ∧ s.isSubject .t2 = true ∧
      s.sequencer.state ≠ .idle ∧ s.isSubject .t1 = false) ∧
      (live.takesOn .sv ∧ live.isSubject .t2 = false ∧ (live.station cone).mode ≠ .maintenance ∧
        live.sequencer.state = .idle) ∧
      (SubjectKind.none ≠ Code.relief.subjectKind ∧ (255#8).toNat = 255 ∧ SubjectKind.crusher ≠ Code.estop.subjectKind ∧
        (63#8).toNat ≤ 63 ∧ (64#8).toNat = 64 ∧ (66#8).toNat ≤ 66 ∧ (128#8).toNat = 128 ∧ (130#8).toNat ≤ 130 ∧
        SubjectKind.link ≠ Code.storeFault.subjectKind ∧ SubjectKind.storeSection ≠ Code.linkLocked.subjectKind) ∧
      (Code.relief.subjectKind = .crusher ∧ 8 ≤ (8#8).toNat ∧ (4#8).toNat = (feederOf .t2).number) := by
  unfold State.takesOn State.listening; decide +kernel

/-- BUSY is 0Bh, WRONG_MODE 0Ah, WRONG_KIND 07h and BAD_STATION 06h. -/
theorem test_owner_refusals :
    let t := touching .approach none
    (replied (after (.jog .sv 1 5 1 100 10) t) .sv, replied (after (.startZero .sv 1 5) t) .sv,
      replied (after (.abortZero .sv 1 3) t) .sv, replied (after (.jog .sv 1 5 1 100 10) live) .sv,
      replied (after (.startZero .sv 1 5) live) .sv) =
      ([0x0B, 0], [0x0B, 0], [0x0A, 0], [0x0A, 0], [0x0A, 0]) ∧
      (replied (after (.acknowledge .sv 1 6 0xFF) t) .sv, replied (after (.acknowledge .sv 1 6 8) t) .sv,
        replied (after (.acknowledge .sv 1 6 4) t) .sv) = ([0x07, 0], [0x06, 0], [0x07, 0]) := by decide +kernel

/-- Steps 4 and 5 of the worked narrowing: FORMAT for no. 13 at 2, WRONG_KIND for no. 45. -/
theorem test_worked_parameter_refusals :
    replied (after (.setParameter .sv 1 5 13 2) service) .sv = [0x0C, 0] ∧
      replied (after (.setParameter .sv 1 5 45 10) service) .sv = [0x07, 0] ∧
      replied (after (.setRate .sv 1 5 10 1 0 0) service) .sv = [0x07, 0] := by decide +kernel

/-- The contention of station 5: this board and this standing setting. -/
def contending (b : Board) (st : Standing) : State :=
  (live.withBoard b).modStation cone fun r => { r with standing := st }

/-- The board before the contention, slots 0 to 3 held for other stations. -/
def others (n : Nat) : Board :=
  ⟨(List.range 24).map fun i =>
    if i < 4 then some ⟨crusherOf .t3, 300, 1, .lc, 0, 30 + i, none, 3000⟩ else none, n⟩

/-- Applied, not outranking, not accepting, and the lowest free slot. -/
theorem witness_SettingRequestIsDecided :
    (let s := contending (others 41) (Standing.start 300)
     s.takesOn .lc ∧ (9#8).toNat ≤ 15 ∧ (0#16).toNat ≤ 3600 ∧ (5#8).toNat = cone.number ∧
      s.present cone.train = true ∧ (s.authority cone).has .lc = true ∧ (s.station cone).standing.keep ≠ some 0 ∧
      s.board.counter < 4294967295 ∧ s.accepting cone = true ∧ (s.station cone).lastAccepting = true ∧
      (s.station cone).standing.priority < min 9 7) ∧
      (let s := contending (others 42) ⟨280, 7, .request .lc 12 41, some 597⟩
       s.accepting cone = true ∧ ¬((s.station cone).standing.priority < 5 ∨ (s.station cone).standing.priority = 5) ∧
        0 < (300#16).toNat ∧ s.board.slots[4]? = some none ∧
        (∀ j < 4, s.board.slots[j]? ≠ some none)) ∧
      service.accepting cone = false ∧ (feederOf .t2).role = .feeder ∧ (live.station feed).standing.keep ≠ some 0 := by
  unfold State.takesOn State.listening; decide +kernel

/-- The worked contention, steps 1 and 3: LC is capped to 7, SV is clamped to 450. -/
theorem test_contention_applied :
    let t := after (.setGap .lc 12 5 280 9 600 0) (contending (others 41) (Standing.start 300))
    let u := after (.setGap .sv 77 5 500 7 120 0) (contending (others 43) ⟨280, 7, .request .lc 12 41, some 590⟩)
    (t.station cone).standing = ⟨280, 7, .request .lc 12 41, some 600⟩ ∧
      replied t .lc = [1, 2, 0x01, 0x18, 7, 0, 0, 0, 41, 0xFF] ∧
      (u.station cone).standing = ⟨450, 7, .request .sv 77 43, some 120⟩ ∧
      replied u .sv = [1, 1, 0x01, 0xC2, 7, 0, 0, 0, 43, 0xFF] := by decide +kernel

/-- The worked exchange's reply: slot 4, sequence 42, WAITING; then SET RATE below and above its limits. -/
theorem test_exchange_reply :
    ((after opRequest (contending (others 42) ⟨280, 7, .request .lc 12 41, some 597⟩)).link .op).reply.take 14 =
      [0xC5, 0x0C, 0x03, 0x81, 0x02, 0x00, 0x01, 0x04, 0x05, 0x00, 0x00, 0x00, 0x2A, 0x04] := by decide +kernel

theorem test_setRate :
    let t (v : Half) := after (.setRate .op 1 4 v 1 0 0) live
    (((t 199).governor .t2).base, ((t 0).governor .t2).base, ((t 0).governor .t2).command) = (200, 0, 0) := by
  decide +kernel

/-- The worked renumbering: OP's SET RATE for station 2, refused for the lack of a wait. -/
def renumbering : State :=
  { live with
    board := ⟨((List.replicate 24 none).set 3
      (some ⟨crusherOf .t3, 300, 1, .lc, 0, 4294967001, none, 9⟩)).set 9
        (some ⟨crusherOf .t3, 300, 1, .op, 0, 4294967290, none, 9⟩), 4294967295⟩
    feeders := live.feeders.set .t1 ⟨.maintenance, Standing.start 650, none, false⟩
    crushers := (live.crushers.set .t0 ⟨.run, ⟨1500, 1, .request .lc 0 4294960010, none⟩, none, true⟩).set .t2
      ⟨.run, ⟨301, 1, .request .sv 0 4294967200, none⟩, none, true⟩ }

theorem witness_LargestNumberRenumbers :
    renumbering.takesOn .op ∧ (1#8).toNat ≤ 15 ∧ (2#8).toNat = (feederOf .t1).number ∧
      renumbering.present .t1 = true ∧ (renumbering.feeder .t1).authority.has .op = true ∧
      (renumbering.station (feederOf .t1)).standing.keep ≠ some 0 ∧ renumbering.accepting (feederOf .t1) = false ∧
      renumbering.board.counter = 4294967295 ∧ renumbering.board.waitingOfLink .op (feederOf .t1) = 0 := by
  unfold State.takesOn State.listening; decide +kernel

/-- The largest number given to a request that is applied, outranked or placed in the lowest free slot. -/
theorem witness_LargestNumberRenumbers_outcomes :
    (let s := contending (others 4294967295) (Standing.start 300)
     s.takesOn .op ∧ (s.authority cone).has .op = true ∧ s.board.counter = 4294967295 ∧
      s.accepting cone = true ∧ (s.station cone).lastAccepting = true ∧
      (s.station cone).standing.priority < 5 ∧ (s.station cone).standing.keep ≠ some 0) ∧
      (let s := contending (others 4294967295) ⟨280, 7, .request .lc 12 41, some 597⟩
       ¬((s.station cone).standing.priority < 5 ∨ (s.station cone).standing.priority = 5) ∧
        s.board.slots[4]? = some none ∧ (∀ j < 4, s.board.slots[j]? ≠ some none)) ∧
      (renumbering.board.slots[0]? = some none ∧ 0 < (9#16).toNat) := by
  unfold State.takesOn State.listening; decide +kernel

/-- OP's 260 applied under the largest number takes the place after the four that wait: 5, and the counter 6. -/
theorem test_renumbering_applied :
    let t := after opRequest (contending (others 4294967295) (Standing.start 300))
    (t.station cone).standing = ⟨260, 5, .request .op 3 5, none⟩ ∧ t.board.counter = 6 ∧
      replied t .op = [1, 0, 0x01, 0x04, 5, 0xFF, 0xFF, 0xFF, 0xFF, 0xFF] := by decide +kernel

/-- The worked renumbering's table: as WAITING in slot 0 the counter becomes 6, and refused it becomes 5. -/
theorem test_worked_renumbering :
    let t (wait : Half) := after (.setRate .op 1 2 650 1 0 wait) renumbering
    let seq (s : State) (i : Nat) := (s.board.slots[i]?.join).map Slot.sequence
    (seq (t 9) 3, seq (t 9) 9, seq (t 9) 0, (t 9).board.counter, (t 0).board.counter) =
        (some 2, some 4, some 5, 6, 5) ∧
      ((t 9).station (crusherOf .t0)).standing.origin = .request .lc 0 1 ∧
      ((t 9).station cone).standing.origin = .request .sv 0 3 := by decide +kernel

/-- The contention after its step 9: LC's 270 stands, OP's slot 4 waits. -/
def standingLc : State :=
  contending ⟨(List.replicate 24 none).set 4 (some ⟨cone, 255, 5, .op, 4, 45, none, 190⟩), 46⟩
    ⟨270, 6, .request .lc 13 44, none⟩

theorem witness_WithdrawFreesAndReleases :
    (standingLc.takesOn .sv ∧ (5#8).toNat = cone.number ∧ standingLc.present cone.train = true ∧
      (standingLc.station cone).standing.origin ≠ .request .sv 13 44) ∧
      ((contending (others 46) ⟨270, 6, .request .lc 13 44, none⟩).board.slots.all fun o =>
        o.all fun r => r.station ≠ cone) = true ∧
      (standingLc.takesOn .lc ∧ standingLc.accepting cone = true ∧ (standingLc.station cone).lastAccepting = true ∧
        (standingLc.board.slots.map fun o => if o.any fun r => r.source = .lc && r.station = cone then none else o)[4]? =
          some (some ⟨cone, 255, 5, .op, 4, 45, none, 190⟩)) ∧
      (∀ j q, (standingLc.board.slots.map fun o =>
          if o.any fun r => r.source = .lc && r.station = cone then none else o)[j]? = some (some q) →
        q.station = cone → j ≠ 4 → q.priority < 5 ∨ q.priority = 5 ∧ q.sequence < 45) ∧ 0 < 5 := by
  refine ⟨?_, by decide +kernel, ?_, slots_all (by decide +kernel), by decide⟩ <;>
    (unfold State.takesOn State.listening; decide +kernel)

/-- The contention's step 10: RELEASED_STANDING, and OP's 255 at priority 5. -/
theorem test_contention_withdraw :
    let t := after (.withdraw .lc 1 5) standingLc
    replied t .lc = [0, 0x10] ∧ (t.station cone).standing = ⟨255, 5, .request .op 4 45, none⟩ ∧
      t.board.slots[4]? = some none := by decide +kernel

/-- Station 4 out of RUN, its best waiting request in slot 0. -/
def parked (mode : Mode) : State :=
  (live.withBoard ⟨(List.replicate 24 none).set 0 (some ⟨feed, 700, 5, .op, 4, 45, none, 190⟩), 46⟩).modStation feed
    fun r => { r with mode := mode, lastAccepting := false }

theorem witness_SetModeTakesTheMode :
    (live.takesOn .op ∧ Link.op ≠ .lc ∧ (5#8).toNat = cone.number ∧ live.present cone.train = true ∧
      live.isSubject .t2 = false ∧ (live.station cone).mode ≠ .maintenance ∧
      (touching .approach none).isSubject .t2 = true) ∧
      ((parked .outOfService).station feed).mode = .outOfService ∧ ((parked .run).station feed).mode = .run ∧
      (((parked .maintenance).station feed).mode ≠ .run ∧ ((parked .maintenance).station feed).lastAccepting = false ∧
        (parked .maintenance).board.slots[0]? = some (some ⟨feed, 700, 5, .op, 4, 45, none, 190⟩) ∧
        ((parked .maintenance).station feed).standing.priority < 5) ∧
      (∀ j q, (parked .maintenance).board.slots[j]? = some (some q) → q.station = feed → j ≠ 0 →
        q.priority < 5 ∨ q.priority = 5 ∧ q.sequence < 45) ∧
      ∀ r, some r ∈ (parked .maintenance).board.slots → r.station ≠ cone := by
  refine ⟨by unfold State.takesOn State.listening; decide +kernel, by decide +kernel, by decide +kernel,
    by decide +kernel, slots_all (by decide +kernel), ?_⟩
  intro r h
  obtain ⟨j, hj⟩ := List.mem_iff_getElem?.mp h
  exact slots_all (p := fun _ q => q.station ≠ cone) (by decide +kernel) j r hj

theorem test_setMode :
    let t := after (.setMode .op 1 4 0) (parked .maintenance)
    (t.station feed).standing = ⟨700, 5, .request .op 4 45, none⟩ ∧ (t.governor .t2).base = 700 ∧
      (after (.setMode .op 1 4 2) (parked .maintenance)).board.slots[0]? = some none ∧
      replied (after (.setMode .op 1 4 0) (parked .outOfService)) .op = [0x0A, 0] := by decide +kernel

/-- A crusher that leaves RUN in IDLE, DRAINING, DRIVING and DEAD_TIME, and in FAULT; a jog under MODE alone, and
under POSITION too. -/
theorem witness_SetModeTakesTheMode_crusher :
    (∀ f ∈ [id, fun p => { p with state := .draining }, moving (some ⟨.opening, 190⟩), waiting],
      ((mov f).positioner .t2).reasons.isEmpty = true) ∧
      ((mov id).positioner .t2).state = .idle ∧
      ((mov fun p => { p with state := .draining }).positioner .t2).state = .draining ∧
      ((mov (moving (some ⟨.opening, 190⟩))).positioner .t2).state = .driving ∧
      ((mov (moving (some ⟨.opening, 190⟩))).positioner .t2).drive = some ⟨.opening, 190⟩ ∧
      ((mov waiting).positioner .t2).state = .deadTime ∧
      ((mov fun p => { p with state := .fault }).positioner .t2).state = .fault ∧
      ((mov id).station cone).mode ≠ .maintenance ∧
      (jogged.positioner .t2).state = .jogging ∧ (jogged.positioner .t2).reasons.mode = true ∧
      (jogged.station cone).mode ≠ .outOfService ∧ (jogged.station cone).mode ≠ .run ∧
      (let q := (mov fun p => jogging 500 { p with reasons := { p.reasons with position := true } }).positioner .t2
       q.state = .jogging ∧ q.reasons.mode = true ∧
        ({ q.reasons with mode := false } : Reasons).isEmpty = false) := by decide +kernel

/-- MAINTENANCE suspends a move with its drive off and the move kept; OUT_OF_SERVICE ends a jog with its drive off. -/
theorem test_setMode_crusher :
    let t := (after (.setMode .op 1 5 1) (mov (moving (some ⟨.opening, 190⟩)))).positioner .t2
    let j := (after (.setMode .op 1 5 2) jogged).positioner .t2
    t.state = .suspended ∧ t.drive = none ∧ t.lastEnd = ⟨8000000, some .opening⟩ ∧ t.moveTimer = none ∧
      t.move = some ⟨7965975, true⟩ ∧ t.reasons.mode = true ∧ j.state = .suspended ∧ j.drive = none ∧
      j.jog = none ∧ j.lastEnd = ⟨8000000, some .opening⟩ := by decide +kernel

/-! ### Parameters -/

/-- Station 5 in the worked narrowing: in MAINTENANCE with OP's 277, and GAP_MAX as this. -/
def narrowing (gapMax : Nat) : State :=
  (service.modStation cone fun r => { r with standing := ⟨277, 5, .request .op 3 9, some 1200⟩ }).withCrusher .t2
    { CrusherParams.defaults false with gapMax := gapMax }

theorem narrowing_params : (narrowing 450).paramsOk := by
  have hp : (narrowing 450).store.readProfile = none := rfl
  have hw : (narrowing 450).store.writing = none := rfl
  unfold State.paramsOk
  rw [hp, hw]
  exact ⟨by decide +kernel, by simp, by simp⟩

theorem witness_SetParameterStoresTheNearestValue :
    (narrowing 450).takesOn .sv ∧ (narrowing 450).paramsOk ∧ ParamSet.ofByte 5 = some (.station cone) ∧
      (ParamSet.station cone).param 2 = some (.crusher .t2 .gapMax) ∧
      (Param.crusher .t2 .gapMax).range.defined 250 = true ∧
      (narrowing 450).paramModeOk (.crusher .t2 .gapMax) = true ∧
      (narrowing 450).paramBusy (.crusher .t2 .gapMax) 250 = false ∧
      Param.crusher .t2 .gapMax ≠ .line .trainsPresent :=
  ⟨by unfold State.takesOn State.listening; decide +kernel, narrowing_params, by decide +kernel, by decide +kernel,
    by decide +kernel, by decide +kernel, by decide +kernel, by decide +kernel⟩

/-- W of 12,000 about a WEAR_LIMIT of 120, and 121 above it. -/
theorem witness_SetParameterStoresTheNearestValue_wear :
    let s := (narrowing 450).modGap .t2 fun g => { g with wear := 12000 }
    (ParamSet.station cone).param 16 = some (.crusher .t2 .wearLimit) ∧
      (Param.crusher .t2 .wearLimit).range.defined 121 = true ∧
      s.paramModeOk (.crusher .t2 .wearLimit) = true ∧ s.paramBusy (.crusher .t2 .wearLimit) 121 = false ∧
      (s.crusher .t2).wearLimit * 100 ≤ 12000 := by decide +kernel

/-- WEAR_LIMIT written above W ends its condition, and written at W begins it. -/
theorem test_wearLimit_written :
    let s := (narrowing 450).modGap .t2 fun g => { g with wear := 12000 }
    let up := after (.setParameter .sv 1 5 16 121)
      { s with conditions := ⟨[entryOf .wearLimit (.crusher .t2) false true], 0, none⟩ }
    let down := after (.setParameter .sv 1 5 16 120) up
    (up.conditions.entries.map Entry.code, down.conditions.entries.map Entry.code) = ([], [.wearLimit]) := by
  decide +kernel

/-- The worked narrowing's steps 1, 2 and 3: 250 stored and the target clamped; 300 bounded to 250; 300 to 255. -/
theorem test_worked_narrowing :
    let a := after (.setParameter .sv 1 5 2 250) (narrowing 450)
    let b := after (.setParameter .sv 1 5 1 300) (narrowing 250)
    let c := after (.setParameter .sv 1 5 15 300) (narrowing 250)
    (a.station cone).standing = ⟨250, 5, .request .op 3 9, some 1200⟩ ∧ replied a .sv = [0, 0, 0, 250] ∧
      (b.crusher .t2).gapMin = 250 ∧ replied b .sv = [0, 1, 0, 250] ∧ (c.crusher .t2).wearRate = 255 := by
  decide +kernel

/-- No present station in RUN; train 2 is left out. -/
def resting : State :=
  { live with
    feeders := live.feeders.map fun r => { r with mode := .maintenance }
    crushers := live.crushers.map fun r => { r with mode := .maintenance } }

theorem witness_TrainsPresentWriteTakesEffect :
    resting.takesOn .sv ∧ (11#16).toNat < 16 ∧
      (∀ st : Station, resting.present st.train = true → (resting.station st).mode ≠ .run) ∧
      resting.sequencer.subject = none ∧ resting.present .t2 = true ∧
      trainSetOf (11#16).toNat = resting.line.trainsPresent.set .t2 false := by
  refine ⟨by unfold State.takesOn State.listening; decide +kernel, by decide, ?_, by decide +kernel,
    by decide +kernel, by decide +kernel⟩
  rintro ⟨u, r⟩
  cases u <;> cases r <;> decide +kernel

theorem test_train_left_out :
    let t := after (.setParameter .sv 1 0xFF 5 11) resting
    (t.station cone).mode = .outOfService ∧ (t.gap .t2).validity = .notValid ∧ (t.gap .t2).gap = none ∧
      (t.gap .t1).gap = some 301 := by decide +kernel

/-- A trip latch in SET_ACKNOWLEDGED and a SET one when their train is left out: the first is cleared with its entry,
the second stays and its cause ends. -/
theorem test_latches_of_a_train_left_out :
    let s (latch : Latch) : State :=
      { resting.modSupervisor .t2 fun v => { v with tripCause := true, powerLatch := latch } with
        conditions := ⟨[entryOf .powerTrip (.crusher .t2) (latch == .setAcknowledged) true], 0,
          some ⟨.powerTrip, .crusher .t2, ⟨905114000, true⟩⟩⟩ }
    let t (latch : Latch) := after (.setParameter .sv 1 0xFF 5 11) (s latch)
    (((t .setAcknowledged).supervisor .t2).powerLatch, (t .setAcknowledged).conditions.entries.length) = (.clear, 0) ∧
      (((t .set).supervisor .t2).powerLatch, (t .set).conditions.entries.map Entry.active) = (.set, [false]) := by
  decide +kernel

/-- Train 2 left out, with its zero valid or not, its loops as they were. -/
def leftOut (zeroValid : Bool) : State :=
  ((((after (.setParameter .sv 1 0xFF 5 11) resting).modZero .t2 fun z => { z with valid := zeroValid }).modLink .sv
    fun k => { k with replyPending := false }).modPositioner .t2 fun p => { p with state := .suspended })

theorem witness_TrainsPresentWriteTakesEffect_return :
    (leftOut false).takesOn .sv ∧ (15#16).toNat < 16 ∧
      (∀ st : Station, (leftOut false).present st.train = true → ((leftOut false).station st).mode ≠ .run) ∧
      (leftOut false).sequencer.subject = none ∧ (leftOut false).present .t2 = false ∧
      trainSetOf (15#16).toNat = (leftOut false).line.trainsPresent.set .t2 true ∧
      (∀ st : Station, st.train = .t2 → ((leftOut false).station st).mode = .outOfService) ∧
      ((leftOut false).positioner .t2).state = .suspended ∧ ((leftOut false).crusher .t2).reliefSource = .analog := by
  refine ⟨by unfold State.takesOn State.listening; decide +kernel, by decide, ?_, by decide +kernel,
    by decide +kernel, by decide +kernel, ?_, by decide +kernel, by decide +kernel⟩
  · rintro ⟨u, r⟩
    cases u <;> cases r <;> decide +kernel
  · rintro ⟨u, r⟩ h
    cases h
    cases r <;> decide +kernel

/-- The same under SWITCH, with the relief switch active. -/
def leftOutActive : State :=
  ((leftOut false).withCrusher .t2 { CrusherParams.defaults false with reliefSource := .switch }).withInputs
    { live.inputs with reliefSwitch := live.inputs.reliefSwitch.set .t2 (level true) }

theorem witness_TrainsPresentWriteTakesEffect_relief :
    (leftOutActive.crusher .t2).reliefSource = .switch ∧
      (leftOutActive.inputs.reliefSwitch.get .t2).level = some true ∧
      (leftOutActive.crusher .t2).switchInvert = false ∧ (leftOutActive.supervisor .t2).detectorActive = false := by
  decide +kernel

theorem test_relief_on_a_return :
    (after (.setParameter .sv 1 0xFF 5 15) leftOutActive).conditions.entries.map Entry.code =
      [.relief, .zeroUnset] := by decide +kernel

/-- A train made present starts in MAINTENANCE with START settings, unread, and ZERO_UNSET is listed where it has no
valid zero. -/
theorem test_train_made_present :
    let t := after (.setParameter .sv 1 0xFF 5 15) (leftOut false)
    let u := after (.setParameter .sv 1 0xFF 5 15) (leftOut true)
    t.station cone = ⟨.maintenance, Standing.start 450, none, false⟩ ∧
      t.station feed = ⟨.maintenance, Standing.start 0, none, false⟩ ∧ (t.gap .t2).firstReadingDue = true ∧
      t.conditions.listed .zeroUnset (.crusher .t2) = true ∧
      u.conditions.listed .zeroUnset (.crusher .t2) = false := by decide +kernel

/-! ### Acknowledgements and reads -/

/-- The cone between two onsets of the worked relief sequence: CLEARING, the latch set and listed. -/
def repeated : State :=
  { (relieving true .clearing).modSupervisor .t2 fun v => { v with reliefLatch := .set } with
    conditions :=
      ⟨[entryOf .relief (.crusher .t2) false true, entryOf .repeatedRelief (.crusher .t2) false true], 3,
        some ⟨.repeatedRelief, .crusher .t2, ⟨905114000, true⟩⟩⟩ }

theorem witness_AcknowledgeActsOnEntryAndLatch :
    (repeated.takesOn .op ∧ Link.op ≠ .lc ∧ (7#8).toNat = Code.repeatedRelief.number ∧
      (5#8).toNat = (Subject.crusher .t2).code ∧ repeated.conditions.lawful ∧
      Code.subjectKind .repeatedRelief = .crusher) ∧
      (repeated.conditions.entries =
        [entryOf .relief (.crusher .t2) false true] ++ entryOf .repeatedRelief (.crusher .t2) false true :: []) ∧
      ((10#8).toNat = Code.moveTimeout.number ∧ (repeated.positioner .t2).state ≠ .fault) ∧
      ((17#8).toNat = Code.linkLocked.number ∧ (0x42#8).toNat = (Subject.link .sv).code ∧
        Code.latched .linkLocked = false) := by
  unfold State.takesOn State.listening ConditionList.lawful; decide +kernel

/-- The worked relief's 10,012.000: SET_ACKNOWLEDGED, the history emptied, the entry found and kept. -/
theorem test_acknowledge :
    let t := after (.acknowledge .op 1 7 5) repeated
    (t.supervisor .t2).reliefLatch = .setAcknowledged ∧ (t.supervisor .t2).history = [] ∧
      replied t .op = [0, 0, 1, 0] ∧ t.conditions.entries.length = 2 := by decide +kernel

theorem witness_AcknowledgeAllActsOnEveryLatch :
    repeated.takesOn .op ∧ Link.op ≠ .lc ∧ repeated.conditions.lawful ∧
      (∀ u, (repeated.positioner u).state ≠ .fault ∨ (repeated.supervisor u).relief ≠ .restoring) := by
  refine ⟨by unfold State.takesOn State.listening; decide +kernel, by decide,
    by unfold ConditionList.lawful; decide +kernel, ?_⟩
  intro u
  cases u <;> decide +kernel

theorem test_acknowledgeAll :
    let s := { live with conditions := fullList false }
    let t := after (.acknowledgeAll .op 1) s
    t.conditions.entries.length = 15 ∧ t.conditions.overflow = 0 ∧ replied t .op = [0, 0, 1] ∧
      t.conditions.entries.all Entry.acknowledged = true := by decide +kernel

theorem witness_ReadsChangeNothing :
    (withLink .op none false true).listening ∧ ParamSet.ofByte 5 = some (.station cone) ∧
      (ParamSet.station cone).param 41 = some (.crusher .t2 .startMode) := by
  unfold State.listening; decide +kernel

theorem test_reads :
    (replied (after (.readStation .op 1 5) live) .op).length = 2 + 93 ∧
      (replied (after (.readStation .op 1 4) live) .op).length = 2 + 33 ∧
      (replied (after (.readZeroRecord .op 1 5) live) .op).length = 2 + 39 ∧
      replied (after (.readParameter .op 1 5 3) live) .op = [0, 0, 5, 3, 0x01, 0xA4] ∧
      replied (after (.readClock .op 1) saving) .op =
        [0, 0, 0, 0, 0x1F, 0x40, 0, 0, 0x35, 0xF2, 0xF2, 0x58, 1, 1, 0] := by decide +kernel

/-- READ STATION of a feeder at 650 with power 302 and surge level 500, 490 ms to its update, byte by byte from the
layouts of section 10.5. -/
theorem test_read_station_feeder :
    (replied (after (.readStation .op 1 4) live) .op).drop 2 =
      [4, 0, 0x0F, 0x02, 0x8A, 0, 3, 0, 0, 0, 0, 0, 0, 0, 0xFF, 0, 0x02, 0x8A, 0, 0x01, 0xF4] ++
        [2, 0, 0, 0, 0, 0x02, 0x8A, 0, 0x01, 0xEA, 0x01, 0x2E] := by decide +kernel

/-- READ STATION of a crusher: the direction and duty of its drive and of its pending drive, absent and present. The
duty of an absent pending drive is FFFFh. -/
theorem test_read_station_drives :
    let drives (s : State) := ((replied (after (.readStation .op 1 5) s) .op).drop 39).take 6
    drives live = [0, 0, 0, 0, 0xFF, 0xFF] ∧ drives (mov waiting) = [0, 0, 0, 1, 0x01, 0xB8] ∧
      drives (mov (moving (some ⟨.closing, 190⟩))) = [2, 0, 0xBE, 0, 0xFF, 0xFF] := by decide +kernel

theorem witness_ReadsCarryTheState : live.listening ∧ (withLink .op none false true).listening := by
  unfold State.listening; decide +kernel

/-- The count, and slot 4 as OP reads it: station 5, GAP, 260, priority 5, tag 3, number 42, no keep, 291 s. -/
theorem test_read_lists :
    replied (after (.readWaiting .op 1) (live.withBoard contended)) .op =
        [0, 0, 1, 4, 5, 0, 0x01, 0x04, 5, 3, 0, 0, 0, 42, 0, 0, 0x01, 0x23] ∧
      replied (after (.readConditions .op 1) { live with conditions := ⟨[], 2, none⟩ }) .op =
        [0, 0, 0, 0, 2, 0, 0, 0, 0, 0, 0, 0, 0] := by decide +kernel

end Sys2Proof.Tests
end

section
/-! PROOFS. What a power arrival does to the overload delay and the overload episode (R140, R141): the judging for
overload in its four cases, and that the judgings after it, for power trip and for load, keep what it left. -/

namespace Sys2Proof.Machine

/-! ### The List: a condition that is not listed -/

theorem ConditionList.listed_eq_false_iff {l : ConditionList} {code : Code} {sub : Subject} :
    l.listed code sub = false ↔ ∀ e ∈ l.entries, e.named code sub = false := by
  simp [ConditionList.listed]

theorem Entry.named_fresh_of_ne {c code : Code} (hc : code ≠ c) (sub sub' : Subject) (stamp : Stamp)
    (d : Option Detail) : (Entry.fresh code sub' stamp d).named c sub = false := by
  simp [Entry.named, Entry.fresh, hc]

theorem ConditionList.listed_appended_fresh {l : ConditionList} {c code : Code} {sub : Subject}
    (hc : code ≠ c) (sub' : Subject) (stamp : Stamp) (d : Option Detail) (h : l.listed c sub = false) :
    (l.appended (Entry.fresh code sub' stamp d)).listed c sub = false := by
  rw [listed_eq_false_iff] at h ⊢
  intro e he
  rcases List.mem_append.mp he with he | he
  · exact h e he
  · rw [List.mem_singleton.mp he]
    exact Entry.named_fresh_of_ne hc ..

/-- The onset of another condition does not list this one (R150, R151). -/
theorem ConditionList.listed_onset_of_ne {l : ConditionList} {c code : Code} {sub : Subject}
    (hc : code ≠ c) (sub' : Subject) (d : Option Detail) (stamp : Stamp) (h : l.listed c sub = false) :
    (l.onset code sub' d stamp).listed c sub = false := by
  have hl := listed_eq_false_iff.mp h
  unfold ConditionList.onset
  split
  · -- a recurrence
    refine listed_eq_false_iff.mpr fun e he => ?_
    obtain ⟨e', he', rfl⟩ := List.mem_map.mp he
    split
    · exact hl e' he'
    · exact hl e' he'
  split
  · exact listed_appended_fresh hc sub' stamp d h
  split
  · split
    · -- an eviction
      refine listed_appended_fresh hc sub' stamp d (listed_eq_false_iff.mpr fun e he => ?_)
      exact hl e (List.mem_of_mem_eraseIdx he)
    · exact h
  · exact h

theorem ConditionList.listed_without {l : ConditionList} {c : Code} {sub : Subject} (gone : Entry → Bool)
    (h : l.listed c sub = false) : (l.without gone).listed c sub = false :=
  listed_eq_false_iff.mpr fun e he => listed_eq_false_iff.mp h e (List.mem_of_mem_filter he)

/-- The end of a cause lists nothing (R152). -/
theorem ConditionList.listed_causeEnded {l : ConditionList} {c : Code} {sub : Subject} (code : Code)
    (sub' : Subject) (h : l.listed c sub = false) : (l.causeEnded code sub').listed c sub = false := by
  unfold ConditionList.causeEnded
  split
  · have hw := listed_eq_false_iff.mp (listed_without (fun e => e.named code sub' && e.acknowledged) h)
    refine listed_eq_false_iff.mpr fun e he => ?_
    obtain ⟨e', he', rfl⟩ := List.mem_map.mp he
    split
    · exact hw e' he'
    · exact hw e' he'
  · exact listed_without _ h

/-- The end of its cause removes a condition that is not latched (R152). -/
theorem ConditionList.listed_causeEnded_self (l : ConditionList) {code : Code} (sub : Subject)
    (hc : code.latched = false) : (l.causeEnded code sub).listed code sub = false := by
  simp [ConditionList.causeEnded, hc, ConditionList.without, listed_eq_false_iff]

/-! ### What the judgings after the overload's leave alone -/

/-- A mark changes the store alone. -/
theorem State.mark_eq_withStore (s : State) (sec : StoreSection) :
    s.mark sec = s.withStore (s.mark sec).store := by
  unfold State.mark State.startWrite
  split
  · rfl
  · split <;> rfl

/-- From one state to another the latest readings, the overload delay and episode of a train, the trim and the hold
OVERLOAD of its feeder stay, and OVERLOAD is not newly listed. -/
structure KeepsOverload (t : Train) (a b : State) : Prop where
  inputs : b.inputs = a.inputs
  episode : (b.supervisor t).overload = (a.supervisor t).overload
  delay : (b.supervisor t).overloadTimer = (a.supervisor t).overloadTimer
  trim : (b.governor t).trim = (a.governor t).trim
  hold : (b.governor t).holds.overload = (a.governor t).holds.overload
  unlisted : a.conditions.listed .overload (.crusher t) = false →
    b.conditions.listed .overload (.crusher t) = false

section keeps

variable {t : Train} {s a b c : State}

theorem KeepsOverload.refl (a : State) : KeepsOverload t a a := ⟨rfl, rfl, rfl, rfl, rfl, id⟩

theorem KeepsOverload.trans (h : KeepsOverload t a b) (k : KeepsOverload t b c) : KeepsOverload t a c where
  inputs := k.inputs.trans h.inputs
  episode := k.episode.trans h.episode
  delay := k.delay.trans h.delay
  trim := k.trim.trans h.trim
  hold := k.hold.trans h.hold
  unlisted := fun n => k.unlisted (h.unlisted n)

theorem KeepsOverload.ite {p : Prop} [Decidable p] (h : KeepsOverload t s a) (k : KeepsOverload t s b) :
    KeepsOverload t s (if p then a else b) := by
  split
  · exact h
  · exact k

theorem KeepsOverload.positioner (h : KeepsOverload t s a) (u : Train) (f : Positioner → Positioner) :
    KeepsOverload t s (a.modPositioner u f) := h.trans ⟨rfl, rfl, rfl, rfl, rfl, id⟩

theorem KeepsOverload.sequencer (h : KeepsOverload t s a) (f : Sequencer → Sequencer) :
    KeepsOverload t s (a.modSequencer f) := h.trans ⟨rfl, rfl, rfl, rfl, rfl, id⟩

theorem KeepsOverload.zero (h : KeepsOverload t s a) (u : Train) (f : ZeroRecord → ZeroRecord) :
    KeepsOverload t s (a.modZero u f) := h.trans ⟨rfl, rfl, rfl, rfl, rfl, id⟩

theorem KeepsOverload.mark (h : KeepsOverload t s a) (sec : StoreSection) : KeepsOverload t s (a.mark sec) := by
  rw [a.mark_eq_withStore]
  exact h.trans ⟨rfl, rfl, rfl, rfl, rfl, id⟩

theorem KeepsOverload.supervisor (h : KeepsOverload t s a) {f : Supervisor → Supervisor}
    (he : ∀ v, (f v).overload = v.overload) (hd : ∀ v, (f v).overloadTimer = v.overloadTimer) :
    KeepsOverload t s (a.modSupervisor t f) :=
  h.trans ⟨rfl, by simp [he], by simp [hd], rfl, rfl, id⟩

theorem KeepsOverload.addHold (h : KeepsOverload t s a) {x : Hold} (hx : x ≠ .overload) :
    KeepsOverload t s (a.addHold t x) := by
  obtain ⟨hholds, -, htrim, -⟩ := (a.governor t).hold_keeps x
  have hhold := hholds .overload
  exact h.trans ⟨rfl, rfl, rfl, by simpa [State.addHold] using htrim,
    by simpa [State.addHold, Holds.has, hx.symm] using hhold, id⟩

theorem KeepsOverload.removeHold (h : KeepsOverload t s a) {x : Hold} (hx : x ≠ .overload) :
    KeepsOverload t s (a.removeHold t x) := by
  obtain ⟨hholds, -, htrim, -⟩ := (a.governor t).release_keeps x
  have hhold := hholds .overload
  exact h.trans ⟨rfl, rfl, rfl, by simpa [State.removeHold] using htrim,
    by simpa [State.removeHold, Holds.has, hx.symm] using hhold, id⟩

theorem KeepsOverload.onset (h : KeepsOverload t s a) {code : Code} (hc : code ≠ .overload) (sub : Subject)
    (d : Option Detail) : KeepsOverload t s (a.onset code sub d) :=
  h.trans ⟨rfl, rfl, rfl, rfl, rfl, ConditionList.listed_onset_of_ne hc sub d a.stamp⟩

theorem KeepsOverload.causeEnd (h : KeepsOverload t s a) (code : Code) (sub : Subject) :
    KeepsOverload t s (a.causeEnd code sub) :=
  h.trans ⟨rfl, rfl, rfl, rfl, rfl, ConditionList.listed_causeEnded code sub⟩

theorem KeepsOverload.putLatch (h : KeepsOverload t s a) (w : TripLatch) (l : Latch) :
    KeepsOverload t s (a.modSupervisor t fun v => v.putLatch w l) :=
  h.supervisor (fun _ => by cases w <;> rfl) (fun _ => by cases w <;> rfl)

theorem KeepsOverload.judgeTrip (h : KeepsOverload t s a) : KeepsOverload t s (a.judgeTrip t) :=
  KeepsOverload.ite (h.removeHold (by decide)) (h.addHold (by decide))

theorem KeepsOverload.setLatch (h : KeepsOverload t s a) (w : TripLatch) (d : Option Detail) :
    KeepsOverload t s (a.setLatch t w d) :=
  ((h.putLatch w .set).onset (by cases w <;> decide) _ d).judgeTrip

theorem KeepsOverload.endLatchCause (h : KeepsOverload t s a) (w : TripLatch) :
    KeepsOverload t s (a.endLatchCause t w) := by
  unfold State.endLatchCause
  split
  · exact h
  · exact h.causeEnd _ _
  · exact ((h.putLatch w .clear).causeEnd _ _).judgeTrip

theorem KeepsOverload.tripCause (h : KeepsOverload t s a) (active : Bool) :
    KeepsOverload t s (a.modSupervisor t fun v => { v with tripCause := active }) :=
  h.supervisor (fun _ => rfl) (fun _ => rfl)

theorem KeepsOverload.endTripCause (h : KeepsOverload t s a) : KeepsOverload t s (a.endTripCause t) :=
  (h.tripCause false).endLatchCause .powerTrip

/-- The judging for power trip, its onset and then its end, keeps the overload as it is (R142). -/
theorem KeepsOverload.judgePowerTrip (h : KeepsOverload t s a) (power : Nat) :
    KeepsOverload t s (a.judgePowerTrip t power) := by
  unfold State.judgePowerTrip
  refine KeepsOverload.ite (KeepsOverload.endTripCause ?_) ?_ <;>
    exact KeepsOverload.ite ((h.tripCause true).setLatch _ _) h

theorem KeepsOverload.endTouch (h : KeepsOverload t s a) : KeepsOverload t s (a.endTouch t) :=
  ((h.positioner t _).sequencer _).removeHold (by decide)

/-- The abort of a touch, with its report, keeps the overload as it is (R107). -/
theorem KeepsOverload.abortTouch (h : KeepsOverload t s a) (r : TouchResult) :
    KeepsOverload t s (a.abortTouch t r) := by
  have hreport : ∀ {b}, KeepsOverload t s b →
      KeepsOverload t s ((b.onset .zeroAborted (.crusher t) (some (.result r))).causeEnd .zeroAborted (.crusher t)) :=
    fun hb => (hb.onset (by decide) _ _).causeEnd _ _
  exact ((hreport ((h.sequencer _).zero t _)).endTouch).mark .zero

/-- The judging for load keeps the overload as it is (R100). -/
theorem KeepsOverload.judgeLoad (h : KeepsOverload t s a) (power : Nat) :
    KeepsOverload t s (a.judgeLoad t power) :=
  KeepsOverload.ite (h.abortTouch _) h

end keeps

/-! ### The judging for overload, case by case (R140, R141) -/

section judging

variable {t : Train} {s : State} {power : Nat}

theorem State.modSupervisor_eq_self {f : Supervisor → Supervisor} (hf : f (s.supervisor t) = s.supervisor t) :
    s.modSupervisor t f = s := by
  simp only [State.modSupervisor, hf]
  exact congrArg (fun q => { s with supervisors := q }) (s.supervisors.set_get t)

/-- Power at or above OVERLOAD_LEVEL starts the delay, or leaves it running. -/
theorem State.judgeOverload_of_level_le (he : (s.supervisor t).overload = false)
    (hp : (s.crusher t).overloadLevel ≤ power) :
    s.judgeOverload t power = s.modSupervisor t fun v =>
      { v with
        overloadTimer :=
          if v.overloadTimer.isSome then v.overloadTimer else some ⟨s.now, (s.crusher t).overloadDelay⟩ } := by
  cases hk : (s.supervisor t).overloadTimer with
  | none => simp [State.judgeOverload, State.modSupervisor, State.timer, he, hp, hk]
  | some k =>
    rw [State.modSupervisor_eq_self (by simp only [hk, Option.isSome_some, if_true]; rw [← hk])]
    simp [State.judgeOverload, he, hp, hk]

/-- Power below OVERLOAD_LEVEL stops the delay. -/
theorem State.judgeOverload_of_lt_level (he : (s.supervisor t).overload = false)
    (hp : power < (s.crusher t).overloadLevel) :
    s.judgeOverload t power = s.modSupervisor t fun v => { v with overloadTimer := none } := by
  simp [State.judgeOverload, he, Nat.not_le.mpr hp]

/-- In an episode, power above RESUME_LEVEL changes nothing. -/
theorem State.judgeOverload_of_resume_lt (he : (s.supervisor t).overload = true)
    (hp : (s.crusher t).resumeLevel < power) : s.judgeOverload t power = s := by
  simp [State.judgeOverload, he, Nat.not_le.mpr hp]

/-- In an episode, power at or below RESUME_LEVEL ends it. -/
theorem State.judgeOverload_of_le_resume (he : (s.supervisor t).overload = true)
    (hp : power ≤ (s.crusher t).resumeLevel) : s.judgeOverload t power = s.endOverload t := by
  simp [State.judgeOverload, he, hp]

theorem State.endOverload_supervisor (s : State) (t : Train) :
    (s.endOverload t).supervisor t = { s.supervisor t with overload := false } := by
  simp [State.endOverload, State.causeEnd, State.removeHold]

theorem State.endOverload_trim (s : State) (t : Train) :
    ((s.endOverload t).governor t).trim = (s.governor t).trim := by
  obtain ⟨-, -, htrim, -⟩ := (s.governor t).release_keeps .overload
  simpa [State.endOverload, State.causeEnd, State.removeHold] using htrim

theorem State.endOverload_hold (s : State) (t : Train) :
    ((s.endOverload t).governor t).holds.overload = false := by
  obtain ⟨hholds, -⟩ := (s.governor t).release_keeps .overload
  simpa [State.endOverload, State.causeEnd, State.removeHold, Holds.has] using hholds .overload

theorem State.endOverload_unlisted (s : State) (t : Train) :
    (s.endOverload t).conditions.listed .overload (.crusher t) = false :=
  ConditionList.listed_causeEnded_self _ _ rfl

/-- The delay and the episode after the judging for overload. -/
theorem State.judgeOverload_supervisor (s : State) (t : Train) (power : Nat) :
    ((s.judgeOverload t power).supervisor t).overload =
        ((s.supervisor t).overload && decide ((s.crusher t).resumeLevel < power)) ∧
      ((s.judgeOverload t power).supervisor t).overloadTimer =
        (if (s.supervisor t).overload then (s.supervisor t).overloadTimer
        else if power < (s.crusher t).overloadLevel then none
        else if (s.supervisor t).overloadTimer.isSome then (s.supervisor t).overloadTimer
        else some ⟨s.now, (s.crusher t).overloadDelay⟩) := by
  cases he : (s.supervisor t).overload with
  | true =>
    rcases Nat.lt_or_ge (s.crusher t).resumeLevel power with hp | hp
    · simp [State.judgeOverload_of_resume_lt he hp, he, hp]
    · simp [State.judgeOverload_of_le_resume he hp, State.endOverload_supervisor, Nat.not_lt.mpr hp]
  | false =>
    rcases Nat.lt_or_ge power (s.crusher t).overloadLevel with hp | hp
    · simp [State.judgeOverload_of_lt_level he hp, he, hp]
    · simp [State.judgeOverload_of_level_le he hp, he, Nat.not_lt.mpr hp]

/-- The judging for overload leaves what the judgings after it read: the Sequencer, the parameters and the cause of
a power trip; and it leaves the readings and the trim. -/
theorem State.judgeOverload_keeps (s : State) (t : Train) (power : Nat) :
    (s.judgeOverload t power).inputs = s.inputs ∧ (s.judgeOverload t power).sequencer = s.sequencer ∧
      (s.judgeOverload t power).crusherParams = s.crusherParams ∧
      ((s.judgeOverload t power).supervisor t).tripCause = (s.supervisor t).tripCause ∧
      ((s.judgeOverload t power).governor t).trim = (s.governor t).trim := by
  cases he : (s.supervisor t).overload with
  | true =>
    rcases Nat.lt_or_ge (s.crusher t).resumeLevel power with hp | hp
    · simp [State.judgeOverload_of_resume_lt he hp]
    · rw [State.judgeOverload_of_le_resume he hp, State.endOverload_supervisor]
      exact ⟨rfl, rfl, rfl, rfl, s.endOverload_trim t⟩
  | false =>
    rcases Nat.lt_or_ge power (s.crusher t).overloadLevel with hp | hp
    · simp [State.judgeOverload_of_lt_level he hp]
    · simp [State.judgeOverload_of_level_le he hp]

/-- Power below TRIP_LEVEL with no trip cause standing is no matter for the trip (R142). -/
theorem State.judgePowerTrip_eq_self (hc : (s.supervisor t).tripCause = false)
    (hp : power < (s.crusher t).tripLevel) : s.judgePowerTrip t power = s := by
  simp [State.judgePowerTrip, hc, Nat.not_le.mpr hp]

/-- Only the subject of a touch in APPROACH is judged for load (R100). -/
theorem State.judgeLoad_eq_self (h : s.isSubject t = false ∨ s.sequencer.state ≠ .approach) :
    s.judgeLoad t power = s := by
  rcases h with h | h <;> simp [State.judgeLoad, h]

end judging

/-! ### The power arrival and the expiry of the overload delay -/

/-- The state with a power reading kept as the latest of its train (R50). -/
def State.withPower (s : State) (t : Train) (a : Analog) : State :=
  s.withInputs { s.inputs with power := s.inputs.power.set t (some a) }

section arrival

variable {t : Train} {s : State} {a : Analog} {loop : LoopReading}

theorem exec_powerArrival_present (hon : s.powered = true) (hpresent : s.present t = true)
    (ha : analogOf loop (s.crusher t).powerSpan = a) :
    exec (.powerArrival t loop) s =
      .next ((((s.withPower t a).judgeOverload t a.scaled).judgePowerTrip t a.scaled).judgeLoad t a.scaled) := by
  subst ha
  rw [exec_powerArrival, State.whenPowered_powered hon]
  exact congrArg Host.Outcome.next (if_pos hpresent)

/-- Where neither a trip nor the load of a touch is at hand, an arrival is the judging for overload alone. -/
theorem exec_powerArrival_quiet (hon : s.powered = true) (hpresent : s.present t = true)
    (ha : analogOf loop (s.crusher t).powerSpan = a)
    (htouch : s.isSubject t = false ∨ s.sequencer.state ≠ .approach)
    (hcause : (s.supervisor t).tripCause = false) (htrip : a.scaled < (s.crusher t).tripLevel) :
    exec (.powerArrival t loop) s = .next ((s.withPower t a).judgeOverload t a.scaled) := by
  obtain ⟨-, hsequencer, hparams, htripCause, -⟩ := (s.withPower t a).judgeOverload_keeps t a.scaled
  rw [exec_powerArrival_present hon hpresent ha, State.judgePowerTrip_eq_self (htripCause.trans hcause),
    State.judgeLoad_eq_self]
  · rw [State.isSubject, hsequencer]
    exact htouch
  · rw [State.crusher, hparams]
    exact htrip

/-- What any arrival of a present train leaves of its overload, whatever trip or touch it ends or begins. -/
theorem exec_powerArrival_overload (hon : s.powered = true) (hpresent : s.present t = true)
    (ha : analogOf loop (s.crusher t).powerSpan = a) :
    ∃ b, exec (.powerArrival t loop) s = .next b ∧
      KeepsOverload t ((s.withPower t a).judgeOverload t a.scaled) b :=
  ⟨_, exec_powerArrival_present hon hpresent ha,
    ((KeepsOverload.refl _).judgePowerTrip a.scaled).judgeLoad a.scaled⟩

/-- The trim floor and the hold are one change of the Governor (R120, R127). -/
theorem State.floorAndHold_eq (s : State) (t : Train) (c : Hold) :
    s.floorAndHold t c = s.modGovernor t fun g => (g.floorTrim (s.feeder t)).hold c := by
  cases t <;> rfl

/-- The expiry of the overload delay begins the episode: the trim floor, the hold, the report (R140, R120). -/
theorem exec_overloadDelayExpiry_due {k : Timer} (hon : s.powered = true)
    (hk : (s.supervisor t).overloadTimer = some k) (hdue : k.length ≤ elapsed s.now k.start) :
    exec (.overloadDelayExpiry t) s =
      .next
        (((s.modSupervisor t fun v => { v with overload := true, overloadTimer := none }).modGovernor t fun g =>
          (g.floorTrim (s.feeder t)).hold .overload).modConditions fun l =>
            l.onset .overload (.crusher t) none s.stamp) := by
  have hexpired : timerExpired (s.supervisor t).overloadTimer s.now = true := by
    simpa [hk, timerExpired, Timer.expired] using hdue
  rw [exec_overloadDelayExpiry, State.whenPowered_powered hon, State.overloadDelayExpiry, if_pos hexpired]
  dsimp only
  rw [State.floorAndHold_eq]
  rfl

end arrival

/-- Settles O35: the judging for overload gives each case its effect, and the judgings after it keep that. -/
theorem overloadEpisodesFollowThePower : Obligations.OverloadEpisodesFollowThePower := by
  refine ⟨fun u loop s hon hpresent => ?_, fun u k s hon hk hdue => exec_overloadDelayExpiry_due hon hk hdue⟩
  intro a kept
  refine ⟨?_, fun htouch hcause htrip => ?_⟩
  · obtain ⟨t, hexec, after⟩ : ∃ t, exec (.powerArrival u loop) s = .next t ∧
        KeepsOverload u (kept.judgeOverload u a.scaled) t := exec_powerArrival_overload hon hpresent rfl
    obtain ⟨hepisode, hdelay⟩ := kept.judgeOverload_supervisor u a.scaled
    obtain ⟨hinputs, -, -, -, htrim⟩ := kept.judgeOverload_keeps u a.scaled
    refine ⟨t, hexec, after.inputs.trans hinputs, after.episode.trans hepisode, after.delay.trans hdelay,
      after.trim.trans htrim, fun he hp => ?_⟩
    have hend : kept.judgeOverload u a.scaled = kept.endOverload u := State.judgeOverload_of_le_resume he hp
    rw [hend] at after
    exact ⟨after.hold.trans (kept.endOverload_hold u), after.unlisted (kept.endOverload_unlisted u)⟩
  · have hexec := exec_powerArrival_quiet (a := a) hon hpresent rfl htouch hcause htrip
    have hcase {b : State} (hb : kept.judgeOverload u a.scaled = b) : exec (.powerArrival u loop) s = .next b :=
      hexec.trans (congrArg Host.Outcome.next hb)
    exact ⟨fun he hp => hcase (State.judgeOverload_of_level_le he hp),
      fun he hp => hcase (State.judgeOverload_of_lt_level he hp),
      fun he hp => hcase (State.judgeOverload_of_resume_lt he hp),
      fun he hp => hcase (State.judgeOverload_of_le_resume he hp)⟩

end Sys2Proof.Machine
end

section
/-! PROOFS. What an onset report and the end of a cause do to the Condition List (R150 to R152, R156): each case of
a report as an equation, and that the List's law holds after it. -/

namespace Sys2Proof.Machine

/-! ### Entries and their names -/

theorem Entry.name_fresh (code : Code) (sub : Subject) (stamp : Stamp) (detail : Option Detail) :
    (Entry.fresh code sub stamp detail).name = (code, sub) := rfl

theorem Entry.named_iff {code : Code} {sub : Subject} {e : Entry} :
    e.named code sub = true ↔ e.name = (code, sub) := by
  simp [Entry.named, Entry.name]

theorem Entry.named_eq_false_iff {code : Code} {sub : Subject} {e : Entry} :
    e.named code sub = false ↔ e.name ≠ (code, sub) := by
  rw [← Bool.not_eq_true, Entry.named_iff]

theorem ConditionList.listed_eq_false_iff_name {l : ConditionList} {code : Code} {sub : Subject} :
    l.listed code sub = false ↔ ∀ e ∈ l.entries, e.name ≠ (code, sub) := by
  simp only [listed_eq_false_iff, Entry.named_eq_false_iff]

section picked

variable {before after : List Entry} {e : Entry}

/-- Where the names are distinct, no other entry has the name of the one picked out. -/
theorem named_eq_false_of_nodup (h : ((before ++ e :: after).map Entry.name).Nodup) :
    ∀ d ∈ before ++ after, d.named e.code e.subject = false := by
  intro d hd
  have hfresh : e.name ∉ (before ++ after).map Entry.name := by
    rw [List.map_append, List.map_cons, List.nodup_middle] at h
    rw [List.map_append]
    exact h.notMem
  exact Entry.named_eq_false_iff.mpr fun hname => hfresh (List.mem_map.mpr ⟨d, hd, hname⟩)

/-- A change made to the entries of a name changes nothing where none has that name. -/
theorem map_named_of_unnamed {es : List Entry} {code : Code} {sub : Subject} (f : Entry → Entry)
    (h : ∀ d ∈ es, d.named code sub = false) :
    (es.map fun d => if d.named code sub then f d else d) = es := by
  conv_rhs => rw [← List.map_id es]
  exact List.map_congr_left fun d hd => by simp [h d hd]

/-- A change made to the entries of a name changes the one entry of that name, in its place. -/
theorem map_named_of_nodup (h : ((before ++ e :: after).map Entry.name).Nodup) (f : Entry → Entry) :
    ((before ++ e :: after).map fun d => if d.named e.code e.subject then f d else d) =
      before ++ f e :: after := by
  obtain ⟨hbefore, hafter⟩ := List.forall_mem_append.mp (named_eq_false_of_nodup h)
  rw [List.map_append, List.map_cons, map_named_of_unnamed f hbefore, map_named_of_unnamed f hafter,
    if_pos (Entry.named_iff.mpr rfl)]

/-- A removal among the entries of a name removes nothing where none has that name. -/
theorem filter_named_of_unnamed {es : List Entry} {code : Code} {sub : Subject} (gone : Entry → Bool)
    (h : ∀ d ∈ es, d.named code sub = false) :
    (es.filter fun d => !(d.named code sub && gone d)) = es :=
  List.filter_eq_self.mpr fun d hd => by simp [h d hd]

/-- A removal among the entries of a name takes the one entry of that name or leaves all. -/
theorem filter_named_of_nodup (h : ((before ++ e :: after).map Entry.name).Nodup) (gone : Entry → Bool) :
    ((before ++ e :: after).filter fun d => !(d.named e.code e.subject && gone d)) =
      if gone e then before ++ after else before ++ e :: after := by
  obtain ⟨hbefore, hafter⟩ := List.forall_mem_append.mp (named_eq_false_of_nodup h)
  have hself : e.named e.code e.subject = true := Entry.named_iff.mpr rfl
  rw [List.filter_append, List.filter_cons, filter_named_of_unnamed gone hbefore,
    filter_named_of_unnamed gone hafter]
  cases gone e <;> simp [hself]

theorem sublist_of_split {es : List Entry} (h : es = before ++ e :: after) : (before ++ after).Sublist es :=
  h ▸ (List.sublist_cons_self e after).append_left before

end picked

/-! ### The oldest TRIP entry and the first-out record (R156) -/

theorem oldestTrip_cons (e : Entry) (es : List Entry) :
    oldestTrip (e :: es) = if e.code.cls = .trip then some e.firstOut else oldestTrip es := by
  by_cases h : e.code.cls = .trip <;> simp [oldestTrip, h]

theorem oldestTrip_append (xs ys : List Entry) :
    oldestTrip (xs ++ ys) = (oldestTrip xs).or (oldestTrip ys) := by
  simp [oldestTrip, Option.map_or]

/-- An entry that is no TRIP does not count. -/
theorem oldestTrip_middle {e : Entry} (he : e.code.cls ≠ .trip) (before after : List Entry) :
    oldestTrip (before ++ e :: after) = oldestTrip (before ++ after) := by
  rw [oldestTrip_append, oldestTrip_append, oldestTrip_cons, if_neg he]

/-- A change that leaves codes, subjects and stamps leaves the oldest TRIP entry. -/
theorem oldestTrip_map {f : Entry → Entry} (hf : ∀ e, (f e).firstOut = e.firstOut) (es : List Entry) :
    oldestTrip (es.map f) = oldestTrip es := by
  induction es with
  | nil => rfl
  | cons e es ih =>
    have hcode : (f e).code = e.code := congrArg FirstOut.code (hf e)
    rw [List.map_cons, oldestTrip_cons, oldestTrip_cons, hcode, hf, ih]

/-- After a removal the record, where it was the oldest TRIP entry, is so again: the entry it names is the oldest
if it stays. -/
theorem judgeFirstOut_filter {es : List Entry} (h : (es.map Entry.name).Nodup) (keep : Entry → Bool) :
    judgeFirstOut (es.filter keep) (oldestTrip es) = oldestTrip (es.filter keep) := by
  cases hfind : es.find? fun e => e.code.cls = .trip with
  | none =>
    have hnone : ∀ e ∈ es, e.code.cls ≠ .trip := by simpa using hfind
    have hkept : oldestTrip (es.filter keep) = none := by
      simpa [oldestTrip] using fun e he _ => hnone e he
    rw [hkept, oldestTrip, hfind]
    rfl
  | some e =>
    have he : oldestTrip es = some e.firstOut := by rw [oldestTrip, hfind]; rfl
    rw [he, judgeFirstOut]
    split
    · -- the entry named is still listed, and the entries before it are no TRIPs
      next hlisted =>
      obtain ⟨d, hd, hname⟩ := List.any_eq_true.mp hlisted
      obtain ⟨hmem, hkeep⟩ := List.mem_filter.mp hd
      have hde : d = e := List.inj_on_of_nodup_map h hmem (List.mem_of_find?_eq_some hfind)
        (Entry.named_iff.mp hname)
      subst hde
      obtain ⟨htrip, before, after, rfl, hbefore⟩ := List.find?_eq_some_iff_append.mp hfind
      have hstays : ((before ++ d :: after).filter keep).find? (fun e => e.code.cls = .trip) = some d := by
        refine List.find?_eq_some_iff_append.mpr ⟨htrip, before.filter keep, after.filter keep, ?_, ?_⟩
        · rw [List.filter_append, List.filter_cons_of_pos hkeep]
        · exact fun a ha => hbefore a (List.mem_of_mem_filter ha)
      rw [oldestTrip, hstays]
      rfl
    · rfl

theorem ConditionList.firstOut_appended (l : ConditionList) (e : Entry) :
    (l.appended e).firstOut =
      if l.firstOut = none ∧ e.code.cls = .trip then some e.firstOut else l.firstOut := by
  cases h : l.firstOut <;> simp [ConditionList.appended, h]

/-! ### What keeps the List's law (R150) -/

section law

variable {l : ConditionList}

theorem ConditionList.lawful.nodup_names (h : l.lawful) : (l.entries.map Entry.name).Nodup := by
  obtain ⟨-, hnodup, -, -, -, -⟩ := h
  exact hnodup

/-- A change of entries that leaves their codes, subjects and stamps keeps the law, if it makes no cause inactive
but a latched one's and keeps the counts in range. -/
theorem ConditionList.lawful.map (h : l.lawful) {f : Entry → Entry} (hf : ∀ e, (f e).firstOut = e.firstOut)
    (hactive : ∀ e ∈ l.entries, (f e).active = false → e.code.latched = true)
    (hcount : ∀ e ∈ l.entries, 1 ≤ (f e).count ∧ (f e).count ≤ 255) :
    ({ l with entries := l.entries.map f } : ConditionList).lawful := by
  obtain ⟨hlength, hnodup, -, -, hoverflow, hfirst⟩ := h
  have hcode (e : Entry) : (f e).code = e.code := congrArg FirstOut.code (hf e)
  have hname (e : Entry) : (f e).name = e.name := congrArg (fun r : FirstOut => (r.code, r.subject)) (hf e)
  refine ⟨by simpa using hlength, ?_, ?_, by simpa using hcount, hoverflow, ?_⟩
  · rw [List.map_map, show Entry.name ∘ f = Entry.name from funext hname]
    exact hnodup
  · simpa [hcode] using hactive
  · exact hfirst.trans (oldestTrip_map hf l.entries).symm

theorem ConditionList.lawful.without (h : l.lawful) (gone : Entry → Bool) : (l.without gone).lawful := by
  obtain ⟨hlength, hnodup, hactive, hcount, hoverflow, hfirst⟩ := h
  refine ⟨(List.length_filter_le ..).trans hlength, hnodup.sublist (List.filter_sublist.map _),
    fun e he => hactive e (List.mem_of_mem_filter he), fun e he => hcount e (List.mem_of_mem_filter he),
    hoverflow, ?_⟩
  rw [ConditionList.without, hfirst]
  exact judgeFirstOut_filter hnodup _

theorem ConditionList.lawful.overflowed (h : l.lawful) : l.overflowed.lawful := by
  obtain ⟨hlength, hnodup, hactive, hcount, -, hfirst⟩ := h
  exact ⟨hlength, hnodup, hactive, hcount, min_le_right .., hfirst⟩

theorem ConditionList.lawful.appended_fresh (h : l.lawful) (hroom : l.entries.length < 16) {code : Code}
    {sub : Subject} (hnew : l.listed code sub = false) (stamp : Stamp) (detail : Option Detail) :
    (l.appended (Entry.fresh code sub stamp detail)).lawful := by
  obtain ⟨hlength, hnodup, hactive, hcount, hoverflow, hfirst⟩ := h
  have hname := listed_eq_false_iff_name.mp hnew
  refine ⟨?_, ?_, ?_, ?_, hoverflow, ?_⟩
  · simpa [ConditionList.appended] using hroom
  · simpa [ConditionList.appended, List.nodup_append, hnodup, Entry.name_fresh] using hname
  · exact List.forall_mem_append.mpr ⟨hactive, by simp [Entry.fresh]⟩
  · exact List.forall_mem_append.mpr ⟨hcount, by simp [Entry.fresh]⟩
  · rw [firstOut_appended, ConditionList.appended, oldestTrip_append, ← hfirst, oldestTrip_cons]
    cases l.firstOut <;> simp [oldestTrip]

/-- An entry that is no TRIP may go without a new judging of the first-out record. -/
theorem ConditionList.lawful.evicted (h : l.lawful) {before after : List Entry} {e : Entry}
    (hl : l.entries = before ++ e :: after) (he : e.code.cls ≠ .trip) :
    ({ l with entries := before ++ after } : ConditionList).lawful := by
  obtain ⟨hlength, hnodup, hactive, hcount, hoverflow, hfirst⟩ := h
  have hsub := sublist_of_split hl
  exact ⟨hsub.length_le.trans hlength, hnodup.sublist (hsub.map _), fun d hd => hactive d (hsub.subset hd),
    fun d hd => hcount d (hsub.subset hd), hoverflow, by rw [hfirst, hl, oldestTrip_middle he]⟩

end law

/-! ### The entry evicted (R151) -/

section eviction

variable {before after : List Entry} {e : Entry}

theorem findIdx?_of_split {p : Entry → Bool} (hbefore : ∀ d ∈ before, p d = false) (he : p e = true) :
    (before ++ e :: after).findIdx? p = some before.length := by
  simp [List.findIdx?_append, List.findIdx?_cons, List.findIdx?_eq_none_iff.mpr hbefore, he]

theorem exists_split_of_findIdx? {es : List Entry} {p : Entry → Bool} {i : Nat} (h : es.findIdx? p = some i) :
    ∃ before e after, es = before ++ e :: after ∧ before.length = i ∧ p e = true := by
  obtain ⟨hi, hp, -⟩ := List.findIdx?_eq_some_iff_getElem.mp h
  refine ⟨es.take i, es[i], es.drop (i + 1), ?_, by simp [hi.le], hp⟩
  rw [List.getElem_cons_drop, List.take_append_drop]

theorem eraseIdx_length_split (before after : List Entry) (e : Entry) :
    (before ++ e :: after).eraseIdx before.length = before ++ after := by
  simp [List.eraseIdx_append_of_length_le]

/-- The oldest INFO or HOLD entry with its cause inactive goes first. -/
theorem evictionPlace_of_inactive (he : e.code.cls ≠ .trip) (hinactive : e.active = false)
    (hbefore : ∀ d ∈ before, d.code.cls = .trip ∨ d.active = true) :
    evictionPlace (before ++ e :: after) = some before.length := by
  have hplace := findIdx?_of_split (e := e) (after := after) (p := fun e => e.code.cls ≠ .trip && !e.active)
    (by simpa using fun d hd hcls => (hbefore d hd).resolve_left hcls) (by simp [he, hinactive])
  rw [evictionPlace, hplace]

/-- With every such cause active the oldest INFO or HOLD entry goes. -/
theorem evictionPlace_of_active (he : e.code.cls ≠ .trip)
    (hactive : ∀ d ∈ before ++ e :: after, d.code.cls = .trip ∨ d.active = true)
    (hbefore : ∀ d ∈ before, d.code.cls = .trip) :
    evictionPlace (before ++ e :: after) = some before.length := by
  have hnone : (before ++ e :: after).findIdx? (fun e => e.code.cls ≠ .trip && !e.active) = none := by
    refine List.findIdx?_eq_none_iff.mpr fun d hd => ?_
    rcases hactive d hd with h | h <;> simp [h]
  have hplace := findIdx?_of_split (e := e) (after := after) (p := fun e => e.code.cls ≠ .trip)
    (by simpa using hbefore) (by simpa using he)
  rw [evictionPlace, hnone]
  exact hplace

/-- The entry evicted is an INFO or HOLD entry. -/
theorem exists_split_of_evictionPlace {es : List Entry} {i : Nat} (h : evictionPlace es = some i) :
    ∃ before e after, es = before ++ e :: after ∧ before.length = i ∧ e.code.cls ≠ .trip := by
  unfold evictionPlace at h
  split at h
  · next hinactive =>
    cases h
    obtain ⟨before, e, after, hes, hi, hp⟩ := exists_split_of_findIdx? hinactive
    exact ⟨before, e, after, hes, hi, (by simpa using hp : _ ∧ _).1⟩
  · obtain ⟨before, e, after, hes, hi, hp⟩ := exists_split_of_findIdx? h
    exact ⟨before, e, after, hes, hi, by simpa using hp⟩

end eviction

/-! ### An onset report, case by case (R150) -/

section onset

variable {l : ConditionList} {code : Code} {sub : Subject} {detail : Option Detail} {stamp : Stamp}

theorem ConditionList.onset_listed (h : l.listed code sub = true) :
    l.onset code sub detail stamp =
      { l with entries := l.entries.map fun e => if e.named code sub then e.recurred detail else e } :=
  if_pos h

theorem ConditionList.onset_room (h : l.listed code sub = false) (hroom : l.entries.length < 16) :
    l.onset code sub detail stamp = l.appended (Entry.fresh code sub stamp detail) := by
  rw [ConditionList.onset, if_neg (Bool.eq_false_iff.mp h)]
  exact if_pos hroom

theorem ConditionList.onset_full (h : l.listed code sub = false) (hfull : l.entries.length = 16)
    (hcls : code.cls ≠ .trip) : l.onset code sub detail stamp = l.overflowed := by
  rw [ConditionList.onset, if_neg (Bool.eq_false_iff.mp h), if_neg (hfull ▸ lt_irrefl _), if_neg hcls]

/-- The eviction comes first, then the new entry at the tail. -/
theorem ConditionList.onset_evicting (h : l.listed code sub = false) (hfull : l.entries.length = 16)
    (hcls : code.cls = .trip) {before after : List Entry} {e : Entry} (hl : l.entries = before ++ e :: after)
    (hplace : evictionPlace l.entries = some before.length) :
    l.onset code sub detail stamp =
      (({ l with entries := before ++ after } : ConditionList).overflowed).appended
        (Entry.fresh code sub stamp detail) := by
  rw [ConditionList.onset, if_neg (Bool.eq_false_iff.mp h), if_neg (hfull ▸ lt_irrefl _), if_pos hcls, hplace]
  dsimp only
  rw [hl, eraseIdx_length_split]

/-- A List full of TRIP entries gives none up (log 17). -/
theorem ConditionList.onset_nothing_evicted (h : l.listed code sub = false) (hfull : l.entries.length = 16)
    (hcls : code.cls = .trip) (hplace : evictionPlace l.entries = none) :
    l.onset code sub detail stamp = l.overflowed := by
  rw [ConditionList.onset, if_neg (Bool.eq_false_iff.mp h), if_neg (hfull ▸ lt_irrefl _), if_pos hcls, hplace]

theorem Entry.recurred_count_range (e : Entry) (d : Option Detail) :
    1 ≤ (e.recurred d).count ∧ (e.recurred d).count ≤ 255 :=
  ⟨le_min (Nat.le_add_left ..) (by decide), min_le_right ..⟩

/-- An onset report keeps the List's law. -/
theorem ConditionList.lawful.onset (h : l.lawful) (code : Code) (sub : Subject) (detail : Option Detail)
    (stamp : Stamp) : (l.onset code sub detail stamp).lawful := by
  have ⟨hlength, _, hactive, hcount, _, _⟩ := h
  cases hlisted : l.listed code sub with
  | true =>
    rw [onset_listed hlisted]
    refine h.map (fun e => ?_) (fun e he => ?_) (fun e he => ?_)
    · split <;> rfl
    · split
      · exact nofun
      · exact hactive e he
    · split
      · exact e.recurred_count_range detail
      · exact hcount e he
  | false =>
    rcases hlength.lt_or_eq with hroom | hfull
    · rw [onset_room hlisted hroom]
      exact h.appended_fresh hroom hlisted stamp detail
    by_cases hcls : code.cls = .trip
    · cases hplace : evictionPlace l.entries with
      | none =>
        rw [onset_nothing_evicted hlisted hfull hcls hplace]
        exact h.overflowed
      | some i =>
        obtain ⟨before, e, after, hl, rfl, he⟩ := exists_split_of_evictionPlace hplace
        rw [onset_evicting hlisted hfull hcls hl hplace]
        have hroom : (before ++ after).length < 16 := by simp [← hfull, hl]
        have hnew : ∀ d ∈ before ++ after, d.name ≠ (code, sub) := fun d hd =>
          listed_eq_false_iff_name.mp hlisted d ((sublist_of_split hl).subset hd)
        exact (h.evicted hl he).overflowed.appended_fresh hroom (listed_eq_false_iff_name.mpr hnew) stamp detail
    · rw [onset_full hlisted hfull hcls]
      exact h.overflowed

theorem ConditionList.overflow_overflowed (l : ConditionList) :
    l.overflowed.overflow = if l.overflow < 65535 then l.overflow + 1 else 65535 := by
  change min (l.overflow + 1) 65535 = _
  split <;> omega

theorem Entry.recurred_eq (e : Entry) (detail : Option Detail) :
    e.recurred detail =
      { e with
        count := if e.count < 255 then e.count + 1 else 255
        acknowledged := false
        active := true
        detail := if detail.isSome then detail else e.detail } := by
  have hcount : min (e.count + 1) Config.maxOccurrence = if e.count < 255 then e.count + 1 else 255 := by
    change min (e.count + 1) 255 = _
    split <;> omega
  cases detail <;> simp [Entry.recurred, hcount]

end onset

/-! ### The end of a cause (R152) -/

section causeEnded

variable {l : ConditionList} {before after : List Entry} {e : Entry} {code : Code} {sub : Subject}

theorem ConditionList.lawful.causeEnded (h : l.lawful) (code : Code) (sub : Subject) :
    (l.causeEnded code sub).lawful := by
  unfold ConditionList.causeEnded
  split
  · next hlatched =>
    have hw := h.without fun e => e.named code sub && e.acknowledged
    have ⟨_, _, hactive, hcount, _, _⟩ := hw
    refine hw.map (fun e => ?_) (fun e he => ?_) (fun e he => ?_)
    · split <;> rfl
    · split
      · next hname =>
        obtain ⟨rfl, -⟩ := Prod.mk.inj (Entry.named_iff.mp hname)
        exact fun _ => hlatched
      · exact hactive e he
    · split <;> exact hcount e he
  · exact h.without _

theorem ConditionList.overflow_causeEnded (l : ConditionList) (code : Code) (sub : Subject) :
    (l.causeEnded code sub).overflow = l.overflow := by
  unfold ConditionList.causeEnded
  split <;> rfl

/-- A removal that finds nothing leaves the List, and with it a lawful first-out record. -/
theorem ConditionList.lawful.without_eq_self (h : l.lawful) {gone : Entry → Bool}
    (hgone : (l.entries.filter fun e => !gone e) = l.entries) : l.without gone = l := by
  have ⟨_, _, _, _, _, hfirst⟩ := h
  obtain ⟨-, -, -, -, -, hjudged⟩ := h.without gone
  have hentries : (l.without gone).entries = l.entries := hgone
  rw [hentries, ← hfirst] at hjudged
  calc l.without gone = ⟨(l.without gone).entries, l.overflow, (l.without gone).firstOut⟩ := rfl
    _ = l := by rw [hentries, hjudged]

theorem ConditionList.causeEnded_unlisted (h : l.lawful) (hnew : l.listed code sub = false) :
    l.causeEnded code sub = l := by
  have hnamed := listed_eq_false_iff.mp hnew
  unfold ConditionList.causeEnded
  split
  · rw [h.without_eq_self (filter_named_of_unnamed _ hnamed)]
    dsimp only
    rw [map_named_of_unnamed _ hnamed]
  · exact h.without_eq_self (List.filter_eq_self.mpr fun e he => by simp [hnamed e he])

theorem ConditionList.entries_causeEnded_of_latched (hlatched : code.latched = true) :
    (l.causeEnded code sub).entries =
      (l.entries.filter fun e => !(e.named code sub && e.acknowledged)).map fun e =>
        if e.named code sub then { e with active := false } else e := by
  rw [ConditionList.causeEnded, if_pos hlatched]
  rfl

theorem ConditionList.entries_causeEnded_of_not_latched (hlatched : code.latched = false) :
    (l.causeEnded code sub).entries = l.entries.filter fun e => !(e.named code sub && true) := by
  rw [ConditionList.causeEnded, if_neg (Bool.eq_false_iff.mp hlatched)]
  simp only [Bool.and_true]
  rfl

/-- An unlatched entry leaves with its cause, and so does an acknowledged one. -/
theorem ConditionList.lawful.entries_causeEnded_removed (h : l.lawful) (hl : l.entries = before ++ e :: after)
    (hgone : e.code.latched = false ∨ e.acknowledged = true) :
    (l.causeEnded e.code e.subject).entries = before ++ after := by
  have hnodup := h.nodup_names
  rw [hl] at hnodup
  cases hlatched : e.code.latched with
  | false => rw [entries_causeEnded_of_not_latched hlatched, hl, filter_named_of_nodup hnodup, if_pos rfl]
  | true =>
    have hack : e.acknowledged = true := hgone.resolve_left (by simp [hlatched])
    rw [entries_causeEnded_of_latched hlatched, hl, filter_named_of_nodup hnodup, if_pos hack,
      map_named_of_unnamed _ (named_eq_false_of_nodup hnodup)]

/-- A latched entry not yet acknowledged stays in its place with its cause inactive. -/
theorem ConditionList.lawful.entries_causeEnded_kept (h : l.lawful) (hl : l.entries = before ++ e :: after)
    (hlatched : e.code.latched = true) (hack : e.acknowledged = false) :
    (l.causeEnded e.code e.subject).entries = before ++ { e with active := false } :: after := by
  have hnodup := h.nodup_names
  rw [hl] at hnodup
  rw [ConditionList.entries_causeEnded_of_latched hlatched, hl, filter_named_of_nodup hnodup,
    if_neg (Bool.eq_false_iff.mp hack), map_named_of_nodup hnodup]

end causeEnded

/-- Settles O21: each case of a report by its equation, the law by what keeps it. -/
theorem reportsActOnTheList : Obligations.ReportsActOnTheList := by
  refine ⟨fun l code sub detail stamp hlaw => ?_, fun l code sub hlaw => ?_⟩
  · refine ⟨hlaw.onset code sub detail stamp, ?recurrence, fun hnew hroom => ?room, fun hnew hfull hcls => ?full,
      fun before e after hnew hfull hcls hl he hchosen => ?evicting⟩
    case recurrence =>
      rintro before e after hl rfl rfl
      have hlisted : l.listed e.code e.subject = true :=
        List.any_eq_true.mpr ⟨e, by simp [hl], Entry.named_iff.mpr rfl⟩
      rw [ConditionList.onset_listed hlisted, hl, map_named_of_nodup (hl ▸ hlaw.nodup_names),
        Entry.recurred_eq]
    case room =>
      rw [ConditionList.onset_room (ConditionList.listed_eq_false_iff_name.mpr hnew) hroom]
      exact ⟨rfl, rfl, ConditionList.firstOut_appended ..⟩
    case full =>
      rw [ConditionList.onset_full (ConditionList.listed_eq_false_iff_name.mpr hnew) hfull hcls,
        ← ConditionList.overflow_overflowed]
      rfl
    case evicting =>
      have hplace : evictionPlace l.entries = some before.length := by
        rw [hl] at hchosen ⊢
        rcases hchosen with ⟨hinactive, hbefore⟩ | ⟨hactive, hbefore⟩
        · exact evictionPlace_of_inactive he hinactive hbefore
        · exact evictionPlace_of_active he hactive hbefore
      rw [ConditionList.onset_evicting (ConditionList.listed_eq_false_iff_name.mpr hnew) hfull hcls hl hplace]
      refine ⟨rfl, ConditionList.overflow_overflowed _, ?_⟩
      rw [ConditionList.firstOut_appended]
      simp [ConditionList.overflowed, Entry.fresh, Entry.firstOut, hcls]
  · refine ⟨hlaw.causeEnded code sub, l.overflow_causeEnded code sub,
      fun hnew => ConditionList.causeEnded_unlisted hlaw (ConditionList.listed_eq_false_iff_name.mpr hnew), ?_⟩
    rintro before e after hl rfl rfl
    exact ⟨hlaw.entries_causeEnded_removed hl, hlaw.entries_causeEnded_kept hl⟩

end Sys2Proof.Machine
end

section
/-! PROOFS. What a read does (R47, R48, R110, R159, R163, R175 to R179): the lengths of the bodies read, that no body
speaks of the links, and that a read is answered DONE with its body and leaves all but the reply. -/

namespace Sys2Proof

/-! ### The reads among the kinds, and the numbers of stations (R1, R174) -/

/-- Every link's role allows the reads (R174). -/
theorem Kind.allowed_of_isRead {k : Kind} (hk : k.isRead = true) (l : Link) : k.allowed l = true := by
  cases k with
  | readStation | readWaiting | readConditions | readParameter | readZeroRecord | readClock => rfl
  | _ => cases hk

theorem Station.ofNumber_byteOf_number (st : Station) :
    Station.ofNumber (byteOf st.number).toNat = some st := by
  obtain ⟨t, role⟩ := st
  cases t <;> cases role <;> rfl

end Sys2Proof

namespace Sys2Proof.Machine

/-! ### The lengths of fields and of bodies (R178, R179) -/

@[simp] theorem length_f1 (n : Nat) : (f1 n).length = 1 := rfl

@[simp] theorem length_f2 (n : Nat) : (f2 n).length = 2 := rfl

@[simp] theorem length_f4 (n : Nat) : (f4 n).length = 4 := rfl

@[simp] theorem length_f2s (n : Int) : (f2s n).length = 2 := rfl

@[simp] theorem length_f2opt (o : Option Nat) : (f2opt o).length = 2 := by cases o <;> rfl

@[simp] theorem length_f4opt (o : Option Nat) : (f4opt o).length = 4 := by cases o <;> rfl

@[simp] theorem length_appliedBytes (a : Option Applied) : (appliedBytes a).length = 2 := by cases a <;> rfl

@[simp] theorem length_driveBytes (d : Option Drive) : (driveBytes d).length = 3 := by cases d <;> rfl

@[simp] theorem length_pendingBytes (d : Option PendingDrive) : (pendingBytes d).length = 3 := by
  simp [pendingBytes]

@[simp] theorem length_moveBytes (m : Option Move) : (moveBytes m).length = 5 := by cases m <;> rfl

@[simp] theorem length_historyBytes (h : List Nat) : (historyBytes h).length = 17 := rfl

@[simp] theorem length_outcomeBytes (o : Option TouchOutcome) : (outcomeBytes o).length = 18 := by cases o <;> rfl

@[simp] theorem length_firstOutBytes (f : Option FirstOut) : (firstOutBytes f).length = 7 := by cases f <;> rfl

@[simp] theorem length_slotBytes (i : Nat) (r : Slot) : (slotBytes i r).length = 15 := rfl

@[simp] theorem Entry.length_bytes (e : Entry) : e.bytes.length = 11 := rfl

@[simp] theorem State.length_measuredValue (s : State) (st : Station) : (s.measuredValue st).length = 2 := by
  unfold State.measuredValue
  cases st.role <;> simp

@[simp] theorem State.length_stationCommon (s : State) (st : Station) : (s.stationCommon st).length = 21 := by
  simp [State.stationCommon]

@[simp] theorem State.length_stationCrusher (s : State) (t : Train) : (s.stationCrusher t).length = 72 := by
  unfold State.stationCrusher
  simp

@[simp] theorem State.length_stationFeeder (s : State) (t : Train) : (s.stationFeeder t).length = 12 := by
  simp [State.stationFeeder]

theorem State.length_stationBody (s : State) (st : Station) :
    (s.stationBody st).length = match st.role with | .feeder => 33 | .crusher => 93 := by
  obtain ⟨t, role⟩ := st
  cases role <;> simp [State.stationBody]

theorem State.take_two_stationBody (s : State) (st : Station) :
    (s.stationBody st).take 2 = [byteOf st.number, byteOf (s.station st).mode.code] := rfl

/-- The slots that READ WAITING lists are those the link's own requests hold, wherever the count starts. -/
theorem length_waitingOf (l : Link) (i : Nat) (slots : List (Option Slot)) :
    (waitingOf l i slots).length = slots.countP fun o => o.any fun r => r.source = l := by
  induction slots generalizing i with
  | nil => rfl
  | cons o rest ih =>
    cases o with
    | none => simp [waitingOf, ih]
    | some r => by_cases hr : r.source = l <;> simp [waitingOf, ih, hr]

theorem State.length_waitingBody (s : State) (l : Link) :
    (s.waitingBody l).length = 1 + 15 * s.board.slots.countP fun o => o.any fun r => r.source = l := by
  simp [State.waitingBody, length_waitingOf, List.length_flatMap, Nat.mul_comm]

theorem State.length_conditionsBody (s : State) :
    s.conditionsBody.length = 11 + 11 * s.conditions.entries.length := by
  simp [State.conditionsBody, List.length_flatMap]
  omega

theorem State.length_zeroBody (s : State) (t : Train) : (s.zeroBody t).length = 39 := by
  simp [State.zeroBody]

/-- The flags and codes of READ CLOCK written out (R178, R179). -/
theorem State.clockBody_eq (s : State) :
    s.clockBody =
      wordBytes (BitVec.ofNat 32 s.time.seconds) ++ halfBytes (BitVec.ofNat 16 s.time.millis) ++
        wordBytes (BitVec.ofNat 32 s.time.lineClock) ++ [if s.time.clockSet then 1#8 else 0#8] ++
        [match s.store.writing.map WriteJob.sec with
          | none => 0#8
          | some .profile => 1#8
          | some .zero => 2#8
          | some .wear => 3#8] ++
        [byteOf ((if s.store.dirty.profile then 1 else 0) + (if s.store.dirty.zero then 2 else 0) +
          (if s.store.dirty.wear then 4 else 0))] := by
  have hset : f1 (boolCode s.time.clockSet) = [if s.time.clockSet then 1#8 else 0#8] := by
    cases s.time.clockSet <;> rfl
  rw [State.clockBody, hset]
  cases s.store.writing with
  | none => rfl
  | some job => cases job <;> rfl

/-! ### A read is answered with its body (R173, R175, R177) -/

/-- Neither a lock nor a role stands before a read: its owner judges it (R175). -/
theorem State.judged_read {k : Kind} (hk : k.isRead = true) (s : State) (l : Link) (owner : State → Decision) :
    s.judged l k true owner = owner s := by
  simp [State.judged, hk, Kind.allowed_of_isRead hk]

theorem State.modLink_modLink (s : State) (l : Link) (f g : LinkInterface → LinkInterface) :
    (s.modLink l f).modLink l g = s.modLink l fun i => g (f i) := by
  simp [State.modLink, State.link]

theorem State.reply_done_replyBegins (s : State) (l : Link) (tag kind : Byte) (body : List Byte) :
    ((s.replyBegins l).done body).reply l tag kind = s.answered l tag kind (Answer.done body) := by
  rw [Decision.reply, State.done, State.replyBegins, State.modLink_modLink]
  rfl

/-- A read whose owner answers DONE changes nothing but the reply. -/
theorem State.takeRequest_read {s : State} {l : Link} {k : Kind} {owner : State → Decision} {body : List Byte}
    (hs : s.restart = .notTaken) (hk : k.isRead = true)
    (howner : owner (s.replyBegins l) = (s.replyBegins l).done body) (tag : Byte) :
    s.takeRequest l tag k true owner = s.answered l tag k.code (Answer.done body) := by
  rw [State.takeRequest, if_pos hs, State.judged_read hk, howner, State.reply_done_replyBegins]

/-! ### Each owner of a read, where it names what it reads -/

theorem State.ownReadStation_number (s : State) (st : Station) :
    s.ownReadStation (byteOf st.number) = s.done (s.stationBody st) := by
  rw [State.ownReadStation, st.ofNumber_byteOf_number]

theorem State.ownReadZeroRecord_number (s : State) (t : Train) :
    s.ownReadZeroRecord (byteOf (crusherOf t).number) = s.done (s.zeroBody t) := by
  rw [State.ownReadZeroRecord, (crusherOf t).ofNumber_byteOf_number]
  rfl

theorem State.ownReadParameter_named {b number : Byte} {set : ParamSet} {p : Param}
    (hset : ParamSet.ofByte b = some set) (hp : set.param number.toNat = some p) (s : State) :
    s.ownReadParameter b number = s.done (b :: number :: f2 (s.paramValue p)) := by
  simp [State.ownReadParameter, State.withParam, hset, hp]

/-! ### The bodies do not speak of the links -/

theorem State.stationBody_replyBegins (s : State) (l : Link) (st : Station) :
    (s.replyBegins l).stationBody st = s.stationBody st := rfl

theorem State.waitingBody_replyBegins (s : State) (l m : Link) :
    (s.replyBegins l).waitingBody m = s.waitingBody m := rfl

theorem State.conditionsBody_replyBegins (s : State) (l : Link) :
    (s.replyBegins l).conditionsBody = s.conditionsBody := rfl

theorem State.paramValue_replyBegins (s : State) (l : Link) (p : Param) :
    (s.replyBegins l).paramValue p = s.paramValue p := rfl

theorem State.zeroBody_replyBegins (s : State) (l : Link) (t : Train) :
    (s.replyBegins l).zeroBody t = s.zeroBody t := rfl

theorem State.clockBody_replyBegins (s : State) (l : Link) : (s.replyBegins l).clockBody = s.clockBody := rfl

/-! ### The six reads -/

section reads

variable {s : State}

/-- A command that takes a read whose owner answers DONE. -/
theorem exec_read (k : Kind) {i : Instr} {l : Link} {tag : Byte} {owner : State → Decision} {body : List Byte}
    (hs : s.listening) (hi : exec i s = s.whenPowered fun s => s.takeRequest l tag k true owner)
    (hk : k.isRead = true) (howner : owner (s.replyBegins l) = (s.replyBegins l).done body) :
    exec i s = .next (s.answered l tag k.code (Answer.done body)) := by
  obtain ⟨hon, hrestart⟩ := hs
  rw [hi, State.whenPowered_powered hon, State.takeRequest_read hrestart hk howner]

theorem exec_readStation_answered (hs : s.listening) (l : Link) (tag : Byte) (st : Station) :
    exec (.readStation l tag (byteOf st.number)) s =
      .next (s.answered l tag 0x10#8 (Answer.done (s.stationBody st))) :=
  exec_read .readStation hs (exec_readStation ..) rfl
    (by rw [State.ownReadStation_number, State.stationBody_replyBegins])

theorem exec_readWaiting_answered (hs : s.listening) (l : Link) (tag : Byte) :
    exec (.readWaiting l tag) s = .next (s.answered l tag 0x11#8 (Answer.done (s.waitingBody l))) :=
  exec_read .readWaiting hs (exec_readWaiting ..) rfl
    (by rw [State.ownReadWaiting, State.waitingBody_replyBegins])

theorem exec_readConditions_answered (hs : s.listening) (l : Link) (tag : Byte) :
    exec (.readConditions l tag) s = .next (s.answered l tag 0x12#8 (Answer.done s.conditionsBody)) :=
  exec_read .readConditions hs (exec_readConditions ..) rfl
    (by rw [State.ownReadConditions, State.conditionsBody_replyBegins])

theorem exec_readParameter_answered (hs : s.listening) (l : Link) (tag : Byte) {b number : Byte} {set : ParamSet}
    {p : Param} (hset : ParamSet.ofByte b = some set) (hp : set.param number.toNat = some p) :
    exec (.readParameter l tag b number) s =
      .next (s.answered l tag 0x13#8 (Answer.done (b :: number :: f2 (s.paramValue p)))) :=
  exec_read .readParameter hs (exec_readParameter ..) rfl
    (by rw [State.ownReadParameter_named hset hp, State.paramValue_replyBegins])

theorem exec_readZeroRecord_answered (hs : s.listening) (l : Link) (tag : Byte) (t : Train) :
    exec (.readZeroRecord l tag (byteOf (crusherOf t).number)) s =
      .next (s.answered l tag 0x14#8 (Answer.done (s.zeroBody t))) :=
  exec_read .readZeroRecord hs (exec_readZeroRecord ..) rfl
    (by rw [State.ownReadZeroRecord_number, State.zeroBody_replyBegins])

theorem exec_readClock_answered (hs : s.listening) (l : Link) (tag : Byte) :
    exec (.readClock l tag) s = .next (s.answered l tag 0x15#8 (Answer.done s.clockBody)) :=
  exec_read .readClock hs (exec_readClock ..) rfl
    (by rw [State.ownReadClock, State.clockBody_replyBegins])

end reads

/-- Settles O59: each read is answered with its body, and each body has its length. -/
theorem readsChangeNothing : Obligations.ReadsChangeNothing := by
  intro l tag s hs
  refine ⟨fun st => ?station, ?waiting, ?conditions, fun b number set p hset hp => ?parameter, fun u => ?zero,
    ?clock⟩
  case station =>
    exact ⟨s.stationBody st, exec_readStation_answered hs l tag st, s.length_stationBody st,
      s.take_two_stationBody st⟩
  case waiting => exact ⟨s.waitingBody l, exec_readWaiting_answered hs l tag, s.length_waitingBody l⟩
  case conditions =>
    exact ⟨s.conditionsBody, exec_readConditions_answered hs l tag, s.length_conditionsBody⟩
  case parameter => exact exec_readParameter_answered hs l tag hset hp
  case zero => exact ⟨s.zeroBody u, exec_readZeroRecord_answered hs l tag u, s.length_zeroBody u⟩
  case clock =>
    have hclock := exec_readClock_answered hs l tag
    rw [s.clockBody_eq] at hclock
    exact hclock

end Sys2Proof.Machine
end

section
/-! PROOFS. What each primitive change does to the records that the laws speak of, one inversion lemma for each, and
the laws that every change keeps: the queue, the Condition List, the board's slots, the parameters, the targets and
the Governors. -/

namespace Sys2Proof.Machine

/-! ### The queue, and every command's next state -/

/-- A store of a rate limit clamps the feeder's standing target, and reports a new one to its Governor (R21). -/
theorem State.storeFeeder_limit {s : State} {t : Train} {n : FeederParam} (hn : n = .rateMin ∨ n = .rateMax)
    (v : Nat) :
    let a := s.withFeeder t ((s.feeder t).put n v)
    let target := a.limited (feederOf t) (s.station (feederOf t)).standing.target
    let b := a.modStation (feederOf t) fun r =>
      { r with standing := { (s.station (feederOf t)).standing with target := target } }
    s.storeFeeder t n v =
      if target = (s.station (feederOf t)).standing.target then b
      else b.modGovernor t fun g => g.setBase target := by
  rcases hn with rfl | rfl <;> rfl

/-- A store of TRIM_LIMIT clamps the trim (R120). -/
theorem State.storeFeeder_trimLimit (s : State) (t : Train) (v : Nat) :
    s.storeFeeder t .trimLimit v =
      (s.withFeeder t ((s.feeder t).put .trimLimit v)).modGovernor t fun g =>
        { g with trim := clampTrim ((s.feeder t).put .trimLimit v).trimLimit g.trim } := by
  cases t <;> rfl

theorem State.secondBoundary_eq (s : State) :
    s.secondBoundary = s ∨
      s.secondBoundary = { s with
        time := s.time.advanceClock
        feeders := s.feeders.map StationRecord.countKeep
        crushers := s.crushers.map StationRecord.countKeep
        board := s.board.countWaits } := by
  unfold State.secondBoundary
  split
  · exact .inr rfl
  · exact .inl rfl

variable {a b s t : State}

theorem Change.pending_eq (h : Change a b) : b.pending = a.pending := by
  cases h with
  | record => simp
  | feederTarget => simp
  | crusherLimit => simp
  | feederLimit u n v _ hn =>
    rw [State.storeFeeder_limit hn]
    dsimp only
    split <;> simp
  | second =>
    rcases a.secondBoundary_eq with h | h <;> rw [h]
  | _ => rfl

theorem Changes.pending_eq (h : Changes a b) : b.pending = a.pending :=
  h.keep (law := fun s => s.pending = a.pending) (fun _ _ hc hq => hc.pending_eq.trans hq) rfl

/-- Every command answers a next state. -/
theorem exists_exec_eq (c : Instr) (s : State) : ∃ t, exec c s = .next t := by
  cases c <;> exact ⟨_, rfl⟩

/-- Settles O2: a command answers, and no primitive change touches the queue. -/
theorem everyCommandAnswersNext : Obligations.EveryCommandAnswersNext := by
  intro c s
  obtain ⟨t, ht⟩ := exists_exec_eq c s
  exact ⟨t, ht, (exec_changes ht).pending_eq⟩

/-- A command of a part without supply changes nothing, but for POWER_ON (log 4). -/
theorem exec_unpowered {c : Instr} (hs : s.powered = false) (hc : c ≠ .powerOn) : exec c s = .next s := by
  cases c with
  | powerOn => exact absurd rfl hc
  | _ => simp [State.whenPowered_unpowered hs]

/-- Settles O1: the front of the queue is taken, by `step`'s own cases. -/
theorem stepTakesTheFrontCommand : Obligations.StepTakesTheFrontCommand := by
  refine ⟨fun c rest s => rfl, fun s hs => ?_, fun c s hs hc => exec_unpowered hs hc⟩
  simp [step, hs]

/-- A law that no primitive change breaks, and that does not speak of the queue, is kept by a step. -/
theorem step_keeps {law : State → Prop} (hq : ∀ s q, law s → law (s.withPending q))
    (hc : ∀ a b, Change a b → law a → law b) (h : step s = .next t) (h0 : law s) : law t := by
  obtain ⟨q, hch⟩ := step_changes h
  exact hch.keep hc (hq s q h0)

/-! ### The Condition List (R149 to R156) -/

theorem Change.conditions_cases (h : Change a b) :
    b.conditions = a.conditions ∨ ConditionStep a.conditions b.conditions ∨
      b.conditions = ConditionList.atStart := by
  cases h with
  | conditions f hf => exact .inr (.inl hf)
  | start | lost => exact .inr (.inr rfl)
  | record | feederTarget | crusherLimit => exact .inl (by simp)
  | feederLimit u n v _ hn =>
    rw [State.storeFeeder_limit hn]
    dsimp only
    split <;> exact .inl (by simp)
  | second => rcases a.secondBoundary_eq with h | h <;> exact .inl (by rw [h])
  | _ => exact .inl rfl

theorem ConditionList.atStart_lawful : ConditionList.atStart.lawful := by
  simp [ConditionList.lawful, ConditionList.atStart, oldestTrip]

section list

variable {l m : ConditionList}

/-- An acknowledgement of some entries leaves what the List's law speaks of. -/
theorem ConditionList.lawful.acknowledge_where (h : l.lawful) (p : Entry → Bool) :
    ({ l with entries := l.entries.map fun e => if p e then { e with acknowledged := true } else e } :
      ConditionList).lawful := by
  have ⟨_, _, hactive, hcount, _, _⟩ := h
  refine h.map (fun e => ?_) (fun e he => ?_) (fun e he => ?_)
  · split <;> rfl
  · split <;> exact hactive e he
  · split <;> exact hcount e he

/-- Every change of the List keeps its law. -/
theorem ConditionStep.keeps_lawful (h : ConditionStep l m) (hl : l.lawful) : m.lawful := by
  cases h with
  | onset code sub d stamp => exact hl.onset code sub d stamp
  | causeEnded code sub => exact hl.causeEnded code sub
  | acknowledged code sub => exact hl.acknowledge_where (Entry.named code sub)
  | withoutAnswered code sub => exact hl.without _
  | allAcknowledged => simpa [ConditionList.allAcknowledged] using hl.acknowledge_where fun _ => true
  | allAnswered =>
    obtain ⟨hlength, hnodup, hactive, hcount, -, hfirst⟩ := hl.without fun e => e.code.latched && !e.active
    exact ⟨hlength, hnodup, hactive, hcount, Nat.zero_le _, hfirst⟩

end list

/-- Settles O4: each change of the List keeps its law. -/
theorem conditionListLawKept : Obligations.ConditionListLawKept := by
  intro s t h0 h
  refine step_keeps (law := fun s => s.conditions.lawful) (fun _ _ h => h) (fun a b hc ha => ?_) h h0
  rcases hc.conditions_cases with heq | hstep | hstart
  · rw [heq]
    exact ha
  · exact hstep.keeps_lawful ha
  · rw [hstart]
    exact ConditionList.atStart_lawful

end Sys2Proof.Machine
end

section
/-! PROOFS. The parameters' ranges (R15 to R19), the Governors' laws (R112, R119, R120), the standing targets (R2, R21)
and the board's slots (R25 to R27), each kept by every primitive change. -/

namespace Sys2Proof.Machine

variable {a b s t : State}

/-! ### Parameters -/

theorem Profile.ok_iff (p : Profile) :
    p.ok = true ↔ p.line.ok = true ∧ ∀ u, (p.crushers.get u).ok = true ∧ (p.feeders.get u).ok = true := by
  have hall : ∀ u, u ∈ Train.all := fun u => by cases u <;> decide
  simp only [Profile.ok, Bool.and_eq_true, List.all_eq_true]
  exact and_congr_right' ⟨fun h u => h u (hall u), fun h u _ => h u⟩

theorem State.paramsOk_iff : s.paramsOk ↔
    s.line.ok = true ∧ (∀ u, (s.crusher u).ok = true) ∧ (∀ u, (s.feeder u).ok = true) ∧
      (∀ p, s.store.readProfile = some p → p.ok = true) ∧
      ∀ p, s.store.writing = some (.profile p) → p.ok = true := by
  rw [State.paramsOk, Profile.ok_iff]
  simp only [State.working, State.crusher, State.feeder, forall_and, and_assoc]

/-- What a start loads keeps its ranges and constraints: what it reads does, and so do the defaults. -/
theorem Store.profileAtStart_ok {st : Store} (h : ∀ p, st.readProfile = some p → p.ok = true) :
    st.profileAtStart.ok = true := by
  unfold Store.profileAtStart
  cases hr : st.readProfile with
  | none => decide
  | some p => exact h p hr

theorem Store.readProfile_of_cutShort {st store : Store} (h : store = st ∨ store = st.cutShort) {p : Profile}
    (hp : store.readProfile = some p) : st.readProfile = some p := by
  rcases h with rfl | rfl
  · exact hp
  · rw [Store.readProfile_cutShort] at hp
    split at hp
    · cases hp
    · exact hp

/-- Settled by R19's clampings: every change of a parameter keeps its range and constraints, and the store takes
its PROFILE from the working values alone. -/
theorem Change.keeps_paramsOk (h : Change a b) (ha : a.paramsOk) : b.paramsOk := by
  have ⟨hline, hcrusher, hfeeder, hread, hwrite⟩ := State.paramsOk_iff.mp ha
  have hput {u : Train} {n : CrusherParam} {v : Nat} (hn : n.range.defined v = true) (w : Train) :
      ((a.withCrusher u ((a.crusher u).put n (storedValue n.range ((a.crusher u).bounds n) v))).crusher w).ok =
        true := by
    by_cases hw : w = u
    · rw [hw, State.crusher_withCrusher]
      exact CrusherParams.ok_put n hn (hcrusher u)
    · rw [State.crusher_withCrusher_of_ne _ hw]
      exact hcrusher w
  have hputf {u : Train} {n : FeederParam} {v : Nat} (hn : n.range.defined v = true) (w : Train) :
      ((a.withFeeder u ((a.feeder u).put n (storedValue n.range ((a.feeder u).bounds n) v))).feeder w).ok =
        true := by
    by_cases hw : w = u
    · rw [hw, State.feeder_withFeeder]
      exact FeederParams.ok_put n hn (hfeeder u)
    · rw [State.feeder_withFeeder_of_ne _ hw]
      exact hfeeder w
  cases h with
  | store st hst =>
    have hsource (p : Profile) (hp : a.profileSource p) : p.ok = true := by
      rcases hp with hp | hp | rfl
      · exact hread p hp
      · exact hwrite p hp
      · exact (Profile.ok_iff _).mpr ⟨hline, fun u => ⟨hcrusher u, hfeeder u⟩⟩
    obtain ⟨hr, hw⟩ := hst
    exact State.paramsOk_iff.mpr
      ⟨hline, hcrusher, hfeeder, fun p hp => hsource p (hr p hp), fun p hp => hsource p (hw p hp)⟩
  | line n v hv => exact State.paramsOk_iff.mpr ⟨LineParams.ok_put n hv hline, hcrusher, hfeeder, hread, hwrite⟩
  | crusherParam u n v hv => exact State.paramsOk_iff.mpr ⟨hline, hput hv, hfeeder, hread, hwrite⟩
  | crusherLimit u n v hv =>
    refine State.paramsOk_iff.mpr ⟨?_, fun w => ?_, ?_, ?_, ?_⟩
    · simpa using hline
    · simpa using hput hv w
    · simpa using hfeeder
    · simpa using hread
    · simpa using hwrite
  | feederParam u n v hv => exact State.paramsOk_iff.mpr ⟨hline, hcrusher, hputf hv, hread, hwrite⟩
  | feederLimit u n v hv hn =>
    rw [State.storeFeeder_limit hn]
    dsimp only
    refine State.paramsOk_iff.mpr ?_
    split
    · exact ⟨by simpa using hline, by simpa using hcrusher, by simpa using hputf hv, by simpa using hread,
        by simpa using hwrite⟩
    · exact ⟨by simpa using hline, by simpa using hcrusher, by simpa using hputf hv, by simpa using hread,
        by simpa using hwrite⟩
  | feederTrim u v =>
    rw [State.storeFeeder_trimLimit]
    exact State.paramsOk_iff.mpr ⟨hline, hcrusher, hputf rfl, hread, hwrite⟩
  | record | feederTarget =>
    exact State.paramsOk_iff.mpr ⟨by simpa using hline, by simpa using hcrusher, by simpa using hfeeder,
      by simpa using hread, by simpa using hwrite⟩
  | second => rcases a.secondBoundary_eq with h | h <;> rw [h] <;> exact ha
  | start store stamp hstore =>
    have hr (p : Profile) (hp : store.readProfile = some p) := hread p (Store.readProfile_of_cutShort hstore hp)
    exact ⟨Store.profileAtStart_ok hr, hr, fun _ hp => by cases hp⟩
  | lost =>
    have hdefault : Profile.ok ⟨LineParams.afterFailedLoad, defaultCrusherParams, defaultFeederParams⟩ = true := by
      decide
    refine ⟨hdefault, fun p hp => ?_, fun _ hp => by cases hp⟩
    exact hread p (Store.readProfile_of_cutShort (.inr rfl) hp)
  | _ => exact ha

/-- Settles O7: every change keeps the parameters' ranges and ordering constraints. -/
theorem parametersKeepTheirRanges : Obligations.ParametersKeepTheirRanges := fun _ _ h0 h =>
  step_keeps (law := State.paramsOk) (fun _ _ h => h) (fun _ _ hc => hc.keeps_paramsOk) h h0

/-- A law kept by every change of a state whose parameters keep their ranges is kept by a step of such a state. -/
theorem step_keeps_of_paramsOk {law : State → Prop} (hq : ∀ s q, law s → law (s.withPending q))
    (hc : ∀ a b, Change a b → a.paramsOk → law a → law b) (h : step s = .next t) (hp : s.paramsOk)
    (h0 : law s) : law t :=
  (step_keeps (law := fun s => s.paramsOk ∧ law s) (fun s q h => ⟨h.1, hq s q h.2⟩)
    (fun a b k h => ⟨k.keeps_paramsOk h.1, hc a b k h.1 h.2⟩) h ⟨hp, h0⟩).2

/-! ### Governors (R112 to R121) -/

/-- How one Governor and its feeder's parameters come out of a change. -/
theorem Change.governor_cases (h : Change a b) (u : Train) :
    (b.governor u = a.governor u ∧ (b.feeder u).trimLimit = (a.feeder u).trimLimit) ∨
      (b.feeder u = a.feeder u ∧ GovernorStep (a.feeder u) (a.governor u) (b.governor u)) ∨
      (∃ x, b.governor u = (a.governor u).setBase x ∧ (b.feeder u).trimLimit = (a.feeder u).trimLimit) ∨
      (b.feeder u = a.feeder u ∧ b.governor u = (a.governor u).tick) ∨
      b.governor u = { a.governor u with trim := clampTrim (b.feeder u).trimLimit (a.governor u).trim } ∨
      ∃ holds i, b.governor u = Governor.atStart holds i := by
  have hput {n : FeederParam} (hn : n ≠ .trimLimit) (v : Nat) (w : Train) :
      ((a.withFeeder w ((a.feeder w).put n v)).feeder u).trimLimit = (a.feeder u).trimLimit := by
    by_cases hu : u = w
    · rw [hu, State.feeder_withFeeder]
      exact FeederParams.get_put_of_ne _ (m := .trimLimit) hn.symm v
    · rw [State.feeder_withFeeder_of_ne _ hu]
  cases h with
  | governor w f hf =>
    by_cases hu : u = w
    · subst hu
      exact .inr (.inl ⟨rfl, by simpa using hf⟩)
    · exact .inl ⟨State.governor_modGovernor_of_ne _ hu _, rfl⟩
  | record => exact .inl (by simp)
  | crusherLimit => exact .inl (by simp)
  | feederTarget w x =>
    by_cases hu : u = w
    · subst hu
      exact .inr (.inr (.inl ⟨x.target, by simp, by simp⟩))
    · exact .inl ⟨by rw [State.governor_modGovernor_of_ne _ hu]; simp, by simp⟩
  | feederParam w n v _ _ _ hn => exact .inl ⟨rfl, hput hn _ w⟩
  | feederLimit w n v _ hn =>
    have hne : n ≠ .trimLimit := by rcases hn with rfl | rfl <;> decide
    rw [State.storeFeeder_limit hn]
    dsimp only
    split
    · exact .inl ⟨by simp, by simpa using hput hne _ w⟩
    · by_cases hu : u = w
      · subst hu
        exact .inr (.inr (.inl ⟨_, by rw [State.governor_modGovernor]; simp; rfl, by simpa using hput hne _ u⟩))
      · exact .inl ⟨by rw [State.governor_modGovernor_of_ne _ hu]; simp, by simpa using hput hne _ w⟩
  | feederTrim w v =>
    rw [State.storeFeeder_trimLimit]
    by_cases hu : u = w
    · subst hu
      exact .inr (.inr (.inr (.inr (.inl (by simp)))))
    · exact .inl ⟨State.governor_modGovernor_of_ne _ hu _, by
        simpa using congrArg FeederParams.trimLimit (State.feeder_withFeeder_of_ne a hu _)⟩
  | second => rcases a.secondBoundary_eq with h | h <;> exact .inl (by rw [h]; exact ⟨rfl, rfl⟩)
  | tick => exact .inr (.inr (.inr (.inl ⟨rfl, Quad.get_map ..⟩)))
  | start store => exact .inr (.inr (.inr (.inr (.inr ⟨_, _, Quad.get_make ..⟩))))
  | lost => exact .inr (.inr (.inr (.inr (.inr ⟨_, _, Quad.get_map ..⟩))))
  | _ => exact .inl ⟨rfl, rfl⟩

/-- A Governor keeps its laws and its ranges. -/
def Governor.sound (limit : Nat) (g : Governor) : Prop :=
  g.lawful limit ∧ g.demand ≤ 1000 ∧ g.command ≤ 1000 ∧ g.output.duty ≤ 1000

theorem State.governors_sound_iff :
    s.governorsLawful ∧ s.ratesInRange ↔ ∀ u, (s.governor u).sound (s.feeder u).trimLimit := by
  simp only [State.governorsLawful, State.ratesInRange, Governor.sound, forall_and]

section sound

variable {g g' : Governor} {limit : Nat}

theorem Governor.stop_sound (h : -(limit : Int) ≤ g.trim ∧ g.trim ≤ limit) : g.stop.sound limit :=
  ⟨⟨fun _ => ⟨rfl, rfl, rfl⟩, h⟩, Nat.zero_le _, Nat.zero_le _, Nat.zero_le _⟩

/-- A rejudging after a change of holds or base rate keeps the laws: a change of state that stops the feeder stops
its commands, and one that does not change the state leaves them as they stood. -/
theorem Governor.sound.rejudged (h : g.sound limit) (hd : g'.demand = g.demand) (hc : g'.command = g.command)
    (ho : g'.output = g.output) (ht : g'.trim = g.trim) : (g.rejudged g').sound limit := by
  obtain ⟨⟨hstopped, htrim⟩, hranges⟩ := h
  unfold Governor.rejudged
  split
  · next hstate =>
    simp only [Bool.or_eq_true, decide_eq_true_eq] at hstate
    refine ⟨⟨fun hrun => ?_, ht ▸ htrim⟩, by rw [hd, hc, ho]; exact hranges⟩
    rw [hd, hc, ho]
    exact hstopped (hstate.resolve_left hrun ▸ hrun)
  · exact stop_sound (ht ▸ htrim)

theorem Governor.sound.setBase (h : g.sound limit) (x : Nat) : (g.setBase x).sound limit :=
  h.rejudged rfl rfl rfl rfl

/-- A millisecond brings the command into force, or leaves the duty. -/
theorem Governor.sound.tick (h : g.sound limit) : g.tick.sound limit := by
  obtain ⟨⟨hstopped, htrim⟩, hdemand, hcommand, hduty⟩ := h
  have hcases : g.tick.output.duty = g.command ∨ g.tick.output.duty = g.output.duty := by
    unfold Governor.tick Pwm.tick
    split
    · exact .inl rfl
    · exact .inr rfl
  refine ⟨⟨fun hrun => ?_, htrim⟩, hdemand, hcommand, ?_⟩
  · obtain ⟨h1, h2, h3⟩ := hstopped hrun
    exact ⟨h1, h2, by rcases hcases with h | h <;> rw [h] <;> assumption⟩
  · rcases hcases with h | h <;> rw [h] <;> assumption

theorem clampTrim_within (limit : Nat) (x : Int) :
    -(limit : Int) ≤ clampTrim limit x ∧ clampTrim limit x ≤ limit := by
  unfold clampTrim
  omega

theorem demandOf_le (p : FeederParams) (base : Nat) (trim : Int) : demandOf p base trim ≤ p.rateMax := clamp_le _

theorem trimmed_within {p : FeederParams} {x : Int} (h : -(p.trimLimit : Int) ≤ x ∧ x ≤ p.trimLimit) (power : Nat) :
    -(p.trimLimit : Int) ≤ trimmed p power x ∧ trimmed p power x ≤ p.trimLimit := by
  unfold trimmed
  split
  · omega
  · split <;> omega

theorem Governor.trimStep_trim_within {u : UpdateInputs}
    (h : -(u.params.trimLimit : Int) ≤ g.trim ∧ g.trim ≤ u.params.trimLimit) :
    -(u.params.trimLimit : Int) ≤ (g.trimStep u).trim ∧ (g.trimStep u).trim ≤ u.params.trimLimit := by
  unfold Governor.trimStep
  split
  · split
    · exact trimmed_within h _
    · exact h
  · exact h

/-- What the five steps of an update leave alone (R114). -/
theorem Governor.trimStep_keeps (g : Governor) (u : UpdateInputs) :
    (g.trimStep u).holds = g.holds ∧ (g.trimStep u).base = g.base ∧ (g.trimStep u).command = g.command ∧
      (g.trimStep u).output = g.output ∧ (g.trimStep u).capBound = g.capBound ∧
      (g.trimStep u).demand = g.demand ∧ (g.trimStep u).updateTimer = g.updateTimer := by
  unfold Governor.trimStep
  split
  · split <;> exact ⟨rfl, rfl, rfl, rfl, rfl, rfl, rfl⟩
  · exact ⟨rfl, rfl, rfl, rfl, rfl, rfl, rfl⟩

theorem Governor.rampStep_command_le (p : FeederParams) {m : Nat} (hd : g.demand ≤ m) (hc : g.command ≤ m) :
    (g.rampStep p).command ≤ m := by
  show (if _ then _ else _) ≤ m
  split
  · exact (min_le_left _ _).trans hd
  · split
    · exact max_le hd ((Nat.sub_le ..).trans hc)
    · exact hc

theorem Governor.state_eq_running_iff (g : Governor) :
    g.state = .running ↔ g.holds.isEmpty = true ∧ g.base ≠ 0 := by
  unfold Governor.state
  cases g.holds.isEmpty <;> by_cases hb : g.base = 0 <;> simp [hb]

theorem Governor.sound.updated {u : UpdateInputs} (h : g.sound u.params.trimLimit) (hp : u.params.ok = true)
    (timer : Timer) : Governor.sound u.params.trimLimit { g.updated u with updateTimer := timer } := by
  have hmax : u.params.rateMax ≤ 1000 := by
    have := (FeederParams.ok_iff _).mp hp |>.1 .rateMax
    simp only [FeederParam.range, ParamRange.holds, FeederParams.get, Bool.and_eq_true,
      decide_eq_true_eq] at this
    exact this.2
  unfold Governor.updated
  split
  · next hrun =>
    obtain ⟨⟨-, htrim⟩, -, hcommand, hduty⟩ := h
    obtain ⟨hholds, hbase, hcommandKept, houtput, -, -, -⟩ := (g.capTest u).trimStep_keeps u
    set g1 := (g.capTest u).trimStep u with hg1
    have hdemand : (g1.demandStep u).demand ≤ 1000 := by
      have hle := (demandOf_le u.params g1.base g1.trim).trans hmax
      show (if _ then _ else _) ≤ 1000
      split
      · exact (min_le_left _ _).trans hle
      · exact hle
    have hramp : ((g1.demandStep u).rampStep u.params).command ≤ 1000 :=
      Governor.rampStep_command_le _ hdemand (hcommandKept.trans_le hcommand)
    have hstate : g1.state = .running := by
      rw [state_eq_running_iff] at hrun ⊢
      rw [hholds, hbase]
      exact hrun
    exact ⟨⟨fun hne => absurd hstate hne, Governor.trimStep_trim_within (g := g.capTest u) htrim⟩, hdemand, hramp,
      houtput ▸ hduty⟩
  · obtain ⟨⟨hstopped, htrim⟩, hranges⟩ := h
    exact ⟨⟨hstopped, htrim⟩, hranges⟩

theorem GovernorStep.keeps_sound {p : FeederParams} (hs : GovernorStep p g g') (hp : p.ok = true)
    (h : g.sound p.trimLimit) : g'.sound p.trimLimit := by
  cases hs with
  | hold c =>
    unfold Governor.hold
    split
    · exact h
    · exact h.rejudged rfl rfl rfl rfl
  | release c =>
    unfold Governor.release
    split
    · exact h.rejudged rfl rfl rfl rfl
    · exact h
  | floorTrim =>
    obtain ⟨⟨hstopped, -⟩, hranges⟩ := h
    have hfloor : -(p.trimLimit : Int) ≤ (g.floorTrim p).trim ∧ (g.floorTrim p).trim ≤ p.trimLimit :=
      ⟨le_rfl, by show -(p.trimLimit : Int) ≤ p.trimLimit; omega⟩
    exact ⟨⟨hstopped, hfloor⟩, hranges⟩
  | updated u timer hu =>
    subst hu
    exact h.updated hp timer

theorem Governor.atStart_sound (holds : Holds) (i : Nat) : (Governor.atStart holds i).sound limit :=
  ⟨⟨fun _ => ⟨rfl, rfl, rfl⟩, by simp [Governor.atStart]⟩, Nat.zero_le _, Nat.zero_le _, Nat.zero_le _⟩

end sound

/-- Settles O5: each way in which a Governor changes keeps its laws and ranges. -/
theorem governorLawsKept : Obligations.GovernorLawsKept := by
  intro s t hp h0 h
  rw [State.governors_sound_iff] at h0 ⊢
  refine step_keeps_of_paramsOk (law := fun s => ∀ u, (s.governor u).sound (s.feeder u).trimLimit)
    (fun _ _ h => h) (fun a b hc ha hsound u => ?_) h hp h0
  have hok : (a.feeder u).ok = true := (State.paramsOk_iff.mp ha).2.2.1 u
  rcases hc.governor_cases u with ⟨hg, hl⟩ | ⟨hf, hstep⟩ | ⟨x, hg, hl⟩ | ⟨hf, hg⟩ | hg | ⟨holds, i, hg⟩
  · rw [hg, hl]
    exact hsound u
  · rw [hf]
    exact hstep.keeps_sound hok (hsound u)
  · rw [hg, hl]
    exact (hsound u).setBase x
  · rw [hf, hg]
    exact (hsound u).tick
  · obtain ⟨⟨hstopped, -⟩, hranges⟩ := hsound u
    rw [hg]
    exact ⟨⟨hstopped, clampTrim_within _ _⟩, hranges⟩
  · rw [hg]
    exact Governor.atStart_sound holds i

end Sys2Proof.Machine
end

section
/-! PROOFS. The standing targets (R2, R21), the feeders' base rates (R113) and the board's slots (R25 to R27), each kept
by every primitive change; and the state after reset. -/

namespace Sys2Proof.Machine

variable {a b s t : State}

/-! ### Standing targets (R2, R21) -/

/-- A value brought within a station's limits lies within them. -/
theorem State.withinLimits_limited (h : s.paramsOk) (st : Station) (v : Nat) :
    s.withinLimits st (s.limited st v) := by
  obtain ⟨-, hcrusher, hfeeder, -⟩ := State.paramsOk_iff.mp h
  obtain ⟨u, r⟩ := st
  cases r with
  | crusher =>
    obtain ⟨-, hle, -⟩ := (CrusherParams.ok_iff _).mp (hcrusher u)
    exact ⟨le_clamp v hle, clamp_le v⟩
  | feeder =>
    obtain ⟨-, hle⟩ := (FeederParams.ok_iff _).mp (hfeeder u)
    by_cases hv : v = 0
    · exact .inl (if_pos hv)
    · refine .inr ?_
      simp only [State.limited, if_neg hv]
      exact ⟨le_clamp v hle, clamp_le v⟩

/-- The same for the limits that another state with the same parameters reads. -/
theorem State.withinLimits_limited_of (h : b.paramsOk) {st : Station}
    (hc : b.crusher st.train = a.crusher st.train) (hf : b.feeder st.train = a.feeder st.train) (v : Nat) :
    b.withinLimits st (a.limited st v) := by
  have heq : a.limited st v = b.limited st v := by
    obtain ⟨u, r⟩ := st
    simp only at hc hf
    cases r <;> simp only [State.limited, hc, hf]
  exact heq ▸ State.withinLimits_limited h st v

/-- A value within a station's limits is not moved by them. -/
theorem State.limited_of_withinLimits {st : Station} {v : Nat} (h : s.withinLimits st v) : s.limited st v = v := by
  obtain ⟨u, r⟩ := st
  cases r with
  | crusher => exact clamp_eq h.1 h.2
  | feeder =>
    simp only [State.limited]
    split
    · next hv => exact hv.symm
    · next hv =>
      obtain ⟨h1, h2⟩ := Or.resolve_left h hv
      exact clamp_eq h1 h2

/-- The limits of a station are read from its own parameters. -/
theorem State.withinLimits_congr {st : Station} (hc : b.crusher st.train = a.crusher st.train)
    (hf : b.feeder st.train = a.feeder st.train) (v : Nat) : b.withinLimits st v ↔ a.withinLimits st v := by
  obtain ⟨u, r⟩ := st
  simp only at hc hf
  cases r <;> simp only [State.withinLimits, hc, hf]

theorem State.reset_targetsWithin : State.reset.targetsWithin := by
  rintro ⟨u, r⟩
  cases r with
  | feeder => exact .inl (by cases u <;> rfl)
  | crusher => cases u <;> exact ⟨by decide, by decide⟩

/-- A target comes out of a change as it was, within limits no narrower, or brought within its limits. -/
theorem Change.target_cases (h : Change a b) (hb : b.paramsOk) (st : Station) :
    ((b.station st).standing.target = (a.station st).standing.target ∧
      ∀ x, a.withinLimits st x → b.withinLimits st x) ∨
      b.withinLimits st (b.station st).standing.target := by
  have hsame (c : State) (hc : c.crusherParams = a.crusherParams) (hf : c.feederParams = a.feederParams) (x : Nat) :
      a.withinLimits st x → c.withinLimits st x :=
    (State.withinLimits_congr (by simp [State.crusher, hc]) (by simp [State.feeder, hf]) x).mpr
  cases h with
  | record st' f hf =>
    by_cases hst : st = st'
    · subst hst
      rcases hf with heq | ⟨-, v, hv⟩
      · exact .inl ⟨by simpa using heq, hsame _ (by simp) (by simp)⟩
      · refine .inr ?_
        rw [State.station_modStation, hv]
        exact State.withinLimits_limited_of hb (by simp) (by simp) v
    · exact .inl ⟨by rw [State.station_modStation_of_ne _ hst], hsame _ (by simp) (by simp)⟩
  | feederTarget u x hx =>
    by_cases hst : st = feederOf u
    · subst hst
      obtain ⟨v, hv⟩ := hx
      refine .inr ?_
      rw [State.modGovernor_station_read, State.station_modStation]
      exact hv ▸ State.withinLimits_limited_of hb (by simp) (by simp) v
    · exact .inl ⟨by rw [State.modGovernor_station_read, State.station_modStation_of_ne _ hst],
        hsame _ (by simp) (by simp)⟩
  | crusherParam u n v _ hmin hmax =>
    refine .inl ⟨rfl, fun x hx => ?_⟩
    obtain ⟨w, r⟩ := st
    cases r with
    | feeder => exact hx
    | crusher =>
      by_cases hw : w = u
      · subst hw
        simp only [State.withinLimits, State.crusher_withCrusher]
        rw [show ((a.crusher w).put n _).gapMin = (a.crusher w).gapMin from
          CrusherParams.get_put_of_ne _ (m := .gapMin) hmin.symm _,
          show ((a.crusher w).put n _).gapMax = (a.crusher w).gapMax from
          CrusherParams.get_put_of_ne _ (m := .gapMax) hmax.symm _]
        exact hx
      · simp only [State.withinLimits, State.crusher_withCrusher_of_ne _ hw]
        exact hx
  | crusherLimit u n v _ f hf =>
    by_cases hst : st = crusherOf u
    · subst hst
      refine .inr ?_
      rw [State.station_modStation, State.withCrusher_station_read, hf]
      exact State.withinLimits_limited_of hb (by simp) (by simp) _
    · refine .inl ⟨by rw [State.station_modStation_of_ne _ hst, State.withCrusher_station_read], fun x hx => ?_⟩
      obtain ⟨w, r⟩ := st
      cases r with
      | feeder => simpa [State.withinLimits] using hx
      | crusher =>
        have hw : w ≠ u := fun h => hst (h ▸ rfl)
        simpa [State.withinLimits, State.crusher_withCrusher_of_ne _ hw] using hx
  | feederParam u n v _ hmin hmax =>
    refine .inl ⟨rfl, fun x hx => ?_⟩
    obtain ⟨w, r⟩ := st
    cases r with
    | crusher => exact hx
    | feeder =>
      by_cases hw : w = u
      · subst hw
        simp only [State.withinLimits, State.feeder_withFeeder]
        rw [show ((a.feeder w).put n _).rateMin = (a.feeder w).rateMin from
          FeederParams.get_put_of_ne _ (m := .rateMin) hmin.symm _,
          show ((a.feeder w).put n _).rateMax = (a.feeder w).rateMax from
          FeederParams.get_put_of_ne _ (m := .rateMax) hmax.symm _]
        exact hx
      · simp only [State.withinLimits, State.feeder_withFeeder_of_ne _ hw]
        exact hx
  | feederLimit u n v _ hn =>
    rw [State.storeFeeder_limit hn] at hb ⊢
    dsimp only at hb ⊢
    set p := a.withFeeder u ((a.feeder u).put n (storedValue n.range ((a.feeder u).bounds n) v)) with hp
    by_cases hst : st = feederOf u
    · subst hst
      refine .inr ?_
      split at hb
      · next ht =>
        rw [if_pos ht, State.station_modStation]
        exact State.withinLimits_limited_of (a := p) hb (by simp) (by simp) _
      · next ht =>
        rw [if_neg ht, State.modGovernor_station_read, State.station_modStation]
        exact State.withinLimits_limited_of (a := p) hb (by simp) (by simp) _
    · have hfeeder : st.role = .feeder → p.feeder st.train = a.feeder st.train := fun hr =>
        State.feeder_withFeeder_of_ne _ (fun h => hst (by obtain ⟨w, r⟩ := st; cases hr; cases h; rfl)) _
      have hwithin (x : Nat) (hx : a.withinLimits st x) : p.withinLimits st x := by
        obtain ⟨w, r⟩ := st
        cases r with
        | crusher => exact hx
        | feeder => simpa only [State.withinLimits, hfeeder rfl] using hx
      left
      split
      · exact ⟨by rw [State.station_modStation_of_ne _ hst, hp, State.withFeeder_station_read], fun x hx =>
          (State.withinLimits_congr (by simp) (by simp) x).mpr (hwithin x hx)⟩
      · exact ⟨by rw [State.modGovernor_station_read, State.station_modStation_of_ne _ hst, hp,
            State.withFeeder_station_read], fun x hx =>
          (State.withinLimits_congr (by simp) (by simp) x).mpr (hwithin x hx)⟩
  | feederTrim u v =>
    rw [State.storeFeeder_trimLimit]
    refine .inl ⟨by simp, fun x hx => ?_⟩
    obtain ⟨w, r⟩ := st
    cases r with
    | crusher => exact hx
    | feeder =>
      by_cases hw : w = u
      · subst hw
        simpa [State.withinLimits, FeederParams.put] using hx
      · simpa [State.withinLimits, State.feeder_withFeeder_of_ne _ hw] using hx
  | renumber =>
    refine .inl ⟨?_, fun x hx => hx⟩
    obtain ⟨w, r⟩ := st
    cases r <;> simp only [State.station, State.renumber, Quad.get_map, Standing.renumbered] <;> split <;> rfl
  | second =>
    rcases a.secondBoundary_eq with h | h <;> rw [h]
    · exact .inl ⟨rfl, fun _ h => h⟩
    · refine .inl ⟨?_, fun x hx => hx⟩
      obtain ⟨w, r⟩ := st
      cases r <;> simp only [State.station, Quad.get_map] <;> rfl
  | start store stamp =>
    refine .inr ?_
    obtain ⟨w, r⟩ := st
    cases r with
    | feeder => exact .inl (by simp [State.station, blocksAtStart, Profile.feederRecord, Standing.start])
    | crusher =>
      have hle := ((CrusherParams.ok_iff _).mp ((State.paramsOk_iff.mp hb).2.1 w)).2.1
      have ht : ((blocksAtStart store stamp a.pending).station ⟨w, .crusher⟩).standing.target =
          ((blocksAtStart store stamp a.pending).crusher w).gapMax := by
        simp [State.station, State.crusher, blocksAtStart, Profile.crusherRecord, Standing.start]
      rw [ht]
      exact ⟨hle, le_rfl⟩
  | lost => exact .inr (State.reset_targetsWithin st)
  | _ => exact .inl ⟨rfl, fun _ h => h⟩

theorem GovernorStep.base_eq {p : FeederParams} {g g' : Governor} (h : GovernorStep p g g') : g'.base = g.base := by
  cases h with
  | hold c => exact (g.hold_keeps c).2.1
  | release c => exact (g.release_keeps c).2.1
  | floorTrim => rfl
  | updated u timer =>
    show (g.updated u).base = _
    unfold Governor.updated
    split
    · exact (g.capTest u).trimStep_keeps u |>.2.1
    · rfl

/-- A base rate comes out of a change as it was, with the target, or takes the new target (R113). -/
theorem Change.base_cases (h : Change a b) (u : Train) :
    ((b.governor u).base = (a.governor u).base ∧
      (b.station (feederOf u)).standing.target = (a.station (feederOf u)).standing.target) ∨
      (b.governor u).base = (b.station (feederOf u)).standing.target := by
  cases h with
  | governor w f hf =>
    refine .inl ⟨?_, rfl⟩
    by_cases hu : u = w
    · subst hu
      rw [State.governor_modGovernor]
      exact hf.base_eq
    · rw [State.governor_modGovernor_of_ne _ hu]
  | record st f hf =>
    refine .inl ⟨by simp, ?_⟩
    by_cases hst : feederOf u = st
    · subst hst
      rw [State.station_modStation]
      exact hf.resolve_right fun h => by cases h.1
    · rw [State.station_modStation_of_ne _ hst]
  | crusherLimit w => exact .inl ⟨by simp, by rw [State.station_modStation_of_ne _ (by simp [feederOf, crusherOf]), State.withCrusher_station_read]⟩
  | feederTarget w x =>
    by_cases hu : u = w
    · subst hu
      refine .inr ?_
      rw [State.governor_modGovernor, State.modGovernor_station_read, State.station_modStation]
      exact ((a.modStation _ _).governor u).rejudged_keeps _ |>.2.1
    · refine .inl ⟨by rw [State.governor_modGovernor_of_ne _ hu, State.modStation_governor_read], ?_⟩
      rw [State.modGovernor_station_read, State.station_modStation_of_ne _ (by simpa [feederOf] using hu)]
  | feederLimit w n v _ hn =>
    rw [State.storeFeeder_limit hn]
    dsimp only
    split
    · next ht =>
      refine .inl ⟨by simp, ?_⟩
      by_cases hu : u = w
      · subst hu
        rw [State.station_modStation]
        exact ht
      · rw [State.station_modStation_of_ne _ (by simpa [feederOf] using hu), State.withFeeder_station_read]
    · by_cases hu : u = w
      · subst hu
        refine .inr ?_
        rw [State.governor_modGovernor, State.modGovernor_station_read, State.station_modStation]
        exact Governor.rejudged_keeps _ _ |>.2.1
      · refine .inl ⟨by rw [State.governor_modGovernor_of_ne _ hu]; simp, ?_⟩
        rw [State.modGovernor_station_read, State.station_modStation_of_ne _ (by simpa [feederOf] using hu),
          State.withFeeder_station_read]
  | feederTrim w v =>
    rw [State.storeFeeder_trimLimit]
    refine .inl ⟨?_, by simp⟩
    by_cases hu : u = w
    · subst hu
      simp
    · rw [State.governor_modGovernor_of_ne _ hu, State.withFeeder_governor_read]
  | renumber =>
    refine .inl ⟨rfl, ?_⟩
    simp only [State.station, feederOf, State.renumber, Quad.get_map, Standing.renumbered]
    split <;> rfl
  | second =>
    rcases a.secondBoundary_eq with h | h <;> rw [h] <;> refine .inl ⟨rfl, ?_⟩
    · rfl
    · simp only [State.station, feederOf, Quad.get_map]
      rfl
  | tick =>
    have htick : a.tickOutputs.governor u = (a.governor u).tick := Quad.get_map ..
    exact .inl ⟨by rw [htick]; rfl, rfl⟩
  | start store =>
    exact .inr (by simp [State.governor, State.station, feederOf, blocksAtStart, Governor.atStart,
      Profile.feederRecord, Standing.start])
  | lost => exact .inr (by cases u <;> rfl)
  | _ => exact .inl ⟨rfl, rfl⟩

/-- Settles O8: a target is left as it was or clamped, and a new one reaches its Governor. -/
theorem targetsStayWithinLimits : Obligations.TargetsStayWithinLimits := by
  intro s t hp hwithin hbase h
  refine step_keeps_of_paramsOk (law := fun s => s.targetsWithin ∧ s.basesFollow) (fun _ _ h => h)
    (fun a b hc ha ⟨hw, hb⟩ => ⟨fun st => ?_, fun u => ?_⟩) h hp ⟨hwithin, hbase⟩
  · rcases hc.target_cases (hc.keeps_paramsOk ha) st with ⟨heq, hlimits⟩ | h
    · exact heq ▸ hlimits _ (hw st)
    · exact h
  · rcases hc.base_cases u with ⟨hg, ht⟩ | h
    · rw [hg, ht]
      exact hb u
    · exact h

end Sys2Proof.Machine
end

section
/-! PROOFS. The board's slots (R25 to R27) are kept by every primitive change; and the state after reset keeps every
law (R169). -/

namespace Sys2Proof.Machine

variable {a b s t : State}

/-! ### The board's slots -/

/-- How the board comes out of a change. -/
theorem Change.board_cases (h : Change a b) :
    b.board = a.board ∨ BoardStep a.board b.board ∨ b.board = a.renumber.board ∨ b.board = a.board.countWaits ∨
      b.board = Board.atStart := by
  cases h with
  | board x hx => exact .inr (.inl hx)
  | renumber => exact .inr (.inr (.inl rfl))
  | second => rcases a.secondBoundary_eq with h | h <;> rw [h] <;> simp
  | start | lost => exact .inr (.inr (.inr (.inr rfl)))
  | record | feederTarget | crusherLimit => exact .inl (by simp)
  | feederLimit u n v _ hn =>
    rw [State.storeFeeder_limit hn]
    dsimp only
    split <;> exact .inl (by simp)
  | _ => exact .inl rfl

section board

variable {x y : Board}

/-- The waiting slots of a link for a station, as a count over the slots. -/
theorem Board.waitingOfLink_eq (x : Board) (l : Link) (st : Station) :
    x.waitingOfLink l st = x.slots.countP fun o => o.any (Slot.isOf l st) := by
  unfold Board.waitingOfLink
  congr
  funext o
  cases o <;> rfl

/-- A change of each slot for itself that names no station or link anew leaves no more slots to a link. -/
theorem Board.lawful.map_slots (h : x.lawful) {f : Option Slot → Option Slot} {counter : Nat}
    (hf : ∀ o l st, (f o).any (Slot.isOf l st) = true → o.any (Slot.isOf l st) = true)
    (hpos : 1 ≤ counter) (hmax : counter ≤ 4294967295) :
    ({ slots := x.slots.map f, counter := counter } : Board).lawful := by
  obtain ⟨hlength, hone, -, -⟩ := h
  refine ⟨by simpa using hlength, fun l st => ?_, hpos, hmax⟩
  refine le_trans ?_ (hone l st)
  rw [Board.waitingOfLink_eq, Board.waitingOfLink_eq, List.countP_map]
  exact List.countP_mono_left fun o _ ho => hf o l st ho

/-- A slot freed leaves no more slots to a link. -/
theorem countP_set_none_le (slots : List (Option Slot)) (i : Nat) (p : Option Slot → Bool) (hp : p none = false) :
    (slots.set i none).countP p ≤ slots.countP p := by
  by_cases hi : i < slots.length
  · rw [List.countP_set hi, hp]
    simp
  · rw [List.set_eq_of_length_le (not_lt.mp hi)]

theorem Board.anyWaiting_eq_false_iff {p : Slot → Bool} :
    x.anyWaiting p = false ↔ ∀ r, some r ∈ x.slots → p r = false := by
  simp only [Board.anyWaiting, List.any_eq_false]
  constructor
  · intro h r hr
    simpa using h _ hr
  · rintro h (_ | r) ho
    · simp
    · simpa using h r ho

/-- Every change of the board keeps its slots, one at most to a link and station, and its counter in range. -/
theorem BoardStep.keeps_lawful (h : BoardStep x y) (hx : x.lawful) : y.lawful := by
  have ⟨hlength, hone, hpos, hmax⟩ := hx
  cases h with
  | free i =>
    refine ⟨by simpa using hlength, fun l st => ?_, hpos, hmax⟩
    refine le_trans ?_ (hone l st)
    rw [Board.waitingOfLink_eq, Board.waitingOfLink_eq]
    exact countP_set_none_le x.slots i _ rfl
  | freeWhere gone =>
    refine hx.map_slots (fun o l st ho => ?_) hpos hmax
    cases o with
    | none => exact ho
    | some r =>
      dsimp only at ho
      split at ho
      · cases ho
      · exact ho
  | numbered =>
    refine ⟨hlength, hone, ?_, ?_⟩
    · show 1 ≤ if x.counter = 4294967295 then _ else _
      split <;> omega
    · show (if x.counter = 4294967295 then _ else _) ≤ _
      split <;> omega
  | place i r hr =>
    refine ⟨by simpa using hlength, fun l st => ?_, hpos, hmax⟩
    rw [Board.waitingOfLink_eq]
    show (x.slots.set i (some r)).countP _ ≤ 1
    by_cases hi : i < x.slots.length
    · rw [List.countP_set hi]
      by_cases hown : r.isOf l st = true
      · -- the request's own link and station: the board held none for them
        obtain ⟨rfl, rfl⟩ : r.source = l ∧ r.station = st := by simpa [Slot.isOf] using hown
        have hzero : x.slots.countP (fun o => o.any (Slot.isOf r.source r.station)) = 0 := by
          rw [List.countP_eq_zero]
          rintro (_ | q) hq
          · simp
          · simpa using Board.anyWaiting_eq_false_iff.mp hr q hq
        rw [hzero]
        simp [hown]
      · have := hone l st
        rw [Board.waitingOfLink_eq] at this
        have hnone : (Option.any (Slot.isOf l st) (some r)) = false := by simpa using hown
        simp only [hnone, Bool.false_eq_true, if_false, add_zero]
        omega
    · rw [List.set_eq_of_length_le (not_lt.mp hi), ← Board.waitingOfLink_eq]
      exact hone l st

theorem Board.atStart_lawful : Board.atStart.lawful := by
  refine ⟨rfl, fun l st => ?_, by decide, by decide⟩
  rw [Board.waitingOfLink_eq, Board.atStart, List.countP_replicate]
  simp

end board

theorem State.length_liveNumbers_le (s : State) : s.liveNumbers.length ≤ s.board.slots.length + 8 := by
  rw [State.liveNumbers, List.length_append]
  exact Nat.add_le_add (List.length_filterMap_le ..) (List.length_filterMap_le ..)

/-- A renumbering keeps the board's law: it gives the live numbers, of 24 slots and 8 settings at most (R28). -/
theorem Board.lawful.renumber (h : a.board.lawful) : a.renumber.board.lawful := by
  have hlive := a.length_liveNumbers_le
  rw [h.1] at hlive
  refine h.map_slots (fun o l st ho => ?_) (Nat.le_add_left ..) (by omega)
  cases o <;> exact ho

theorem Change.keeps_boardLawful (h : Change a b) (ha : a.board.lawful) : b.board.lawful := by
  rcases h.board_cases with h | h | h | h | h
  · exact h ▸ ha
  · exact h.keeps_lawful ha
  · exact h ▸ ha.renumber
  · rw [h]
    exact ha.map_slots (fun o l st ho => by cases o <;> exact ho) ha.2.2.1 ha.2.2.2
  · exact h ▸ Board.atStart_lawful

/-- Every step keeps the board's slots and its counter. -/
theorem step_keeps_boardLawful (h : step s = .next t) (h0 : s.board.lawful) : t.board.lawful :=
  step_keeps (law := fun s => s.board.lawful) (fun _ _ h => h) (fun _ _ hc => hc.keeps_boardLawful) h h0

/-! ### The state after reset (R169) -/

theorem State.reset_conditions_lawful : State.reset.conditions.lawful := by
  refine ⟨by decide, by decide, ?_, ?_, by decide, rfl⟩ <;> decide

theorem State.reset_governors_sound (u : Train) : (State.reset.governor u).sound (State.reset.feeder u).trimLimit := by
  cases u <;> exact Governor.atStart_sound ..

/-- With every station absent none accepts, and with every slot free none waits. -/
theorem State.reset_selectionsMade : State.reset.selectionsMade := by
  have haccepting (st : Station) : State.reset.accepting st = false := by
    obtain ⟨u, r⟩ := st
    cases u <;> cases r <;> rfl
  intro st
  refine ⟨?_, fun h => by simp [haccepting] at h⟩
  rw [haccepting]
  obtain ⟨u, r⟩ := st
  cases u <;> cases r <;> rfl

/-- A Positioner at a start has no drive on or pending. -/
theorem Positioner.atStart_driveLawful (r : Reasons) (i : Nat) : (Positioner.atStart r i).driveLawful := by
  simp [Positioner.driveLawful, Positioner.atStart]

theorem State.reset_touchLawful : State.reset.touchLawful := by
  refine ⟨⟨fun _ => rfl, fun _ => rfl⟩, (nofun), fun u => ?_⟩
  cases u <;> exact ⟨⟨nofun, nofun⟩, ⟨nofun, nofun⟩⟩

theorem State.reset_tripsListed : State.reset.tripsListed := by
  have htrips : ∀ e ∈ State.reset.conditions.entries, e.code.cls ≠ .trip := by decide
  refine ⟨fun e he hcls => absurd hcls (htrips e he), fun u which => ?_, fun u => ?_⟩
  · cases u <;> cases which <;> (show ∀ e ∈ State.reset.conditions.entries, _) <;> decide
  · cases u <;> exact ⟨nofun, fun h => by rcases h with h | h <;> exact absurd rfl h⟩

/-- Settles O3, law by law. -/
theorem resetKeepsEveryLaw : Obligations.ResetKeepsEveryLaw := by
  obtain ⟨hgovernors, hrates⟩ := State.governors_sound_iff.mpr State.reset_governors_sound
  refine ⟨State.reset_conditions_lawful, hgovernors, hrates, fun u => ?_, Board.atStart_lawful, ?_,
    State.reset_selectionsMade, fun u => ?_, State.reset_touchLawful, State.reset_tripsListed, ?_,
    State.reset_targetsWithin⟩
  · cases u <;> rfl
  · have hlive : State.reset.liveNumbers = [] := by decide
    simp [State.numbersLawful, hlive]
  · cases u <;> exact Positioner.atStart_driveLawful ..
  · have hread : State.reset.store.readProfile = none := rfl
    have hwriting : State.reset.store.writing = none := rfl
    exact ⟨by decide, by simp [hread], by simp [hwriting]⟩

end Sys2Proof.Machine
end

section
/-! PROOFS. Frames and the requests they carry (R172, R174, R179), a frame received byte by byte (R173), and the bytes,
gaps and reply ends between (R170, R173). -/

namespace Sys2Proof

/-! ### A request and its frame -/

/-- A body that reads as a request is the body that carries it. -/
theorem Kind.encodeRequest_of_read {k : Kind} {l : Link} {tag : Byte} {body : List Byte} {i : Instr}
    (h : k.read l tag body = some i) : encodeRequest i = some ⟨l, tag, k, body⟩ := by
  cases k <;> simp only [Kind.read] at h <;> split at h <;> cases h <;> simp [encodeRequest]

/-- The body that carries a request reads as that request. -/
theorem Kind.read_of_encodeRequest {i : Instr} {f : RequestFrame} (h : encodeRequest i = some f) :
    f.kind.read f.link f.tag f.body = some i := by
  cases i <;> cases h <;> simp [Kind.read, halfBytes, wordBytes]

theorem decodeRequest_of_encodeRequest {i : Instr} {f : RequestFrame} (h : encodeRequest i = some f) :
    decodeRequest f.link f.tag f.kind.code f.body = some i := by
  rw [decodeRequest, Kind.ofCode_code]
  exact Kind.read_of_encodeRequest h

/-- Settles O12: the kind byte names the kind, and reading undoes writing both ways. -/
theorem requestsAndFramesAgree : Obligations.RequestsAndFramesAgree := by
  intro i l tag kind body
  constructor
  · intro h
    unfold decodeRequest at h
    split at h
    · cases h
    · next k hk => exact ⟨k, Kind.code_of_ofCode hk, Kind.encodeRequest_of_read h⟩
  · rintro ⟨k, rfl, h⟩
    exact decodeRequest_of_encodeRequest h

theorem Kind.bodyLength_le (k : Kind) : k.bodyLength ≤ 8 := by cases k <;> decide

theorem length_body_of_encodeRequest {i : Instr} {f : RequestFrame} (h : encodeRequest i = some f) :
    f.body.length ≤ 8 := by
  cases i <;> cases h <;> simp [halfBytes, wordBytes]

theorem halfBytes_injective {x y : Half} (h : halfBytes x = halfBytes y) : x = y := by
  obtain ⟨h1, h2⟩ : x.extractLsb' 8 8 = y.extractLsb' 8 8 ∧ x.extractLsb' 0 8 = y.extractLsb' 0 8 := by
    simpa [halfBytes] using h
  rw [← halfOf_halfBytes x, ← halfOf_halfBytes y, h1, h2]

namespace Machine

/-! ### The receive state of a link -/

section receiving

variable {s : State} {l : Link}

theorem elapsed_self (now : Nat) : elapsed now now = 0 := by
  unfold elapsed
  rw [Nat.add_sub_cancel_left]
  exact Nat.mod_self _

theorem State.receiving_receiving (s : State) (l : Link) (r r' : Option Receiving) :
    (s.receiving l r).receiving l r' = s.receiving l r' := by
  simp [State.receiving, State.modLink_modLink]

/-- HUNTING stays HUNTING. -/
theorem State.receiving_none_of_hunting (h : (s.link l).receiving = none) : s.receiving l none = s := by
  have : ({ s.link l with receiving := none } : LinkInterface) = s.links.get l := by rw [← h]; rfl
  simp only [State.receiving, State.modLink, this, PerLink.set_get]

theorem State.link_receiving_receiving (s : State) (l : Link) (r : Option Receiving) :
    ((s.receiving l r).link l).receiving = r := by simp [State.receiving]

/-- No gap has passed since a byte taken now. -/
theorem State.interByteGap_receiving_now (s : State) (l : Link) (bytes : List Byte) :
    (s.receiving l (some ⟨bytes, s.now⟩)).interByteGap l = s.receiving l (some ⟨bytes, s.now⟩) := by
  have hnow : (s.receiving l (some ⟨bytes, s.now⟩)).now = s.now := rfl
  simp [State.interByteGap, State.gapDue, State.link_receiving_receiving, hnow, elapsed_self]

/-- A byte taken into a frame begun at this instant. -/
theorem State.linkByte_receiving_now (hs : s.restart = .notTaken) (bytes : List Byte) (b : Byte) :
    (s.receiving l (some ⟨bytes, s.now⟩)).linkByte l b =
      (s.receiving l (some ⟨bytes, s.now⟩)).frameByte l (bytes ++ [b]) := by
  have hr : (s.receiving l (some ⟨bytes, s.now⟩)).restart = .notTaken := hs
  rw [State.linkByte, if_pos hr, State.interByteGap_receiving_now]
  simp [State.takeByte, State.link_receiving_receiving]

/-- A byte in the middle of a frame is taken. -/
theorem State.linkByte_middle (hs : s.restart = .notTaken) {n : Byte} {more : List Byte} {b : Byte}
    (hlen : more.length + 3 ≠ n.toNat + 4) :
    (s.receiving l (some ⟨Config.sync :: n :: more, s.now⟩)).linkByte l b =
      s.receiving l (some ⟨Config.sync :: n :: (more ++ [b]), s.now⟩) := by
  rw [State.linkByte_receiving_now hs]
  cases more <;> simp_all [State.frameByte, State.receiving_receiving] <;> rfl

/-- The byte n + 3 after the sync completes the frame. -/
theorem State.linkByte_last (hs : s.restart = .notTaken) {n : Byte} {more : List Byte} {b : Byte}
    (hlen : more.length + 3 = n.toNat + 4) :
    (s.receiving l (some ⟨Config.sync :: n :: more, s.now⟩)).linkByte l b =
      (s.receiving l none).completeFrame l (Config.sync :: n :: (more ++ [b])) := by
  rw [State.linkByte_receiving_now hs]
  cases more <;> simp_all [State.frameByte, State.receiving_receiving]

theorem State.linkByte_sync (hs : s.restart = .notTaken) (h : (s.link l).receiving = none) :
    s.linkByte l Config.sync = s.receiving l (some ⟨[Config.sync], s.now⟩) := by
  simp [State.linkByte, hs, State.interByteGap, State.gapDue, h, State.takeByte, State.frameByte]

theorem State.linkByte_length (hs : s.restart = .notTaken) {n : Byte} (hn : lengthOk n = true) :
    (s.receiving l (some ⟨[Config.sync], s.now⟩)).linkByte l n =
      s.receiving l (some ⟨[Config.sync, n], s.now⟩) := by
  rw [State.linkByte_receiving_now hs]
  simp [State.frameByte, hn, State.receiving_receiving]
  rfl

end receiving

/-! ### A run over the bytes of a frame -/

section run

variable {s : State} {l : Link}

theorem core_run_succ (M : Host.Core) {x y : M.State} (h : M.step x = .next y) (k : Nat) :
    M.run (k + 1) x = M.run k y := by
  rw [Host.Core.run, h]

/-- A run whose first step answers a next state goes on from there. -/
theorem run_of_step {x y : State} (h : step x = .next y) (k : Nat) :
    Sys2Proof.core.run (k + 1) x = Sys2Proof.core.run k y := by
  have hcore : Sys2Proof.core.step x = .next y := h
  exact core_run_succ Sys2Proof.core hcore k

/-- A run of a part that has power takes the byte at the front of its queue. -/
theorem run_linkByte (hs : s.powered = true) (k : Nat) (b : Byte) (q : List Instr) :
    Sys2Proof.core.run (k + 1) (s.withPending (.linkByteReceived l b :: q)) =
      Sys2Proof.core.run k ((s.withPending q).linkByte l b) := by
  have hstep : step (s.withPending (.linkByteReceived l b :: q)) = .next ((s.withPending q).linkByte l b) :=
    State.whenPowered_powered (s := s.withPending q) hs _
  exact run_of_step hstep k

/-- The bytes after the length, up to the last, complete the frame. -/
theorem run_frame_rest (hs : s.listening) {n : Byte} (more bytes : List Byte) (b : Byte) (q : List Instr)
    (hlen : more.length + bytes.length + 3 = n.toNat + 4) :
    Sys2Proof.core.run (bytes.length + 1)
        ((s.receiving l (some ⟨Config.sync :: n :: more, s.now⟩)).withPending
          ((bytes ++ [b]).map (.linkByteReceived l) ++ q)) =
      .next (((s.withPending q).receiving l none).completeFrame l
        (Config.sync :: n :: (more ++ (bytes ++ [b])))) := by
  obtain ⟨hpower, hrestart⟩ := hs
  induction bytes generalizing more with
  | nil =>
    rw [List.nil_append, List.map_singleton, List.singleton_append]
    refine (run_linkByte (s := s.receiving l _) hpower 0 b q).trans ?_
    exact congrArg Host.Outcome.next (State.linkByte_last (s := s.withPending q) hrestart (by simpa using hlen))
  | cons c bytes ih =>
    rw [List.cons_append, List.map_cons, List.cons_append, List.length_cons] at *
    refine (run_linkByte (s := s.receiving l _) hpower _ c _).trans ?_
    have hmiddle := State.linkByte_middle (l := l)
      (s := s.withPending ((bytes ++ [b]).map (.linkByteReceived l) ++ q)) (n := n) (more := more) (b := c)
      hrestart (by omega)
    have hnext := ih (more ++ [c]) (by simp only [List.length_append, List.length_singleton]; omega)
    rw [List.append_assoc, List.singleton_append] at hnext
    exact (congrArg (Sys2Proof.core.run (bytes.length + 1)) hmiddle).trans hnext

/-- The parts of a whole frame, found by its length byte. -/
theorem State.completeFrame_eq (s : State) (l : Link) (tag kind : Byte) {body : List Byte} (crc : Half)
    (hlen : body.length ≤ 40) :
    s.completeFrame l (Config.sync :: (frameCore tag kind body ++ halfBytes crc)) =
      if crc ≠ crc16 (frameCore tag kind body) then s
      else if (s.link l).replyPending then s else s.takeFrame l tag kind body := by
  have hn : (byteOf (body.length + 2)).toNat - 2 = body.length := by
    rw [toNat_byteOf (by omega)]
    omega
  have hcrc : halfBytes crc ≠ halfBytes (crc16 (frameCore tag kind body)) ↔
      crc ≠ crc16 (frameCore tag kind body) := not_congr ⟨halfBytes_injective, congrArg _⟩
  simp only [State.completeFrame, frameCore, List.cons_append, hn, List.take_left, List.drop_left] at hcrc ⊢
  simp only [hcrc]
  rfl

/-- A whole frame received in HUNTING, byte by byte, is completed by its last byte (R173). -/
theorem run_frame (hs : s.listening) (hhunting : (s.link l).receiving = none) (tag kind : Byte) {body : List Byte}
    (crc : Half) (hlen : body.length ≤ 40) (q : List Instr) {t : State}
    (ht : (s.withPending q).completeFrame l (Config.sync :: (frameCore tag kind body ++ halfBytes crc)) = t) :
    Sys2Proof.core.run (body.length + 6)
        (s.withPending
          ((Config.sync :: (frameCore tag kind body ++ halfBytes crc)).map (.linkByteReceived l) ++ q)) =
      .next t := by
  have ⟨hpower, hrestart⟩ := hs
  have hn : (byteOf (body.length + 2)).toNat = body.length + 2 := toNat_byteOf (by omega)
  have hok : lengthOk (byteOf (body.length + 2)) = true := by
    simp only [lengthOk, hn, Bool.and_eq_true, decide_eq_true_eq]
    omega
  -- the sync and the length, then the rest up to the last byte of the CRC
  set n := byteOf (body.length + 2) with hndef
  have hbytes : frameCore tag kind body ++ halfBytes crc =
      n :: ((tag :: kind :: body ++ [crc.extractLsb' 8 8]) ++ [crc.extractLsb' 0 8]) := by
    simp [frameCore, halfBytes, ← hndef]
  rw [hbytes] at ht ⊢
  set rest := tag :: kind :: body ++ [crc.extractLsb' 8 8] with hrest
  have hlast := run_frame_rest (s := s) (l := l) hs (n := n) [] rest (crc.extractLsb' 0 8) q
    (by simp [hrest, hn])
  rw [State.receiving_none_of_hunting (s := s.withPending q) hhunting, List.nil_append, ht] at hlast
  have hsteps : body.length + 6 = rest.length + 1 + 1 + 1 := by simp [hrest]
  rw [hsteps, List.map_cons, List.map_cons, List.cons_append, List.cons_append]
  set q2 := (rest ++ [crc.extractLsb' 0 8]).map (.linkByteReceived l) ++ q
  have hsync : (s.withPending (.linkByteReceived l n :: q2)).linkByte l Config.sync =
      (s.receiving l (some ⟨[Config.sync], s.now⟩)).withPending (.linkByteReceived l n :: q2) :=
    State.linkByte_sync (s := s.withPending _) hrestart hhunting
  have hlength : ((s.receiving l (some ⟨[Config.sync], s.now⟩)).withPending q2).linkByte l n =
      (s.receiving l (some ⟨[Config.sync, n], s.now⟩)).withPending q2 :=
    State.linkByte_length (s := s.withPending q2) hrestart hok
  rw [run_linkByte hpower, hsync, run_linkByte (s := s.receiving l _) hpower, hlength]
  exact hlast

end run

/-- Settles O13: the frame passes its CRC, no reply is pending, and its bytes read as the request. -/
theorem frameByBytesIsItsRequest : Obligations.FrameByBytesIsItsRequest := by
  intro i f rest s hi hs hhunting hpending
  have hlen : f.body.length ≤ 40 := (length_body_of_encodeRequest hi).trans (by decide)
  have hbytes : f.bytes.length = f.body.length + 6 := by simp [RequestFrame.bytes, frameOf, frameCore, halfBytes]
  rw [hbytes, exec_request hi, State.whenPowered_powered (s := s.withPending rest) hs.1]
  refine run_frame hs hhunting f.tag f.kind.code (crc16 (frameCore f.tag f.kind.code f.body)) hlen rest ?_
  rw [State.completeFrame_eq _ _ _ _ _ hlen]
  simp [hpending, State.takeFrame, decodeRequest_of_encodeRequest hi]

theorem State.reply_refuse_replyBegins (s : State) (l : Link) (tag kind : Byte) (status : Status) :
    ((s.replyBegins l).refuse status).reply l tag kind = s.answered l tag kind (Answer.refuse status) := by
  rw [Decision.reply, State.refuse, State.replyBegins, State.modLink_modLink]
  rfl

/-- Settles O14: a frame that fails its CRC, or finds a reply pending, is discarded; one that reads as no request is
refused. -/
theorem badFramesChangeNothing : Obligations.BadFramesChangeNothing := by
  refine ⟨fun l tag kind body crc rest s hs hhunting hlen hbad => ?_,
    fun l tag kind body rest s hs hhunting hpending hlen hdecode => ?_⟩
  · refine run_frame hs hhunting tag kind crc hlen rest ?_
    rw [State.completeFrame_eq _ _ _ _ _ hlen]
    rcases hbad with hcrc | hpending
    · rw [if_pos hcrc]
    · simp [hpending]
  · refine run_frame hs hhunting tag kind _ hlen rest ?_
    rw [State.completeFrame_eq _ _ _ _ _ hlen]
    simp [hpending, State.takeFrame, hdecode, State.refuseFormat, State.reply_refuse_replyBegins]

/-! ### Bytes, gaps and reply ends -/

/-- A gap that is not due discards nothing, and one that is brings the link to HUNTING. -/
theorem State.interByteGap_eq {s : State} {l : Link} {r : Receiving} (h : (s.link l).receiving = some r) :
    s.interByteGap l = if 5 < elapsed s.now r.lastByte then s.receiving l none else s := by
  have hdue : s.gapDue l = decide (5 < elapsed s.now r.lastByte) := by
    rw [State.gapDue, h]
    rfl
  rw [State.interByteGap, hdue]
  by_cases hgap : 5 < elapsed s.now r.lastByte <;> simp [hgap]

theorem State.interByteGap_hunting {s : State} {l : Link} (h : (s.link l).receiving = none) :
    s.interByteGap l = s := by
  simp [State.interByteGap, State.gapDue, h]

theorem State.withRestart_eq_self {s : State} {x : RestartPhase} (h : s.restart = x) : s.withRestart x = s := by
  subst h
  rfl

theorem State.restartReplied_eq {s : State} {x : RestartPhase} (h : s.restart = x) (l : Link) :
    s.restartReplied l = s.withRestart (if l = .sv ∧ x = .replying then .replied else x) := by
  subst h
  by_cases hl : l = .sv ∧ s.restart = .replying
  · simp [State.restartReplied, hl]
  · rw [State.restartReplied, if_neg hl, if_neg (by simpa using hl), State.withRestart_eq_self rfl]

/-- Settles O15: each case by the receive state, the gap and the pending reply. -/
theorem bytesAreJudgedByReceiveState : Obligations.BytesAreJudgedByReceiveState := by
  refine ⟨fun l b s hs => ⟨fun hr => ?taken, fun hr hh hb => ?noSync, fun hr hh hb => ?sync,
    fun r hr hrec hbytes hgap hn => ?badLength⟩, fun l r s hs hrec => ⟨fun hgap => ⟨?due, fun b hr => ?judged⟩,
    fun hgap => ?short⟩, fun l s hs hpending => ?replySent⟩
  case taken => rw [exec_linkByteReceived, State.whenPowered_powered hs, State.linkByte, if_neg hr]
  case noSync =>
    rw [exec_linkByteReceived, State.whenPowered_powered hs, State.linkByte, if_pos hr, State.interByteGap_hunting hh]
    simp [State.takeByte, hh, Config.sync, hb]
  case sync =>
    rw [exec_linkByteReceived, State.whenPowered_powered hs, hb]
    exact congrArg _ (State.linkByte_sync hr hh)
  case badLength =>
    have hok : lengthOk b = false := by
      simp only [lengthOk, Bool.and_eq_false_iff, decide_eq_false_iff_not]
      omega
    rw [exec_linkByteReceived, State.whenPowered_powered hs, State.linkByte, if_pos hr, State.interByteGap_eq hrec,
      if_neg (not_lt.mpr hgap)]
    simp [State.takeByte, hrec, hbytes, State.frameByte, hok, State.receiving]
  case due =>
    rw [exec_interByteGap, State.whenPowered_powered hs, State.interByteGap_eq hrec, if_pos hgap]
    rfl
  case judged =>
    have hhunting := s.link_receiving_receiving l none
    rw [exec_linkByteReceived, State.whenPowered_powered hs, exec_linkByteReceived,
      State.whenPowered_powered (by simpa using hs), State.linkByte, if_pos hr, State.interByteGap_eq hrec,
      if_pos hgap, State.linkByte, if_pos (by simpa using hr)]
    exact congrArg (fun x => Host.Outcome.next (x.takeByte l b)) (State.interByteGap_hunting hhunting).symm
  case short => rw [exec_interByteGap, State.whenPowered_powered hs, State.interByteGap_eq hrec, if_neg (not_lt.mpr hgap)]
  case replySent =>
    rw [exec_replySent, State.whenPowered_powered hs, State.replySent, if_pos hpending,
      State.restartReplied_eq (State.modLink_restart ..)]

end Machine

end Sys2Proof
end

section
/-! PROOFS. The judging of requests in the order of R175, the requests of clock, lock and RESTART (R162, R170, R176), and
the Calibration Store with its starts and losses of power (R164 to R170). -/

namespace Sys2Proof.Machine

variable {s : State} {l : Link} {tag : Byte}

theorem ofNumber_number (st : Station) : Station.ofNumber st.number = some st := by
  obtain ⟨t, role⟩ := st
  cases t <;> cases role <;> rfl

/-! ### A request judged (R175) -/

/-- A request command is a frame of its kind, with its fields checked, judged by its owner. -/
theorem exists_takeCommand_eq {i : Instr} {f : RequestFrame} (h : encodeRequest i = some f) :
    ∃ owner, ∀ s : State, s.takeCommand i = s.takeRequest f.link f.tag f.kind (wellFormed i) owner := by
  cases i <;> cases h <;> exact ⟨_, fun _ => rfl⟩

theorem State.onset_modLink (s : State) (l : Link) (f : LinkInterface → LinkInterface) (code : Code)
    (sub : Subject) (d : Option Detail) : (s.modLink l f).onset code sub d = (s.onset code sub d).modLink l f := rfl

/-- A link's lock and its report, with the refusal that follows them (R176). -/
theorem State.reply_lockLink_replyBegins (s : State) (l : Link) (tag kind : Byte) :
    (((s.replyBegins l).lockLink l).refuse .notAuthorised).reply l tag kind =
      ((s.onset .linkLocked (.link l) none).modLink l fun k => { k with locked := true }).answered l tag kind
        (Answer.refuse .notAuthorised) := by
  simp only [Decision.reply, State.refuse, State.lockLink, State.replyBegins, State.onset_modLink,
    State.modLink_modLink, State.answered]
  rfl

theorem State.takeRequest_after_restart (h : s.restart ≠ .notTaken) (k : Kind) (ok : Bool)
    (owner : State → Decision) : s.takeRequest l tag k ok owner = s := if_neg h

section judged

variable {k : Kind} {ok : Bool} {owner : State → Decision}

theorem State.takeRequest_locked (hs : s.restart = .notTaken) (hl : (s.link l).locked = true)
    (hread : k.isRead = false) (hk : k ≠ .clearLock) :
    s.takeRequest l tag k ok owner = s.answered l tag k.code (Answer.refuse .linkLocked) := by
  have hlocked : ((s.replyBegins l).link l).locked = true := by simpa [State.replyBegins] using hl
  rw [State.takeRequest, if_pos hs, State.judged, if_pos (by simp [hlocked, hread, hk])]
  exact State.reply_refuse_replyBegins ..

theorem State.takeRequest_not_allowed (hs : s.restart = .notTaken) (hl : (s.link l).locked = false)
    (hk : k.allowed l = false) :
    s.takeRequest l tag k ok owner =
      ((s.onset .linkLocked (.link l) none).modLink l fun k => { k with locked := true }).answered l tag k.code
        (Answer.refuse .notAuthorised) := by
  have hlocked : ((s.replyBegins l).link l).locked = false := by simpa [State.replyBegins] using hl
  rw [State.takeRequest, if_pos hs, State.judged, if_neg (by simp [hlocked]), if_pos (by simp [hk])]
  exact State.reply_lockLink_replyBegins ..

theorem State.takeRequest_ill_formed (hs : s.restart = .notTaken) (hl : (s.link l).locked = false)
    (hk : k.allowed l = true) :
    s.takeRequest l tag k false owner = s.answered l tag k.code (Answer.refuse .format) := by
  have hlocked : ((s.replyBegins l).link l).locked = false := by simpa [State.replyBegins] using hl
  rw [State.takeRequest, if_pos hs, State.judged, if_neg (by simp [hlocked]), if_neg (by simp [hk]), if_pos (by simp)]
  exact State.reply_refuse_replyBegins ..

/-- A request that passes the checks of the link reaches its owner. -/
theorem State.takeRequest_owned (hs : s.takesOn l) (hk : k.allowed l = true) :
    s.takeRequest l tag k true owner = (owner (s.replyBegins l)).reply l tag k.code := by
  obtain ⟨⟨-, hrestart⟩, hl⟩ := hs
  have hlocked : ((s.replyBegins l).link l).locked = false := by simpa [State.replyBegins] using hl
  rw [State.takeRequest, if_pos hrestart, State.judged, if_neg (by simp [hlocked]), if_neg (by simp [hk]),
    if_neg (by simp)]

theorem Decision.reply_replyBegins (t : State) (l : Link) (tag kind : Byte) (a : Answer) :
    (⟨t.replyBegins l, a⟩ : Decision).reply l tag kind = t.answered l tag kind a := by
  rw [Decision.reply, State.replyBegins, State.modLink_modLink]
  rfl

/-- A request whose owner acts and answers, whatever the link's reply-pending. -/
theorem State.takeRequest_answered {t : State} {a : Answer} (hs : s.takesOn l) (hk : k.allowed l = true)
    (howner : owner (s.replyBegins l) = ⟨t.replyBegins l, a⟩) :
    s.takeRequest l tag k true owner = t.answered l tag k.code a := by
  rw [State.takeRequest_owned hs hk, howner, Decision.reply_replyBegins]

end judged

/-- A setting request of a link outside the station's AUTHORITY locks the link (R31, R176). -/
theorem State.ownSetting_unauthorised {q : SettingRequest} {role : Role} {st : Station}
    (hst : Station.ofNumber q.station.toNat = some st) (hpresent : s.present st.train = true)
    (hrole : st.role = role) (hauthority : (s.authority st).has q.link = false) :
    s.ownSetting role q = (s.lockLink q.link).refuse .notAuthorised := by
  simp [State.ownSetting, State.withPresent, hst, hpresent, hrole, hauthority]

theorem State.authority_replyBegins (s : State) (l : Link) (st : Station) :
    (s.replyBegins l).authority st = s.authority st := rfl

theorem State.takeRequest_setting_unauthorised {q : SettingRequest} {k : Kind} {st : Station}
    (hs : s.takesOn q.link) (hk : k.allowed q.link = true) (hst : q.station.toNat = st.number)
    (hpresent : s.present st.train = true) (hauthority : (s.authority st).has q.link = false) :
    s.takeRequest q.link q.tag k true (State.ownSetting st.role q) =
      ((s.onset .linkLocked (.link q.link) none).modLink q.link fun k => { k with locked := true }).answered q.link
        q.tag k.code (Answer.refuse .notAuthorised) := by
  have hnumber : Station.ofNumber q.station.toNat = some st := hst ▸ ofNumber_number st
  rw [State.takeRequest_owned hs hk,
    State.ownSetting_unauthorised (s := s.replyBegins q.link) hnumber hpresent rfl hauthority]
  exact State.reply_lockLink_replyBegins ..

/-- Settles O16: the checks of R175 in their order, and the AUTHORITY of R31. -/
theorem requestsAreJudgedInOrder : Obligations.RequestsAreJudgedInOrder := by
  refine ⟨fun i f s hi => ?_, fun l tag b priority value keep wait st s hs hpriority hwait hst hpresent
    hauthority => ⟨fun hrole => ?_, fun hrole => ?_⟩⟩
  · obtain ⟨owner, howner⟩ := exists_takeCommand_eq hi
    have hexec : exec i s = s.whenPowered fun s => s.takeRequest f.link f.tag f.kind (wellFormed i) owner := by
      rw [exec_request hi]
      exact congrArg s.whenPowered (funext howner)
    refine ⟨fun hr => ?_, fun hs hl hread hk => ?_, fun hs hk => ?_, fun hs hk hok => ?_⟩
    · rw [hexec, State.whenPowered, State.takeRequest_after_restart hr, ite_self]
    · rw [hexec, State.whenPowered_powered hs.1, State.takeRequest_locked hs.2 hl hread hk]
    · rw [hexec, State.whenPowered_powered hs.1.1, State.takeRequest_not_allowed hs.1.2 hs.2 hk]
    · rw [hexec, State.whenPowered_powered hs.1.1, hok, State.takeRequest_ill_formed hs.1.2 hs.2 hk]
  all_goals
    have hok : settingFieldsOk priority wait = true := by simp [settingFieldsOk, hpriority, hwait]
    have hpower := hs.1.1
  · rw [exec_setGap, State.whenPowered_powered hpower, State.takeSetGap, hok, ← hrole]
    exact congrArg _ (State.takeRequest_setting_unauthorised (q := ⟨l, tag, b, value, priority, keep, wait⟩)
      hs (by cases l <;> rfl) hst hpresent hauthority)
  · rw [exec_setRate, State.whenPowered_powered hpower, State.takeSetRate, hok, ← hrole]
    exact congrArg _ (State.takeRequest_setting_unauthorised (q := ⟨l, tag, b, value, priority, keep, wait⟩)
      hs (by cases l <;> rfl) hst hpresent hauthority)

/-! ### RESTART, SET CLOCK, CLEAR LOCK -/

/-- Settles O20: each request reaches its owner and is answered DONE. -/
theorem restartClockAndLockRequests : Obligations.RestartClockAndLockRequests := by
  refine ⟨fun tag s hs => ?_, fun tag value s hs => ?_, fun l tag s hs => ?_⟩
  · rw [exec_restart, State.whenPowered_powered hs.1.1]
    exact congrArg _ (State.takeRequest_answered (t := s.withRestart .replying) hs rfl rfl)
  · have hvalue : f4 value.toNat = wordBytes value := by simp [f4]
    rw [exec_setClock, State.whenPowered_powered hs.1.1, ← hvalue]
    exact congrArg _ (State.takeRequest_answered (t := s.withTime _) hs rfl rfl)
  · have hlocked : ((s.replyBegins l).link l).locked = (s.link l).locked := by simp [State.replyBegins]
    have hallowed : Kind.clearLock.allowed l = true := by cases l <;> rfl
    rw [exec_clearLock, State.whenPowered_powered hs.1, State.takeClearLock, State.takeRequest, if_pos hs.2,
      State.judged, if_neg (by simp), if_neg (by simp [hallowed]), if_neg (by simp), State.ownClearLock,
      State.unlockLink, hlocked]
    refine congrArg _ ?_
    cases hl : (s.link l).locked <;>
      simp only [Decision.reply, State.done, State.replyBegins, State.causeEnd, State.answered,
        Bool.false_eq_true, if_false, if_true] <;>
      simp only [State.modLink, State.modConditions, State.link, PerLink.get_set_self,
        PerLink.set_set] <;> rfl

end Sys2Proof.Machine
end

section
/-! PROOFS. The start of the part from its store with the conditions of the load (R164, R169, R170), the loss of its
supply, and the writes of the store (R165 to R167). -/

namespace Sys2Proof.Machine

variable {a b s : State}

/-! ### The conditions of a load (R169) -/

/-- A load on the way: the blocks as loaded, with some of the names tried so far listed. -/
structure Loading (blocks : State) (tried : List (Code × Subject)) (entries : List Entry) (s : State) : Prop where
  state : s = { blocks with conditions := ⟨entries, 0, none⟩ }
  names : (entries.map Entry.name).Sublist tried

theorem Loading.report {tried : List (Code × Subject)} {entries : List Entry} (h : Loading a tried entries s)
    (c : Bool) {code : Code} {sub : Subject} (d : Option Detail) (hcls : code.cls ≠ .trip)
    (hnew : (code, sub) ∉ tried) (hroom : tried.length < 16) :
    Loading a (tried ++ [(code, sub)]) (entries ++ if c then [Entry.fresh code sub a.stamp d] else [])
      (if c then s.onset code sub d else s) := by
  obtain ⟨rfl, hnames⟩ := h
  cases c with
  | false => exact ⟨by simp, by simpa using hnames.trans (List.sublist_append_left ..)⟩
  | true =>
    have hlisted : (⟨entries, 0, none⟩ : ConditionList).listed code sub = false :=
      ConditionList.listed_eq_false_iff_name.mpr fun e he hname =>
        hnew (hnames.subset (hname ▸ List.mem_map_of_mem he))
    have hlength : entries.length < 16 := lt_of_le_of_lt (by simpa using hnames.length_le) hroom
    refine ⟨?_, ?_⟩
    · simp only [if_true, State.onset, State.modConditions]
      rw [ConditionList.onset_room hlisted hlength]
      simp [ConditionList.appended, Entry.fresh, hcls]
      rfl
    · simpa [Entry.name_fresh] using hnames

theorem Loading.reportSection {tried : List (Code × Subject)} {entries : List Entry} (h : Loading a tried entries s)
    (sec : StoreSection) (passes : Bool) (hnew : (Code.storeFault, Subject.storeSection sec) ∉ tried)
    (hroom : tried.length < 16) :
    Loading a (tried ++ [(.storeFault, .storeSection sec)])
      (entries ++
        if !passes then [Entry.fresh .storeFault (.storeSection sec) a.stamp (some (.storeSection sec))] else [])
      (s.reportSection sec passes) := by
  have := h.report (!passes) (some (.storeSection sec)) (code := .storeFault) (by decide) hnew hroom
  cases passes <;> exact this

theorem Loading.reportZero {tried : List (Code × Subject)} {entries : List Entry} (h : Loading a tried entries s)
    (u : Train) (hnew : (Code.zeroUnset, Subject.crusher u) ∉ tried) (hroom : tried.length < 16) :
    Loading a (tried ++ [(.zeroUnset, .crusher u)])
      (entries ++ if a.present u && !(a.zero u).valid then [Entry.fresh .zeroUnset (.crusher u) a.stamp none] else [])
      (s.reportZero u) := by
  have hflag : (s.present u && !(s.zero u).valid) = (a.present u && !(a.zero u).valid) := by rw [h.state]; rfl
  rw [State.reportZero, hflag]
  exact h.report _ none (by decide) hnew hroom

theorem Loading.reportWear {tried : List (Code × Subject)} {entries : List Entry} (h : Loading a tried entries s)
    (u : Train) (hnew : (Code.wearLimit, Subject.crusher u) ∉ tried) (hroom : tried.length < 16) :
    Loading a (tried ++ [(.wearLimit, .crusher u)])
      (entries ++ if a.wearLimitStands u then [Entry.fresh .wearLimit (.crusher u) a.stamp none] else [])
      (s.reportWear u) := by
  have hflag : s.wearLimitStands u = a.wearLimitStands u := by rw [h.state]; rfl
  rw [State.reportWear, hflag]
  exact h.report _ none (by decide) hnew hroom

/-- The entries that the reports of a load make, in the order of R169. -/
def State.loadEntries (a : State) : List Entry :=
  (((if !a.store.readProfile.isSome then
          [Entry.fresh .storeFault (.storeSection .profile) a.stamp (some (.storeSection .profile))] else []) ++
        if !a.store.readZero.isSome then
          [Entry.fresh .storeFault (.storeSection .zero) a.stamp (some (.storeSection .zero))] else []) ++
      if !a.store.readWear.isSome then
        [Entry.fresh .storeFault (.storeSection .wear) a.stamp (some (.storeSection .wear))] else []) ++
    (Train.all.filter fun u => a.present u && !(a.zero u).valid).map
      (fun u => Entry.fresh .zeroUnset (.crusher u) a.stamp none) ++
    (Train.all.filter fun u => a.wearLimitStands u).map fun u => Entry.fresh .wearLimit (.crusher u) a.stamp none

theorem State.loadEntries_eq (a : State) : a.loadEntries = a.loadConditions a.stamp := by
  unfold State.loadEntries State.loadConditions
  cases a.store.readProfile <;> cases a.store.readZero <;> cases a.store.readWear <;> rfl

theorem map_filter_trains (p : Train → Bool) (f : Train → Entry) :
    (Train.all.filter p).map f =
      (((if p .t0 then [f .t0] else []) ++ if p .t1 then [f .t1] else []) ++ if p .t2 then [f .t2] else []) ++
        if p .t3 then [f .t3] else [] := by
  simp only [Train.all, List.filter_cons, List.filter_nil]
  cases p .t0 <;> cases p .t1 <;> cases p .t2 <;> cases p .t3 <;> rfl

theorem State.forTrains_eq (s : State) (f : Train → State → State) :
    s.forTrains f = f .t3 (f .t2 (f .t1 (f .t0 s))) := rfl

/-- The reports of a load list its conditions and change nothing else of the blocks loaded. -/
theorem State.reports_eq (h : a.conditions = ConditionList.atStart) {profile zero wear : Bool}
    (hp : profile = a.store.readProfile.isSome) (hz : zero = a.store.readZero.isSome)
    (hw : wear = a.store.readWear.isSome) :
    ((((a.reportSection .profile profile).reportSection .zero zero).reportSection .wear wear).forTrains
        State.reportZero).forTrains State.reportWear =
      { a with conditions := ⟨a.loadConditions a.stamp, 0, none⟩ } := by
  subst hp hz hw
  have h0 : Loading a [] [] a := ⟨by rw [show (⟨[], 0, none⟩ : ConditionList) = a.conditions from h.symm], by simp⟩
  have h1 := h0.reportSection .profile a.store.readProfile.isSome (by decide) (by decide)
  have h2 := h1.reportSection .zero a.store.readZero.isSome (by decide) (by decide)
  have h3 := h2.reportSection .wear a.store.readWear.isSome (by decide) (by decide)
  have h4 := (((h3.reportZero .t0 (by decide) (by decide)).reportZero .t1 (by decide) (by decide)).reportZero .t2
    (by decide) (by decide)).reportZero .t3 (by decide) (by decide)
  have h5 := (((h4.reportWear .t0 (by decide) (by decide)).reportWear .t1 (by decide) (by decide)).reportWear .t2
    (by decide) (by decide)).reportWear .t3 (by decide) (by decide)
  rw [State.forTrains_eq, State.forTrains_eq, h5.state, ← a.loadEntries_eq, State.loadEntries, map_filter_trains, map_filter_trains]
  simp only [List.nil_append, List.append_assoc]

/-- A start leaves the blocks as loaded, with the conditions of the load listed. -/
theorem startFrom_eq (store : Store) (stamp : Stamp) (pending : List Instr) :
    startFrom store stamp pending =
      { blocksAtStart store stamp pending with
        conditions := ⟨(blocksAtStart store stamp pending).loadConditions stamp, 0, none⟩ } := by
  have hconditions : (blocksAtStart store stamp pending).conditions = ConditionList.atStart := rfl
  have hstore : (blocksAtStart store stamp pending).store = store.atStart := rfl
  have hstamp : (blocksAtStart store stamp pending).stamp = stamp := rfl
  unfold startFrom
  generalize blocksAtStart store stamp pending = a at *
  have hprofile : store.readProfile = a.store.readProfile := by rw [hstore, Store.readProfile_atStart]
  have hzero : store.readZero = a.store.readZero := by rw [hstore, Store.readZero_atStart]
  have hwear : store.readWear = a.store.readWear := by rw [hstore, Store.readWear_atStart]
  rw [hprofile, hzero, hwear, ← hstamp]
  exact State.reports_eq hconditions rfl rfl rfl

/-- A start from a store is the start of R169. -/
theorem startFrom_startedFrom (store : Store) (stamp : Stamp) (pending : List Instr) :
    (startFrom store stamp pending).startedFrom store stamp := by
  rw [startFrom_eq]
  refine ⟨rfl, rfl, rfl, rfl, rfl, rfl, rfl, rfl, fun l => ?_, rfl, fun u => ?_⟩
  · cases l <;> rfl
  · refine ⟨?_, ?_, ?_, ?_, ?_, ?_, ?_, ?_, ?_⟩ <;> cases u <;> rfl

theorem startFrom_pending (store : Store) (stamp : Stamp) (pending : List Instr) :
    (startFrom store stamp pending).pending = pending := by
  rw [startFrom_eq]
  rfl

/-- Settles O17: a start is taken from the store cut short, or from the store once the RESTART may begin. -/
theorem startsLoadTheStore : Obligations.StartsLoadTheStore := by
  refine ⟨fun s => ⟨_, rfl, startFrom_startedFrom .., startFrom_pending ..⟩,
    fun s hs => ⟨fun hr hw => ?_, fun h => ?_⟩⟩
  · refine ⟨startFrom s.store s.stamp s.pending, ?_, startFrom_startedFrom .., startFrom_pending ..⟩
    rw [exec_restartStart, State.whenPowered_powered hs, State.restartStart,
      if_pos (by simp [State.restartDue, hr, hw])]
  · have hdue : s.restartDue = false := by
      rcases h with h | h <;> simp [State.restartDue, h, Option.isNone_eq_false_iff, Option.isSome_iff_ne_none]
    rw [exec_restartStart, State.whenPowered_powered hs, State.restartStart, hdue]
    rfl

/-! ### Loss of supply (R164, section 9.4) -/

theorem State.valveOutput_unpowered (h : s.powered = false) (u : Train) (d : Direction) : s.valveOutput u d = 0 :=
  if_neg (by simp [h])

theorem State.rateOutput_unpowered (h : s.powered = false) (u : Train) : s.rateOutput u = 0 :=
  if_neg (by simp [h])

theorem State.beaconLit_unpowered (h : s.powered = false) (c : ConditionClass) : s.beaconLit c = false := by
  simp [State.beaconLit, h]

theorem Store.cutShort_profile {st : Store} (h : st.writing.map WriteJob.sec ≠ some .profile) :
    st.cutShort.profile = st.profile := by
  unfold Store.cutShort
  split <;> simp_all [WriteJob.sec]

theorem Store.cutShort_zero {st : Store} (h : st.writing.map WriteJob.sec ≠ some .zero) :
    st.cutShort.zero = st.zero := by
  unfold Store.cutShort
  split <;> simp_all [WriteJob.sec]

theorem Store.cutShort_wear {st : Store} (h : st.writing.map WriteJob.sec ≠ some .wear) :
    st.cutShort.wear = st.wear := by
  unfold Store.cutShort
  split <;> simp_all [WriteJob.sec]

/-- The section read is not among the faults of a load. -/
theorem State.listed_storeFault_profile {t : State} {stamp : Stamp} {overflow : Nat} {f : Option FirstOut}
    (h : t.store.readProfile ≠ none) :
    ConditionList.listed ⟨t.loadConditions stamp, overflow, f⟩ .storeFault (.storeSection .profile) = false := by
  have hsome : t.store.readProfile.isNone = false := by
    simpa [Option.isNone_eq_false_iff, Option.isSome_iff_ne_none] using h
  rw [ConditionList.listed_eq_false_iff_name]
  intro e he
  simp only [State.loadConditions, hsome, List.mem_append, List.mem_map] at he
  rcases he with (⟨sec, hsec, rfl⟩ | ⟨u, -, rfl⟩) | ⟨u, -, rfl⟩
  · rcases hsec with (hsec | hsec) | hsec
    · simp at hsec
    · split at hsec <;> simp_all [Entry.name]
    · split at hsec <;> simp_all [Entry.name]
  · simp [Entry.name]
  · simp [Entry.name]

/-- STORE_FAULT for PROFILE comes first where PROFILE failed (R169). -/
theorem State.loadConditions_profile {t : State} {stamp : Stamp} (h : t.store.readProfile = none) :
    (t.loadConditions stamp).head? =
      some ⟨.storeFault, .storeSection .profile, stamp, 1, false, true, some (.storeSection .profile)⟩ := by
  simp [State.loadConditions, h]

theorem State.present_of_working {t : State} {p : Profile} (h : t.working = p) (u : Train) :
    t.present u = p.line.trainsPresent.get u := by
  subst h
  rfl

theorem DirtySet.first_clean : DirtySet.first ⟨false, false, false⟩ = none := rfl

/-- A completed write, with nothing else dirty, leaves the store IDLE (R165, R166). -/
theorem State.writeCompleted_clean {job : WriteJob} (hw : s.store.writing = some job)
    (h : s.store.dirty = ⟨false, false, false⟩ ∨ s.restart ≠ .notTaken) :
    s.writeCompleted true =
      (s.withStore { s.store.written job with writing := none }).causeEnd .storeFault (.storeSection job.sec) := by
  rw [State.writeCompleted, hw]
  dsimp only
  rw [if_pos rfl, State.startWrite]
  rcases h with h | h
  · split
    · rfl
    · have hfirst : ((s.withStore { s.store.written job with writing := none }).causeEnd .storeFault
          (.storeSection job.sec)).store.dirty.first = none := by
        simp [h, DirtySet.first_clean]
      rw [hfirst]
  · rw [if_pos (by simp [h])]

theorem step_of_exec {c : Instr} {rest : List Instr} {t : State} (h : exec c (s.withPending rest) = .next t) :
    step (s.withPending (c :: rest)) = .next t := h

/-- Settles O18: a part without supply keeps its store alone, and a start reads what passes its check. -/
theorem lossOfPowerKeepsTheSections : Obligations.LossOfPowerKeepsTheSections := by
  refine ⟨fun s hs => ?_, fun s p hs hw hd => ⟨?completed, ?cut⟩, fun st p z w =>
    ⟨readSection_eq_some, readSection_eq_some, readSection_eq_some⟩⟩
  · have hoff : s.lossOfPower.powered = false := rfl
    refine ⟨s.lossOfPower, by rw [exec_lossOfPower, State.whenPowered_powered hs], hoff, rfl, rfl, rfl,
      ⟨fun h => ?_, fun h => Store.cutShort_profile h, fun h => ?_, fun h => Store.cutShort_zero h, fun h => ?_,
        fun h => Store.cutShort_wear h⟩,
      State.valveOutput_unpowered hoff, State.rateOutput_unpowered hoff, State.beaconLit_unpowered hoff⟩
    · exact Store.readProfile_cutShort.trans (if_pos h)
    · exact Store.readZero_cutShort.trans (if_pos h)
    · exact Store.readWear_cutShort.trans (if_pos h)
  case completed =>
    set s1 := (s.withStore { s.store.written (.profile p) with writing := none }).causeEnd .storeFault
      (.storeSection .profile) with hs1
    have hstep1 : step (s.withPending [.storeWriteComplete true, .lossOfPower, .powerOn]) =
        .next (s1.withPending [.lossOfPower, .powerOn]) := by
      refine step_of_exec ?_
      rw [exec_storeWriteComplete,
        State.whenPowered_powered (s := s.withPending [.lossOfPower, .powerOn]) hs]
      exact congrArg _ (State.writeCompleted_clean (s := s.withPending [.lossOfPower, .powerOn]) hw (.inl hd))
    have hstep2 : step (s1.withPending [.lossOfPower, .powerOn]) =
        .next (s1.lossOfPower.withPending [.powerOn]) :=
      step_of_exec (State.whenPowered_powered (s := s1.withPending [.powerOn]) hs _)
    have hread : s1.lossOfPower.store.cutShort.readProfile = some p := by
      have hidle : s1.store.writing = none := rfl
      rw [Store.cutShort_idle rfl]
      show s1.store.cutShort.atStart.readProfile = _
      rw [Store.cutShort_idle hidle]
      exact readSection_make p
    have hstarted := startFrom_startedFrom s1.lossOfPower.store.cutShort ⟨0, false⟩ []
    obtain ⟨hpower, -, -, hstore, hworking, -, -, -, -, hconditions, -⟩ := hstarted
    have hstep3 : step (s1.lossOfPower.withPending [.powerOn]) =
        .next (startFrom s1.lossOfPower.store.cutShort ⟨0, false⟩ []) := step_of_exec (exec_powerOn _)
    refine ⟨_, (run_of_step hstep1 2).trans ((run_of_step hstep2 1).trans (run_of_step hstep3 0)), hpower, ?_, ?_⟩
    · exact hworking.trans (by rw [hread]; rfl)
    · rw [hconditions]
      refine State.listed_storeFault_profile ?_
      rw [hstore]
      exact fun h => by cases hread.symm.trans h
  case cut =>
    have hstep1 : step (s.withPending [.lossOfPower, .powerOn]) = .next (s.lossOfPower.withPending [.powerOn]) :=
      step_of_exec (State.whenPowered_powered (s := s.withPending [.powerOn]) hs _)
    have hstep2 : step (s.lossOfPower.withPending [.powerOn]) =
        .next (startFrom s.lossOfPower.store.cutShort ⟨0, false⟩ []) := step_of_exec (exec_powerOn _)
    have hread : s.lossOfPower.store.cutShort.readProfile = none := by
      rw [Store.cutShort_idle rfl]
      exact Store.readProfile_cutShort.trans (if_pos (by rw [hw]; rfl))
    obtain ⟨hpower, -, -, hstore, hworking, -, -, -, -, hconditions, -⟩ :=
      startFrom_startedFrom s.lossOfPower.store.cutShort ⟨0, false⟩ []
    rw [hread] at hworking
    refine ⟨_, (run_of_step hstep1 1).trans (run_of_step hstep2 0), hpower, hworking, fun u => ?_, ?_⟩
    · exact (State.present_of_working hworking u).trans (Quad.get_all ..)
    · rw [hconditions]
      refine State.loadConditions_profile ?_
      rw [hstore]
      exact hread

/-! ### Writes of the store (R165 to R167) -/

/-- The section that a dirty set writes first (R165). -/
theorem DirtySet.first_eq_some {d : DirtySet} (h : d ≠ ⟨false, false, false⟩) :
    d.first = some (if d.zero then .zero else if d.wear then .wear else .profile) := by
  obtain ⟨p, z, w⟩ := d
  cases p <;> cases z <;> cases w <;> first | rfl | exact absurd rfl h

/-- A write starts from IDLE with the first dirty section, taken out of the dirty set (R165). -/
theorem State.startWrite_idle {sec : StoreSection} (hr : s.restart = .notTaken) (hw : s.store.writing = none)
    (hd : s.store.dirty.first = some sec) :
    s.startWrite =
      s.withStore { s.store with
        dirty := s.store.dirty.put sec false
        writing := some (s.sectionContents sec) } := by
  rw [State.startWrite, if_neg (by simp [hr, hw]), hd]

theorem State.startWrite_writing (hw : s.store.writing ≠ none) : s.startWrite = s :=
  if_pos (by simp [Option.isSome_iff_ne_none, hw])

theorem State.startWrite_none (hd : s.store.dirty.first = none) : s.startWrite = s := by
  rw [State.startWrite, hd, ite_self]

theorem State.startWrite_modLink (s : State) (l : Link) (f : LinkInterface → LinkInterface) :
    (s.modLink l f).startWrite = s.startWrite.modLink l f := by
  by_cases h : (s.store.writing.isSome || s.restart ≠ .notTaken) = true
  · exact (if_pos h).trans (congrArg (State.modLink · l f) (if_pos h).symm)
  · obtain ⟨hw, hr⟩ : s.store.writing = none ∧ s.restart = .notTaken := by simpa using h
    cases hd : s.store.dirty.first with
    | none => rw [State.startWrite_none hd, State.startWrite_none (s := s.modLink l f) hd]
    | some sec =>
      rw [State.startWrite_idle hr hw hd, State.startWrite_idle (s := s.modLink l f) hr hw hd]
      cases sec <;> rfl

/-- A mark starts the write of the first section dirty by then, where the store is IDLE (R165). -/
theorem State.mark_idle {marked sec : StoreSection} (hr : s.restart = .notTaken) (hw : s.store.writing = none)
    (hd : (s.store.dirty.put marked true).first = some sec) :
    s.mark marked =
      s.withStore { s.store with
        dirty := (s.store.dirty.put marked true).put sec false
        writing := some (s.sectionContents sec) } := by
  refine (State.startWrite_idle (s := s.withStore { s.store with dirty := s.store.dirty.put marked true })
    hr hw hd).trans ?_
  cases sec <;> rfl

theorem State.mark_writing {marked : StoreSection} (hw : s.store.writing ≠ none) :
    s.mark marked = s.withStore { s.store with dirty := s.store.dirty.put marked true } :=
  State.startWrite_writing (s := s.withStore { s.store with dirty := s.store.dirty.put marked true }) hw

/-- A mark does not speak of the links. -/
theorem State.mark_modLink (s : State) (l : Link) (f : LinkInterface → LinkInterface) (sec : StoreSection) :
    (s.modLink l f).mark sec = (s.mark sec).modLink l f :=
  (s.withStore { s.store with dirty := s.store.dirty.put sec true }).startWrite_modLink l f

/-- Settles O19: a completion ends the cause and starts the next write, a failure puts its section back, and SAVE
PROFILE marks PROFILE. -/
theorem storeWritesFollowTheDirtySet : Obligations.StoreWritesFollowTheDirtySet := by
  refine ⟨fun st p z w => ⟨rfl, rfl, rfl⟩, fun s job hs hw => ⟨fun h => ?_, ?_⟩, fun s job hs hr hw hd => ?_,
    fun tag s hs => ?_⟩
  · rw [exec_storeWriteComplete, State.whenPowered_powered hs, State.writeCompleted_clean hw h]
    rfl
  · rw [exec_storeWriteComplete, State.whenPowered_powered hs, State.writeCompleted, hw]
    rfl
  · refine ⟨_, _, ?_, rfl, rfl⟩
    rw [exec_storeWriteComplete, State.whenPowered_powered hs, State.writeCompleted, hw]
    have hfirst := DirtySet.first_eq_some hd
    set a := (s.withStore { s.store.written job with writing := none }).causeEnd .storeFault
      (.storeSection job.sec) with ha
    have hdirty : a.store.dirty = s.store.dirty := Store.written_dirty job
    have hstart := State.startWrite_idle (s := a) hr rfl (by rw [hdirty]; exact hfirst)
    refine congrArg _ (hstart.trans ?_)
    rw [hdirty]
    cases job <;> rfl
  · have hmark := congrArg (fun t => State.done t []) (s.mark_modLink .sv (fun i => { i with replyPending := true }) .profile)
    refine ⟨(s.mark .profile).store, ?_, fun hw => ?_, fun hw hz => ?_, fun hw hz hwear => ?_, fun hw hz hwear => ?_⟩
    · rw [exec_saveProfile, State.whenPowered_powered hs.1.1, ← State.mark_eq_withStore]
      exact congrArg _ (State.takeRequest_answered (t := s.mark .profile) hs rfl hmark)
    · exact congrArg State.store (State.mark_writing hw)
    · exact congrArg State.store (State.mark_idle hs.1.2 hw (sec := .zero) (by simp [DirtySet.first, DirtySet.put, hz]))
    · exact congrArg State.store
        (State.mark_idle hs.1.2 hw (sec := .wear) (by simp [DirtySet.first, DirtySet.put, hz, hwear]))
    · refine (congrArg State.store
        (State.mark_idle hs.1.2 hw (sec := .profile) (by simp [DirtySet.first, DirtySet.put, hz, hwear]))).trans ?_
      simp [DirtySet.put, hz, hwear, State.sectionContents, State.working]

end Sys2Proof.Machine
end

section
/-! PROOFS. The hold sets of the feeders (R112, R121), the contacts and the surge level that set them (R122 to R126),
the update (R114 to R119) and the wear step (R64, R65). -/

namespace Sys2Proof.Machine

variable {a b c s t : State} {u : Train}

/-! ### The records of the other trains -/

theorem State.othersKept.refl (s : State) (u : Train) : s.othersKept s u :=
  fun _ _ => ⟨rfl, rfl, rfl, rfl, rfl, rfl, rfl⟩

theorem State.othersKept.trans (h : a.othersKept b u) (k : b.othersKept c u) : a.othersKept c u := fun v hv => by
  obtain ⟨h1, h2, h3, h4, h5, h6, h7⟩ := h v hv
  obtain ⟨k1, k2, k3, k4, k5, k6, k7⟩ := k v hv
  exact ⟨k1.trans h1, k2.trans h2, k3.trans h3, k4.trans h4, k5.trans h5, k6.trans h6, k7.trans h7⟩

theorem State.othersKept_modGovernor (s : State) (u : Train) (f : Governor → Governor) :
    s.othersKept (s.modGovernor u f) u :=
  fun _ hv => ⟨rfl, rfl, rfl, rfl, rfl, s.governor_modGovernor_of_ne hv f, rfl⟩

theorem State.othersKept_modPositioner (s : State) (u : Train) (f : Positioner → Positioner) :
    s.othersKept (s.modPositioner u f) u :=
  fun _ hv => ⟨rfl, rfl, rfl, s.positioner_modPositioner_of_ne hv f, rfl, rfl, rfl⟩

theorem State.othersKept_modGap (s : State) (u : Train) (f : GapMeasurement → GapMeasurement) :
    s.othersKept (s.modGap u f) u :=
  fun _ hv => ⟨rfl, rfl, s.gap_modGap_of_ne hv f, rfl, rfl, rfl, rfl⟩

theorem State.othersKept_modSupervisor (s : State) (u : Train) (f : Supervisor → Supervisor) :
    s.othersKept (s.modSupervisor u f) u :=
  fun _ hv => ⟨rfl, rfl, rfl, rfl, rfl, rfl, s.supervisor_modSupervisor_of_ne hv f⟩

theorem State.othersKept_modZero (s : State) (u : Train) (f : ZeroRecord → ZeroRecord) :
    s.othersKept (s.modZero u f) u :=
  fun _ hv => ⟨rfl, rfl, rfl, rfl, s.zero_modZero_of_ne hv f, rfl, rfl⟩

theorem State.othersKept_modStation (s : State) (st : Station) (f : StationRecord → StationRecord) :
    s.othersKept (s.modStation st f) st.train := fun v hv =>
  ⟨s.station_modStation_of_ne (fun h => hv (congrArg Station.train h)) f,
    s.station_modStation_of_ne (fun h => hv (congrArg Station.train h)) f, by simp, by simp, by simp, by simp, by simp⟩

/-! ### The hold set (R112, R121) -/

theorem Holds.isEmpty_iff (h : Holds) : h.isEmpty = true ↔ ∀ c, h.has c = false := by
  refine ⟨fun he c => ?_, fun hc => ?_⟩
  · simp only [Holds.isEmpty, Bool.not_eq_true', Bool.or_eq_false_iff] at he
    cases c <;> simp [Holds.has, he]
  · have h0 := hc .estop
    have h1 := hc .crusherStopped
    have h2 := hc .conveyor
    have h3 := hc .level
    have h4 := hc .overload
    have h5 := hc .relief
    have h6 := hc .trip
    have h7 := hc .gapMove
    have h8 := hc .calibration
    have h9 := hc .mode
    simp only [Holds.has] at h0 h1 h2 h3 h4 h5 h6 h7 h8 h9
    simp [Holds.isEmpty, h0, h1, h2, h3, h4, h5, h6, h7, h8, h9]

theorem Holds.put_has (h : Holds) (c : Hold) : h.put c (h.has c) = h := by cases c <;> rfl

variable {limit : Nat} {g : Governor} {d : Hold}

/-- A feeder with a cause held is HELD. -/
theorem Governor.state_eq_held (h : g.holds.has d = true) : g.state = .held := by
  have hne : g.holds.isEmpty ≠ true := fun he => by simp [(g.holds.isEmpty_iff.mp he) d] at h
  simp [Governor.state, hne]

theorem Governor.hold_has (g : Governor) (d : Hold) : (g.hold d).holds.has d = true := by
  simp [(g.hold_keeps d).1]

theorem Governor.release_has (g : Governor) (d : Hold) : (g.release d).holds.has d = false := by
  simp [(g.release_keeps d).1]

theorem Governor.hold_state (g : Governor) (d : Hold) : (g.hold d).state = .held :=
  Governor.state_eq_held (g.hold_has d)

/-- A hold stops the feeder, or finds it stopped (R112). -/
theorem Governor.lawful.hold_stops (h : g.lawful limit) (d : Hold) :
    (g.hold d).command = 0 ∧ (g.hold d).demand = 0 ∧ (g.hold d).output.duty = 0 := by
  by_cases hd : g.holds.has d = true
  · have hstate : g.state ≠ .running := by simp [Governor.state_eq_held hd]
    rw [Governor.hold, if_pos hd]
    exact h.1 hstate
  · have hheld : Governor.state { g with holds := g.holds.put d true } = .held :=
      Governor.state_eq_held (d := d) (by simp [Holds.has_put])
    rw [Governor.hold, if_neg hd, Governor.rejudged]
    split
    · next hsame =>
      have hstate : g.state ≠ .running := by
        intro hrun
        simp [hheld, hrun] at hsame
      exact h.1 hstate
    · exact ⟨rfl, rfl, rfl⟩

/-- A release changes the hold set alone: a feeder HELD commands nothing already. -/
theorem Governor.lawful.release_eq (h : g.lawful limit) (d : Hold) :
    g.release d = { g with holds := g.holds.put d false, output := (g.release d).output } ∧
      (g.release d).output.duty = g.output.duty := by
  by_cases hd : g.holds.has d = true
  · obtain ⟨hcommand, hdemand, hduty⟩ := h.1 (by simp [Governor.state_eq_held hd])
    rw [Governor.release, if_pos hd, Governor.rejudged]
    split
    · exact ⟨rfl, rfl⟩
    · exact ⟨by simp [Governor.stop, hcommand, hdemand], by simp [Governor.stop, hduty]⟩
  · have hput := g.holds.put_has d
    rw [Bool.not_eq_true _ |>.mp hd] at hput
    rw [Governor.release, if_neg hd, hput]
    exact ⟨rfl, rfl⟩

/-- Settles O26: by the cases of the hold set before. -/
theorem holdsStopTheFeeder : Obligations.HoldsStopTheFeeder := by
  intro limit g c d h
  obtain ⟨hholds, hbase, htrim, htimer, hbound⟩ := g.hold_keeps c
  obtain ⟨hreleased, hrbase, -, -, -⟩ := g.release_keeps c
  obtain ⟨hcommand, hdemand, hduty⟩ := h.hold_stops c
  obtain ⟨hrelease, hrduty⟩ := h.release_eq c
  refine ⟨g.hold_has c, g.release_has c, fun hd => ?_, g.hold_state c, hcommand, hdemand, hduty, hbase, htrim,
    htimer, hbound, hrelease, hrduty, ?_⟩
  · simp [hholds, hreleased, hd]
  · rw [Governor.state_eq_running_iff, Holds.isEmpty_iff, hrbase]
    simp [hreleased]

/-! ### Contacts (R122, R123) -/

theorem State.abortIfSubject_of_not (h : s.isSubject u = false) (r : TouchResult) : s.abortIfSubject u r = s :=
  if_neg (by simp [h])

theorem exec_digitalChange_due {i : DigitalInput} {level : Bool} (hs : s.powered = true)
    (hd : (s.inputs.digital i).due = true) (hraw : (s.inputs.digital i).raw = level) :
    exec (.digitalChange i) s =
      .next ((s.withInputs (s.inputs.putDigital i ⟨level, some level, 0, false⟩)).deliverChange i level) := by
  subst hraw
  rw [exec_digitalChange, State.whenPowered_powered hs, State.digitalChange, if_pos hd]
  rfl

theorem State.runningChanged_eq {level : Bool} (hp : s.present u = true)
    (hl : level = true ∨ s.isSubject u = false) :
    s.runningChanged u level =
      s.modGovernor u (fun g => if level then g.release .crusherStopped else g.hold .crusherStopped) := by
  rw [State.runningChanged, if_neg (by simp [hp])]
  cases level with
  | true => rfl
  | false => exact State.abortIfSubject_of_not (by simpa [State.crusherRunningChanged, State.addHold] using hl) _

theorem State.runningChanged_absent {level : Bool} (hp : s.present u = false) : s.runningChanged u level = s :=
  if_pos (by simp [hp])

/-- The relief switch of an absent crusher, or of one under ANALOG, reaches nothing (R133). -/
theorem State.deliverChange_reliefSwitch_of {level : Bool}
    (h : s.present u = false ∨ (s.crusher u).reliefSource = .analog) :
    s.deliverChange (.reliefSwitch u) level = s := by
  rcases h with h | h
  · exact if_neg (by simp [h])
  · rw [State.deliverChange, State.reliefSwitchChanged, h, ite_self]

/-- Settles O25: the change delivered to the blocks that take the input. -/
theorem digitalChangesSetTheHolds : Obligations.DigitalChangesSetTheHolds := by
  refine ⟨fun level s hs => ⟨fun u hdue hraw hp hl => ?_, fun hdue hraw => ?_, fun hdue hraw => ?_⟩,
    fun u s hs => ⟨fun hp hdue => ?_, fun hp hdue => ?_⟩⟩
  · rw [exec_digitalChange_due (i := .running u) hs hdue hraw]
    exact congrArg _ (State.runningChanged_eq (s := s.withInputs _) hp hl)
  · rw [exec_digitalChange_due (i := .surgeConveyor) hs hdue hraw]
    cases level <;> rfl
  · rw [exec_digitalChange_due (i := .productConveyor) hs hdue hraw]
    cases level <;> rfl
  · rw [exec_digitalChange_due (i := .running u) hs hdue rfl]
    exact congrArg _ (State.runningChanged_absent (s := s.withInputs _) hp)
  · rw [exec_digitalChange_due (i := .reliefSwitch u) hs hdue rfl]
    exact congrArg _ (State.deliverChange_reliefSwitch_of (s := s.withInputs _) hp)

/-! ### The surge level (R124 to R126) -/

/-- The Governor of train 0 judged at a surge level arrival (R124). -/
theorem State.judgeLevel_first (s : State) (level : Nat) (hp : s.present .t0 = true) :
    State.judgeLevel level .t0 s =
      if (s.governor .t0).holds.level then
        (if level < s.line.surgeSlow then (s.removeHold .t0 .level).causeEnd .surgeHigh .line else s)
      else if s.line.surgeHigh ≤ level then (s.addHold .t0 .level).onset .surgeHigh .line none else s := by
  simp only [State.judgeLevel, hp, State.removeLevel, State.addLevel, Bool.not_true, Bool.false_eq_true, if_false,
    if_true, decide_true, decide_eq_true_eq, Bool.true_or]

/-- A Governor of trains 1 to 3 judged at a surge level arrival (R125, R126). -/
theorem State.judgeLevel_second (s : State) (level : Nat) (hu : u ≠ .t0) (hp : s.present u = true) :
    State.judgeLevel level u s =
      if (s.governor u).holds.level then
        (if s.line.surgeResume ≤ level then
          (if (s.removeHold u .level).secondaryLevelHeld then s.removeHold u .level
          else (s.removeHold u .level).causeEnd .surgeLow .line)
        else s)
      else if level ≤ s.line.surgeLow then
        (if s.secondaryLevelHeld then s.addHold u .level
        else (s.addHold u .level).onset .surgeLow .line none)
      else s := by
  simp only [State.judgeLevel, hp, State.removeLevel, State.addLevel, hu, Bool.not_true, Bool.false_eq_true,
    if_false, decide_false, decide_eq_true_eq, Bool.false_or]
  cases s.secondaryLevelHeld <;> rfl

theorem State.judgeLevel_absent (s : State) (level : Nat) (hp : s.present u = false) :
    State.judgeLevel level u s = s := by
  rw [State.judgeLevel, hp]
  rfl

/-- What the judging of LEVEL on one train leaves: all but its Governor and the List. -/
structure Levels (u : Train) (a b : State) : Prop where
  rest : b = { a with governors := b.governors, conditions := b.conditions }
  others : ∀ v, v ≠ u → b.governor v = a.governor v

theorem State.levels_of_governor (s : State) (u : Train) (f : Governor → Governor)
    (l : ConditionList → ConditionList) : Levels u s ((s.modGovernor u f).modConditions l) :=
  ⟨rfl, fun _ hv => s.governor_modGovernor_of_ne hv f⟩

theorem Levels.ite {p : Prop} [Decidable p] (h : Levels u s a) (k : Levels u s b) : Levels u s (if p then a else b) := by
  split
  · exact h
  · exact k

theorem State.judgeLevel_levels (s : State) (level : Nat) (u : Train) : Levels u s (State.judgeLevel level u s) := by
  have hrefl : Levels u s s := ⟨rfl, fun _ _ => rfl⟩
  have hremove := s.levels_of_governor u (Governor.release · .level)
  have hadd := s.levels_of_governor u (Governor.hold · .level)
  cases hp : s.present u with
  | false => rwa [State.judgeLevel_absent _ _ hp]
  | true =>
    by_cases hu : u = .t0
    · subst hu
      rw [State.judgeLevel_first _ _ hp]
      exact Levels.ite (Levels.ite (hremove _) hrefl) (Levels.ite (hadd _) hrefl)
    · rw [State.judgeLevel_second _ _ hu hp]
      exact Levels.ite (Levels.ite (Levels.ite (hremove id) (hremove _)) hrefl)
        (Levels.ite (Levels.ite (hadd id) (hadd _)) hrefl)

/-- The secondary hold's condition between two states: its onset with the first hold, its end with the last (R126). -/
def lowReported (held after : Bool) (stamp : Stamp) (l : ConditionList) : ConditionList :=
  if held = false ∧ after = true then l.onset .surgeLow .line none stamp
  else if held = true ∧ after = false then l.causeEnded .surgeLow .line
  else l

/-- The secondary holds of a judged level only grow, or only shrink, with SURGE_LOW as R126 gives it. -/
structure LowFollows (grows : Bool) (a b : State) : Prop where
  line : b.line = a.line
  stamp : b.stamp = a.stamp
  kept : grows = true → a.secondaryLevelHeld = true → b.secondaryLevelHeld = true
  gained : grows = false → b.secondaryLevelHeld = true → a.secondaryLevelHeld = true
  conditions : b.conditions = lowReported a.secondaryLevelHeld b.secondaryLevelHeld a.stamp a.conditions

theorem lowReported_self (h : Bool) (stamp : Stamp) (l : ConditionList) : lowReported h h stamp l = l := by
  cases h <;> rfl

variable {grows : Bool}

theorem LowFollows.refl (a : State) : LowFollows grows a a :=
  ⟨rfl, rfl, fun _ h => h, fun _ h => h, (lowReported_self ..).symm⟩

theorem LowFollows.trans (h : LowFollows grows a b) (k : LowFollows grows b c) : LowFollows grows a c where
  line := k.line.trans h.line
  stamp := k.stamp.trans h.stamp
  kept := fun hg ha => k.kept hg (h.kept hg ha)
  gained := fun hg hc => h.gained hg (k.gained hg hc)
  conditions := by
    have hk := h.kept
    have kk := k.kept
    have hg := h.gained
    have kg := k.gained
    rw [k.conditions, h.conditions, h.stamp]
    cases grows <;> cases ha : a.secondaryLevelHeld <;> cases hb : b.secondaryLevelHeld <;>
      cases hc : c.secondaryLevelHeld <;> simp_all [lowReported]

theorem State.secondaryLevelHeld_iff :
    s.secondaryLevelHeld = true ↔ ∃ v, v ≠ .t0 ∧ (s.governor v).holds.level = true := by
  simp only [State.secondaryLevelHeld, Bool.or_eq_true]
  constructor
  · rintro ((h | h) | h)
    · exact ⟨.t1, by decide, h⟩
    · exact ⟨.t2, by decide, h⟩
    · exact ⟨.t3, by decide, h⟩
  · rintro ⟨v, hv, h⟩
    cases v with
    | t0 => exact absurd rfl hv
    | t1 => exact .inl (.inl h)
    | t2 => exact .inl (.inr h)
    | t3 => exact .inr h

theorem Governor.release_level (g : Governor) : (g.release .level).holds.level = false := g.release_has .level

theorem Governor.hold_level (g : Governor) : (g.hold .level).holds.level = true := g.hold_has .level

theorem State.secondaryLevelHeld_addHold (s : State) (hu : u ≠ .t0) :
    (s.addHold u .level).secondaryLevelHeld = true :=
  State.secondaryLevelHeld_iff.mpr ⟨u, hu, by simp [State.addHold, Governor.hold_level]⟩

theorem State.secondaryLevelHeld_of_removeHold (h : (s.removeHold u .level).secondaryLevelHeld = true) :
    s.secondaryLevelHeld = true := by
  obtain ⟨v, hv, hheld⟩ := State.secondaryLevelHeld_iff.mp h
  refine State.secondaryLevelHeld_iff.mpr ⟨v, hv, ?_⟩
  by_cases hvu : v = u
  · subst hvu
    simp [State.removeHold, Governor.release_level] at hheld
  · rwa [State.removeHold, State.governor_modGovernor_of_ne _ hvu] at hheld

/-- The judging of one of trains 1 to 3 follows SURGE_LOW (R126). -/
theorem State.judgeLevel_lowFollows (s : State) (level : Nat) (hu : u ≠ .t0)
    (hline : s.line.surgeLow < s.line.surgeResume) :
    LowFollows (decide (level ≤ s.line.surgeLow)) s (State.judgeLevel level u s) := by
  cases hp : s.present u with
  | false =>
    rw [State.judgeLevel_absent _ _ hp]
    exact LowFollows.refl s
  | true =>
    rw [State.judgeLevel_second _ _ hu hp]
    split
    · next hheld =>
      have hs : s.secondaryLevelHeld = true := State.secondaryLevelHeld_iff.mpr ⟨u, hu, hheld⟩
      split
      · next hlevel =>
        have hgrows : ¬level ≤ s.line.surgeLow := by omega
        split
        · next hstill =>
          exact ⟨rfl, rfl, fun _ _ => hstill, fun _ _ => hs, by rw [hs, hstill]; rfl⟩
        · next hnone =>
          have hgone : ((s.removeHold u .level).causeEnd .surgeLow .line).secondaryLevelHeld = false := by
            simpa [State.secondaryLevelHeld, State.causeEnd] using hnone
          refine ⟨rfl, rfl, fun h => absurd (of_decide_eq_true h) hgrows, fun _ _ => hs, ?_⟩
          rw [hs, hgone]
          rfl
      · exact LowFollows.refl s
    · split
      · next hlevel =>
        have hadded := s.secondaryLevelHeld_addHold hu
        split
        · next hs => exact ⟨rfl, rfl, fun _ _ => hadded, fun _ _ => hs, by rw [hs, hadded]; rfl⟩
        · next hs =>
          have hafter : ((s.addHold u .level).onset .surgeLow .line none).secondaryLevelHeld = true := hadded
          refine ⟨rfl, rfl, fun _ _ => hafter, fun h => absurd hlevel (of_decide_eq_false h), ?_⟩
          rw [hafter, Bool.not_eq_true _ |>.mp hs]
          rfl
      · exact LowFollows.refl s

/-- What LEVEL does to the Governor judged: added from its threshold on, removed from the other on. -/
theorem State.judgeLevel_governor (s : State) (level : Nat) (hp : s.present u = true) :
    (State.judgeLevel level u s).governor u =
      if u = .t0 then
        (if (s.governor u).holds.level then
          (if level < s.line.surgeSlow then (s.governor u).release .level else s.governor u)
        else if s.line.surgeHigh ≤ level then (s.governor u).hold .level else s.governor u)
      else
        (if (s.governor u).holds.level then
          (if s.line.surgeResume ≤ level then (s.governor u).release .level else s.governor u)
        else if level ≤ s.line.surgeLow then (s.governor u).hold .level else s.governor u) := by
  by_cases hu : u = .t0
  · subst hu
    rw [State.judgeLevel_first _ _ hp, if_pos rfl]
    split <;> split <;> simp [State.removeHold, State.addHold, State.causeEnd, State.onset]
  · rw [State.judgeLevel_second _ _ hu hp, if_neg hu]
    split <;> split <;> try split
    all_goals simp [State.removeHold, State.addHold, State.causeEnd, State.onset]

/-- SURGE_HIGH follows the hold of train 0 (R126). -/
theorem State.judgeLevel_high (s : State) (level : Nat) :
    (State.judgeLevel level .t0 s).conditions =
      if (s.governor .t0).holds.level = false ∧
          ((State.judgeLevel level .t0 s).governor .t0).holds.level = true then
        s.conditions.onset .surgeHigh .line none s.stamp
      else if (s.governor .t0).holds.level = true ∧
          ((State.judgeLevel level .t0 s).governor .t0).holds.level = false then
        s.conditions.causeEnded .surgeHigh .line
      else s.conditions := by
  cases hp : s.present .t0 with
  | false =>
    rw [State.judgeLevel_absent _ _ hp]
    cases (s.governor .t0).holds.level <;> rfl
  | true =>
    rw [State.judgeLevel_first _ _ hp]
    split
    · next hheld =>
      split
      · simp [hheld, State.removeHold, State.causeEnd, Governor.release_level]
      · simp [hheld]
    · next hheld =>
      split
      · simp [hheld, State.addHold, State.onset, Governor.hold_level]
      · simp [hheld]

/-- Settles O37: train 0 first, then trains 1 to 3, whose judgements go one way at one level. -/
theorem surgeLevelHoldsTheFeeders : Obligations.SurgeLevelHoldsTheFeeders := by
  intro loop s hs hline level
  set kept := s.withInputs { s.inputs with surge := some (analogOf loop 1000) } with hkept
  set s0 := State.judgeLevel level .t0 kept with hs0
  set s1 := State.judgeLevel level .t1 s0 with hs1
  set s2 := State.judgeLevel level .t2 s1 with hs2
  set s3 := State.judgeLevel level .t3 s2 with hs3
  have h0 : Levels .t0 kept s0 := kept.judgeLevel_levels level .t0
  have h1 : Levels .t1 s0 s1 := s0.judgeLevel_levels level .t1
  have h2 : Levels .t2 s1 s2 := s1.judgeLevel_levels level .t2
  have h3 : Levels .t3 s2 s3 := s2.judgeLevel_levels level .t3
  have hline0 : s0.line = s.line := by rw [h0.rest]; rfl
  have hline1 : s1.line = s.line := by rw [h1.rest]; exact hline0
  have hline2 : s2.line = s.line := by rw [h2.rest]; exact hline1
  have hlow : LowFollows (decide (level ≤ s.line.surgeLow)) s0 s3 :=
    ((hline0 ▸ s0.judgeLevel_lowFollows level (by decide) (hline0 ▸ hline)).trans
      (hline1 ▸ s1.judgeLevel_lowFollows level (by decide) (hline1 ▸ hline))).trans
      (hline2 ▸ s2.judgeLevel_lowFollows level (by decide) (hline2 ▸ hline))
  have hsecond : s0.secondaryLevelHeld = s.secondaryLevelHeld := by
    simp only [State.secondaryLevelHeld, h0.others .t1 (by decide), h0.others .t2 (by decide),
      h0.others .t3 (by decide)]
    rfl
  have hfirst : s3.governor .t0 = s0.governor .t0 :=
    (h3.others _ (by decide)).trans ((h2.others _ (by decide)).trans (h1.others _ (by decide)))
  have hgovernor (u : Train) : ∃ a : State, a.line = s.line ∧ a.governor u = s.governor u ∧
      s3.governor u = (State.judgeLevel level u a).governor u := by
    cases u with
    | t0 => exact ⟨kept, rfl, rfl, hfirst⟩
    | t1 => exact ⟨s0, hline0, h0.others _ (by decide), (h3.others _ (by decide)).trans (h2.others _ (by decide))⟩
    | t2 => exact ⟨s1, hline1, (h1.others _ (by decide)).trans (h0.others _ (by decide)), h3.others _ (by decide)⟩
    | t3 =>
      exact ⟨s2, hline2, (h2.others _ (by decide)).trans ((h1.others _ (by decide)).trans (h0.others _ (by decide))), rfl⟩
  refine ⟨s3, by rw [exec_surgeLevelArrival, State.whenPowered_powered hs]; rfl, ?_, ?_, fun u hp => ?_, fun u hp => ?_,
    ?_⟩
  · rw [h3.rest, h2.rest, h1.rest, h0.rest]
    rfl
  · rw [h3.rest, h2.rest, h1.rest, h0.rest]
    rfl
  · obtain ⟨a, hline, hbefore, hafter⟩ := hgovernor u
    rw [hafter, State.judgeLevel_absent a level (by rw [State.present, hline]; exact hp), hbefore]
  · obtain ⟨a, hline, hbefore, hafter⟩ := hgovernor u
    rw [hafter, State.judgeLevel_governor a level (by rw [State.present, hline]; exact hp), hbefore, hline]
  · have hhigh := kept.judgeLevel_high level
    rw [← hs0, ← hfirst] at hhigh
    intro high low
    rw [hlow.conditions, hsecond, hhigh, show s0.stamp = s.stamp by rw [h0.rest]; rfl]
    rfl

/-! ### The wear step (R64, R65) -/

theorem State.mark_conditions (s : State) (sec : StoreSection) : (s.mark sec).conditions = s.conditions := by
  rw [State.mark_eq_withStore]
  rfl

/-- A section marked is dirty, or being written. -/
theorem State.mark_marks (s : State) (sec : StoreSection) :
    (s.mark sec).store.dirty.put sec true = (s.mark sec).store.dirty ∨
      (s.mark sec).store.writing.map WriteJob.sec = some sec := by
  by_cases hidle : s.store.writing = none ∧ s.restart = .notTaken
  · cases hfirst : (s.store.dirty.put sec true).first with
    | none =>
      rw [State.mark, State.startWrite_none hfirst]
      exact .inl (by cases sec <;> rfl)
    | some marked =>
      rw [State.mark_idle hidle.2 hidle.1 hfirst]
      cases sec <;> cases marked <;> first | exact .inr rfl | exact .inl rfl
  · have hsame : s.mark sec = s.withStore { s.store with dirty := s.store.dirty.put sec true } := by
      refine if_pos ?_
      by_cases hw : s.store.writing = none
      · have hr : s.restart ≠ .notTaken := fun hr => hidle ⟨hw, hr⟩
        simp [hr]
      · simp [Option.isSome_iff_ne_none.mpr hw]
    rw [hsame]
    exact .inl (by cases sec <;> rfl)

theorem DirtySet.wear_of_put {d : DirtySet} (h : d.put .wear true = d) : d.wear = true := by
  rw [← h]
  rfl

theorem DirtySet.zero_of_put {d : DirtySet} (h : d.put .zero true = d) : d.zero = true := by
  rw [← h]
  rfl

theorem State.judgeWearLimit_conditions (s : State) (u : Train) (stood : Bool) :
    (s.judgeWearLimit u stood).conditions =
      if s.wearLimitStands u && !stood then s.conditions.onset .wearLimit (.crusher u) none s.stamp
      else if !s.wearLimitStands u && stood then s.conditions.causeEnded .wearLimit (.crusher u)
      else s.conditions := by
  unfold State.judgeWearLimit
  dsimp only
  split
  · rfl
  · split <;> rfl

theorem State.judgeWearLimit_rest (s : State) (u : Train) (stood : Bool) :
    s.judgeWearLimit u stood = { s with conditions := (s.judgeWearLimit u stood).conditions } := by
  unfold State.judgeWearLimit
  dsimp only
  split
  · rfl
  · split <;> rfl

/-- The record after a wear step at a WEAR_RATE (R64). -/
def GapMeasurement.wearStepped (rate : Nat) (g : GapMeasurement) : GapMeasurement :=
  { g with
    loadedTime := 0
    tenths := min (g.tenths + 1) 999999
    wear := min (g.wear + rate) 65535
    wearSteps := if g.wearSteps < 9 then g.wearSteps + 1 else 0 }

/-- The record stepped, and WEAR marked at the tenth step (R64). -/
def State.wearStepped (s : State) (u : Train) : State :=
  let stepped := s.modGap u (GapMeasurement.wearStepped (s.crusher u).wearRate)
  if (s.gap u).wearSteps < 9 then stepped else stepped.mark .wear

theorem State.wearStep_eq (h : 360000 ≤ (s.gap u).loadedTime) :
    s.wearStep u = (s.wearStepped u).judgeWearLimit u (s.wearLimitStands u) := by
  have hdue : s.wearStepDue u = true := decide_eq_true (show Config.wearStepTime ≤ _ from h)
  have hmarks : (Config.wearStepsPerMark ≤ (s.gap u).wearSteps + 1) ↔ ¬(s.gap u).wearSteps < 9 := by
    show 10 ≤ _ ↔ _
    omega
  rw [State.wearStep, if_pos hdue, State.wearStepped]
  by_cases hsteps : (s.gap u).wearSteps < 9
  · have hno := hmarks.not.mpr (not_not.mpr hsteps)
    simp only [hno, hsteps, if_true, if_false, State.modGap, GapMeasurement.wearStepped]
    rfl
  · have hyes := hmarks.mpr hsteps
    simp only [hyes, hsteps, if_true, if_false, State.modGap, GapMeasurement.wearStepped]
    rfl

theorem State.wearStepped_eq_withStore (s : State) (u : Train) :
    s.wearStepped u =
      (s.modGap u (GapMeasurement.wearStepped (s.crusher u).wearRate)).withStore (s.wearStepped u).store := by
  unfold State.wearStepped
  dsimp only
  split
  · rfl
  · exact State.mark_eq_withStore ..

/-- Settles O48: the record, the mark at the tenth step, and WEAR_LIMIT where W passes it. -/
theorem wearStepAddsWear : Obligations.WearStepAddsWear := by
  intro u s hs hdue
  have hstepped := s.wearStepped_eq_withStore u
  have hgap : (s.wearStepped u).gap u = GapMeasurement.wearStepped (s.crusher u).wearRate (s.gap u) := by
    rw [hstepped]
    exact s.gap_modGap u _
  have hstands : (s.wearStepped u).wearLimitStands u =
      decide ((s.crusher u).wearLimit * 100 ≤ min ((s.gap u).wear + (s.crusher u).wearRate) 65535) := by
    rw [State.wearLimitStands, hgap, hstepped]
    rfl
  refine ⟨(s.wearStepped u).judgeWearLimit u (s.wearLimitStands u), ?_, ?_, ?_, ?_, fun h => ?_, fun h => ?_, fun h => ?_⟩
  · rw [exec_wearStep, State.whenPowered_powered hs, State.wearStep_eq hdue]
  · rw [State.judgeWearLimit_rest, hstepped]
    rfl
  · rw [State.judgeWearLimit_rest, hstepped]
    exact s.othersKept_modGap u (GapMeasurement.wearStepped (s.crusher u).wearRate)
  · rw [State.judgeWearLimit_rest]
    exact hgap
  · rw [State.judgeWearLimit_rest, State.wearStepped, if_pos h]
    rfl
  · rw [State.judgeWearLimit_rest, State.wearStepped, if_neg (by omega)]
    exact (State.mark_marks _ _).imp_left DirtySet.wear_of_put
  · have hconditions : (s.wearStepped u).conditions = s.conditions ∧ (s.wearStepped u).stamp = s.stamp := by
      rw [hstepped]
      exact ⟨rfl, rfl⟩
    rw [State.judgeWearLimit_conditions, hconditions.1, hconditions.2, hstands, State.wearLimitStands]
    by_cases h1 : (s.crusher u).wearLimit * 100 ≤ (s.gap u).wear <;>
      by_cases h2 : (s.crusher u).wearLimit * 100 ≤ min ((s.gap u).wear + (s.crusher u).wearRate) 65535
    · simp [h1, h2]
    · omega
    · simp [h1, h2, Nat.lt_of_not_le h1]
    · simp [h1, h2]

/-! ### The update (R114 to R119) -/

theorem demandOf_int (p : FeederParams) (base : Nat) (x : Int) :
    (demandOf p base x : Int) = min (max ((base : Int) + x) p.rateMin) p.rateMax := by
  unfold demandOf clamp
  omega

/-- What an update leaves of a RUNNING Governor, and the command it ramps. -/
theorem Governor.updated_running {g : Governor} (v : UpdateInputs) (h : g.state = .running) :
    g.updated v =
      { g with
        trim := ((g.capTest v).trimStep v).trim
        demand := (((g.capTest v).trimStep v).demandStep v).demand
        capBound := (g.capTest v).capBound
        command :=
          let d := (((g.capTest v).trimStep v).demandStep v).demand
          if g.command < d then min d (g.command + v.params.rampUp)
          else if d < g.command then max d (g.command - v.params.rampDown)
          else g.command } := by
  rw [Governor.updated, if_pos h, Governor.rampStep]
  cases hp : v.power with
  | none => simp [Governor.trimStep, hp, Governor.demandStep, Governor.capTest]
  | some power =>
    simp only [Governor.trimStep, hp]
    split <;> (simp [Governor.demandStep, Governor.capTest]; rfl)

theorem State.capActs_iff (s : State) (u : Train) :
    (s.updateInputs u).capActs = true ↔
      u = .t0 ∧ ∃ a, s.inputs.surge = some a ∧ s.line.surgeSlow ≤ a.scaled := by
  unfold UpdateInputs.capActs State.updateInputs
  cases s.inputs.surge <;> simp

/-- The trim step, where the feeder stands, is capped or has no power to trim against (R115). -/
theorem Governor.trimStep_trim_kept {g : Governor} {v : UpdateInputs}
    (h : g.command = 0 ∨ g.capBound = true ∨ v.power = none) : (g.trimStep v).trim = g.trim := by
  unfold Governor.trimStep
  rcases h with h | h | h
  · split <;> simp [h]
  · split <;> simp [h]
  · simp [h]

theorem Governor.trimStep_trim {g : Governor} {v : UpdateInputs} {power : Nat} (hc : 0 < g.command)
    (hb : g.capBound = false) (hp : v.power = some power) : (g.trimStep v).trim = trimmed v.params power g.trim := by
  simp [Governor.trimStep, hp, hc, hb]

/-- Settles O49: the steps of a RUNNING Governor, each by its own equation. -/
theorem updateTrimsAndRamps : Obligations.UpdateTrimsAndRamps := by
  intro u s hs hdue g p again within capped bound
  have hexec : exec (.updateExpiry u) s =
      .next (s.modGovernor u fun g => { g.updated (s.updateInputs u) with updateTimer := again }) := by
    rw [exec_updateExpiry, State.whenPowered_powered hs, State.updateExpiry,
      if_pos (show s.updateDue u = true from decide_eq_true hdue)]
    rfl
  refine ⟨fun hstill => ?_, fun hempty hbase => ?_⟩
  · have hstate : g.state ≠ .running := by
      rw [Ne, Governor.state_eq_running_iff]
      rintro ⟨h1, h2⟩
      rcases hstill with h | h
      · simp [h] at h1
      · exact h2 h
    rw [hexec, State.modGovernor, Governor.updated, if_neg hstate]
    rfl
  · have hrunning : g.state = .running := Governor.state_eq_running_iff g |>.mpr ⟨hempty, by omega⟩
    set v := s.updateInputs u with hv
    have hcapped : capped ↔ v.capActs = true := (s.capActs_iff u).symm
    have hwithin (x : Int) : (demandOf p g.base x : Int) = within x := demandOf_int p g.base x
    have hbound : (g.capTest v).capBound = true ↔ bound := by
      show (v.capActs && decide (p.slowRate < demandOf p g.base g.trim)) = true ↔ _ ∧ _
      rw [Bool.and_eq_true, decide_eq_true_eq, hcapped, ← hwithin]
      exact and_congr_right' (Int.ofNat_lt).symm
    have hg : (s.modGovernor u fun g => { g.updated v with updateTimer := again }).governor u =
        { g.updated v with updateTimer := again } := by simp [g]
    refine ⟨_, hexec, rfl, s.othersKept_modGovernor u _, ?_⟩
    rw [hg, Governor.updated_running v hrunning]
    refine ⟨rfl, hbound, fun h => ?_, fun a hc hb hp => ?_, fun h => ?_, fun h => ?_, rfl⟩
    · refine Governor.trimStep_trim_kept (g := g.capTest v) (h.imp_right (Or.imp hbound.mpr fun h => ?_))
      simp [hv, State.updateInputs, h]
    · have hb' : (g.capTest v).capBound = false := by simpa using hbound.not.mpr hb
      refine (Governor.trimStep_trim (g := g.capTest v) hc hb' (power := a.scaled) (by simp [hv, State.updateInputs, hp])).trans ?_
      show (if p.loadTarget + p.loadBand < a.scaled then _ else if (a.scaled : Int) < (p.loadTarget : Int) - p.loadBand then _ else _) = _
      have hlow : (a.scaled : Int) < (p.loadTarget : Int) - p.loadBand ↔ a.scaled + p.loadBand < p.loadTarget := by omega
      simp only [hlow]
      rfl
    · have hdemand : (((g.capTest v).trimStep v).demandStep v).demand =
          demandOf p g.base ((g.capTest v).trimStep v).trim := by
        rw [Governor.demandStep, (Governor.trimStep_keeps _ _).2.1]
        exact if_neg (hcapped.not.mp h)
      exact (congrArg Nat.cast hdemand).trans (hwithin _)
    · have hdemand : (((g.capTest v).trimStep v).demandStep v).demand =
          min (demandOf p g.base ((g.capTest v).trimStep v).trim) p.slowRate := by
        rw [Governor.demandStep, (Governor.trimStep_keeps _ _).2.1]
        exact if_pos (hcapped.mp h)
      exact (congrArg Nat.cast hdemand).trans ((Nat.cast_min ..).trans (by rw [hwithin]))

end Sys2Proof.Machine
end

section
/-! PROOFS. The facts about selection, reasons, jogs and the ends of moves that the obligations of chapters 1 to 7 use:
one equation for each operation and each case it distinguishes. -/

namespace Sys2Proof.Machine

variable {a b s t : State} {u : Train} {st : Station}

/-! ### The waiting slots of a station (R29, R42) -/

theorem Board.waitingFor_eq_zero_iff {d : Board} :
    d.waitingFor st = 0 ↔ ∀ r, some r ∈ d.slots → r.station ≠ st := by
  simp only [Board.waitingFor, List.length_eq_zero_iff, List.filter_eq_nil_iff]
  constructor
  · intro h r hr
    simpa using h _ hr
  · intro h o ho
    cases o with
    | none => simp
    | some r => simpa using h r ho

theorem bestSlot_eq_none_iff {slots : List (Option Slot)} {i : Nat} :
    bestSlot st i slots = none ↔ ∀ r, some r ∈ slots → r.station ≠ st := by
  induction slots generalizing i with
  | nil => simp [bestSlot]
  | cons o rest ih =>
    cases o with
    | none => simpa [bestSlot] using ih
    | some q =>
      by_cases hq : q.station = st
      · refine iff_of_false ?_ fun h => h q List.mem_cons_self hq
        rw [bestSlot, if_pos hq]
        split
        · exact Option.some_ne_none _
        · split <;> exact Option.some_ne_none _
      · rw [bestSlot, if_neg hq, ih]
        simp [hq]

/-- The best slot of a station is one of its waiting slots. -/
theorem bestSlot_mem {slots : List (Option Slot)} {i j : Nat} {r : Slot} (h : bestSlot st i slots = some (j, r)) :
    ∃ k, j = i + k ∧ slots[k]? = some (some r) ∧ r.station = st := by
  refine (fun ⟨k, hj, hk⟩ => ⟨k, hj, hk, bestSlot_station h⟩ : (∃ k, j = i + k ∧ slots[k]? = some (some r)) → _) ?_
  induction slots generalizing i with
  | nil => cases h
  | cons o rest ih =>
    have hlater (hb : bestSlot st (i + 1) rest = some (j, r)) :
        ∃ k, j = i + k ∧ (o :: rest)[k]? = some (some r) := by
      obtain ⟨k, hj, hk⟩ := ih hb
      exact ⟨k + 1, by omega, hk⟩
    cases o with
    | none => exact hlater h
    | some q =>
      rw [bestSlot] at h
      split at h
      · split at h
        · cases h
          exact ⟨0, rfl, rfl⟩
        · next hb =>
          split at h
          · cases h
            exact hlater hb
          · cases h
            exact ⟨0, rfl, rfl⟩
      · exact hlater h

theorem Slot.better_iff {p q : Slot} :
    p.better q = true ↔ q.priority < p.priority ∨ q.priority = p.priority ∧ q.sequence < p.sequence := by
  simp only [Slot.better, Bool.or_eq_true, Bool.and_eq_true, decide_eq_true_eq, eq_comm (a := p.priority)]

/-- The slot that is better than every other of its station is the best. -/
theorem bestSlot_eq_some {slots : List (Option Slot)} {i k : Nat} {r : Slot} (hk : slots[k]? = some (some r))
    (hst : r.station = st)
    (hbest : ∀ j q, slots[j]? = some (some q) → q.station = st → j ≠ k →
      q.priority < r.priority ∨ q.priority = r.priority ∧ q.sequence < r.sequence) :
    bestSlot st i slots = some (i + k, r) := by
  induction slots generalizing i k with
  | nil => cases hk
  | cons o rest ih =>
    cases k with
    | zero =>
      obtain rfl : o = some r := Option.some.inj hk
      rw [bestSlot, if_pos hst]
      cases hb : bestSlot st (i + 1) rest with
      | none => rfl
      | some best =>
        obtain ⟨j, q⟩ := best
        obtain ⟨m, -, hm, hq⟩ := bestSlot_mem hb
        have hworse : r.better q = true := Slot.better_iff.mpr (hbest (m + 1) q hm hq (by omega))
        have hnot : ¬q.better r = true := by
          rw [Slot.better_iff] at hworse ⊢
          omega
        simp only [hnot, if_false, Nat.add_zero, Bool.false_eq_true]
    | succ m =>
      have hrest := ih (i := i + 1) hk fun j q hj hq hne => hbest (j + 1) q hj hq (by omega)
      have hplace : i + 1 + m = i + (m + 1) := by omega
      cases o with
      | none => rw [bestSlot, hrest, hplace]
      | some q =>
        rw [bestSlot, hrest, hplace]
        split
        · next hq => exact if_pos (Slot.better_iff.mpr (hbest 0 q rfl hq (by omega)))
        · rfl

/-- No waiting slot of a station is better than the best. -/
theorem bestSlot_best {slots : List (Option Slot)} {i j : Nat} {r q : Slot} (h : bestSlot st i slots = some (j, r))
    (hmem : some q ∈ slots) (hq : q.station = st) : q.better r = false := by
  have hself (p : Slot) : p.better p = false := by simp [Slot.better]
  rw [← Bool.not_eq_true]
  induction slots generalizing i j r with
  | nil => cases hmem
  | cons o rest ih =>
    cases o with
    | none => exact ih h (by simpa using hmem)
    | some p =>
      rw [bestSlot] at h
      rcases List.mem_cons.mp hmem with hp | hrest
      · cases hp
        rw [if_pos hq] at h
        split at h
        · cases h
          simp [hself]
        · split at h
          · next hbetter =>
            cases h
            rw [Slot.better_iff] at hbetter ⊢
            omega
          · cases h
            simp [hself]
      · split at h
        · split at h
          · next hnone => exact absurd hq (bestSlot_eq_none_iff.mp hnone q hrest)
          · next hb =>
            split at h
            · cases h
              exact ih hb hrest
            · next hworse =>
              cases h
              have := ih hb hrest
              rw [Slot.better_iff] at hworse this ⊢
              omega
        · exact ih h hrest

/-! ### Selection and the predicate (R8, R29, R42) -/

theorem outranks_iff {priority sequence : Nat} {x : Standing} :
    outranks priority sequence x = true ↔ x.priority < priority ∨
      x.priority = priority ∧ ∀ l tag n, x.origin = .request l tag n → n < sequence := by
  simp only [outranks, Bool.or_eq_true, Bool.and_eq_true, decide_eq_true_eq, eq_comm (a := priority)]
  cases x.origin <;> simp

section report

variable {report : Train → State → State}

theorem State.selectWith_none (h : ∀ r, some r ∈ s.board.slots → r.station ≠ st) : s.selectWith report st = s := by
  rw [State.selectWith, bestSlot_eq_none_iff.mpr h]

theorem State.selectWith_of_best {k : Nat} {r : Slot} (hk : s.board.slots[k]? = some (some r)) (hst : r.station = st)
    (hbest : ∀ j q, s.board.slots[j]? = some (some q) → q.station = st → j ≠ k →
      q.priority < r.priority ∨ q.priority = r.priority ∧ q.sequence < r.sequence) :
    s.selectWith report st =
      if outranks r.priority r.sequence (s.station st).standing then (s.freeSlot k).applyWith report r else s := by
  rw [State.selectWith, bestSlot_eq_some (i := 0) hk hst hbest, Nat.zero_add]

/-- The predicate evaluated without a selection: it is not met, it was met before, or nothing waits. -/
theorem State.evaluateWith_eq (h : s.accepting st = false ∨ (s.station st).lastAccepting = true ∨
      ∀ r, some r ∈ s.board.slots → r.station ≠ st) :
    s.evaluateWith report st = s.modStation st fun r => { r with lastAccepting := s.accepting st } := by
  rw [State.evaluateWith]
  split
  · next hrises =>
    obtain ⟨his, hwas⟩ : s.accepting st = true ∧ (s.station st).lastAccepting = false := by simpa using hrises
    rcases h with h | h | h
    · simp [his] at h
    · simp [hwas] at h
    · exact State.selectWith_none (s := s.modStation st _) (by simpa using h)
  · rfl

end report

theorem State.evaluate_eq (h : s.accepting st = false ∨ (s.station st).lastAccepting = true ∨
      ∀ r, some r ∈ s.board.slots → r.station ≠ st) :
    s.evaluate st = s.modStation st fun r => { r with lastAccepting := s.accepting st } := State.evaluateWith_eq h

theorem State.accepting_of_mode (h : (s.station st).mode ≠ .run) : s.accepting st = false := by
  simp [State.accepting, h]

/-! ### Reasons and jogs (R83, R89) -/

/-- A Positioner under one more reason (R83). -/
def Positioner.under (now : Nat) (r : Reason) (p : Positioner) : Positioner :=
  if p.reasons.has r then p
  else { (if p.reasons.isEmpty then p.suspend now else p) with reasons := p.reasons.put r true }

theorem State.modPositioner_id (s : State) (u : Train) {f : Positioner → Positioner}
    (h : f (s.positioner u) = s.positioner u) : s.modPositioner u f = s := by
  rw [State.modPositioner]
  exact congrArg (fun q => { s with positioners := q }) ((congrArg _ h).trans (s.positioners.set_get u))

/-- A reason added where it ends no jog: the Positioner under it, and nothing else. -/
theorem State.addReason_eq {r : Reason} (h : (s.positioner u).state ≠ .jogging ∨ r.endsJog = false) :
    s.addReason u r = s.modPositioner u (Positioner.under s.now r) := by
  unfold State.addReason
  by_cases hr : (s.positioner u).reasons.has r = true
  · rw [if_pos hr, State.modPositioner_id]
    exact if_pos hr
  · have hno : ((s.positioner u).state = .jogging && r.endsJog) = false := by
      rcases h with h | h <;> simp [h]
    dsimp only
    rw [if_neg hr, hno]
    simp only [State.modPositioner, Positioner.under, hr]
    rfl

/-- A jog's Positioner after the end of the jog (R89). -/
theorem Positioner.dropJog_eq (now : Nat) (p : Positioner) :
    p.dropJog now =
      { p with
        drive := none
        pendingDrive := none
        lastEnd := match p.drive with | none => p.lastEnd | some d => ⟨now, some d.direction⟩
        valve := match p.drive with | none => p.valve | some _ => ⟨0, 0⟩
        jog := none } := by
  unfold Positioner.dropJog Positioner.driveOff
  cases h : p.drive <;> simp [Positioner.discardPending, h]

/-- A jog that ends under a reason leaves its Positioner SUSPENDED, and nothing else changes (R89). -/
theorem State.endJog_eq (h : (s.positioner u).reasons.isEmpty = false) :
    s.endJog u =
      s.modPositioner u fun q =>
        { q with
          state := .suspended
          drive := none
          pendingDrive := none
          lastEnd := match q.drive with | none => q.lastEnd | some d => ⟨s.now, some d.direction⟩
          valve := match q.drive with | none => q.valve | some _ => ⟨0, 0⟩
          jog := none } := by
  refine (if_neg (by simpa using h)).trans ?_
  rw [State.modPositioner, Positioner.dropJog_eq]
  rfl

/-- A reason removed where another is left, or out of SUSPENDED: the reason alone goes. -/
theorem State.removeReason_eq {r : Reason}
    (h : (s.positioner u).state ≠ .suspended ∨ ((s.positioner u).reasons.put r false).isEmpty = false) :
    s.removeReason u r = s.modPositioner u fun p => { p with reasons := p.reasons.put r false } := by
  unfold State.removeReason
  by_cases hr : (s.positioner u).reasons.has r = true
  · have hno : ((s.positioner u).state = .suspended && ((s.positioner u).reasons.put r false).isEmpty) = false := by
      rcases h with h | h <;> simp [h]
    dsimp only
    rw [if_neg (by simp [hr]), hno]
    rfl
  · rw [Bool.not_eq_true] at hr
    dsimp only
    rw [if_pos (by simp [hr]), State.modPositioner_id]
    have := Reasons.put_has (s.positioner u).reasons r
    rw [hr] at this
    rw [this]

/-! ### The ends of moves (R78, R139) -/

/-- A Positioner enters IDLE out of RESTORING: GAP_MOVE is removed, and nothing else changes. -/
theorem State.enterIdle_eq (h : (s.supervisor u).relief ≠ .restoring) :
    s.enterIdle u =
      (s.modPositioner u fun p => { p with state := .idle, move := none }).removeHold u .gapMove :=
  if_neg (by simpa [State.removeHold] using h)

/-- The moving of a crusher is work of its train. -/
theorem Moves.workOf (h : Moves u a b) : a.workOf b u := by
  have hrest := h.rest
  refine ⟨?_, ?_, ?_, ?_, ?_, ?_, ?_, ?_, ?_, fun v hv => ?_⟩
  iterate 9 rw [hrest]
  obtain ⟨h1, h2, h3, h4⟩ := h.others v hv
  have hfeeders : b.feeders = a.feeders := by rw [hrest]
  have hgaps : b.gaps = a.gaps := by rw [hrest]
  have hzeros : b.zeros = a.zeros := by rw [hrest]
  exact ⟨congrArg (Quad.get · v) hfeeders, h1, congrArg (Quad.get · v) hgaps, h2, congrArg (Quad.get · v) hzeros, h3, h4⟩

end Sys2Proof.Machine
end

section
/-! PROOFS. Readings, the measured gap, and the loss and recovery of a position (R50 to R61). -/

namespace Sys2Proof.Machine

variable {a b s t : State} {u : Train}

/-! ### What the moving of a crusher leaves -/

theorem Moves.inputs (h : Moves u a b) : b.inputs = a.inputs := by rw [h.rest]

theorem Moves.gaps (h : Moves u a b) : b.gaps = a.gaps := by rw [h.rest]

theorem Moves.zeros (h : Moves u a b) : b.zeros = a.zeros := by rw [h.rest]

theorem Moves.sequencer (h : Moves u a b) : b.sequencer = a.sequencer := by rw [h.rest]

theorem Moves.line (h : Moves u a b) : b.line = a.line := by rw [h.rest]

theorem Moves.crusherParams (h : Moves u a b) : b.crusherParams = a.crusherParams := by rw [h.rest]

theorem Moves.time (h : Moves u a b) : b.time = a.time := by rw [h.rest]

theorem Moves.store (h : Moves u a b) : b.store = a.store := by rw [h.rest]

/-! ### The judging of a reading (R56, R88, R102) -/

theorem State.judgeJog_eq_self (h : (s.positioner u).state ≠ .jogging ∨ s.closeJogDone u = false) :
    s.judgeJog u = s :=
  if_neg (by rcases h with h | h <;> simp [h])

theorem State.judgeBackoff_eq_self (h : s.isSubject u = false ∨ s.sequencer.state ≠ .backoff) (p : Nat) :
    s.judgeBackoff u p = s :=
  if_neg (by rcases h with h | h <;> simp [h])

theorem State.judgeBackoff_below {p target : Nat} (ht : s.sequencer.target = some target) (hp : p < target) :
    s.judgeBackoff u p = s := by
  unfold State.judgeBackoff
  rw [ht]
  split
  · split
    · next h =>
      cases h
      exact if_neg (by omega)
    · rfl
  · rfl

theorem CrusherParams.inWindow_iff {p : CrusherParams} {r : Nat} :
    p.inWindow (some r) = true ↔ p.posLow ≤ r ∧ r ≤ p.posHigh := by
  simp [CrusherParams.inWindow]

/-- The state with a position reading kept (R50). -/
def State.keepPosition (s : State) (u : Train) (r : BitVec 16) : State :=
  s.withInputs { s.inputs with position := s.inputs.position.set u (some r.toNat) }

theorem not_not_present {x : Bool} (h : x = true) : ¬(!x) = true := by simp [h]

/-- A reading in the window is judged by Gap Measurement, the jog and the Sequencer in that order. -/
theorem exec_positionArrival_inside {r : BitVec 16} (hs : s.powered = true) (hp : s.present u = true)
    (hlow : (s.crusher u).posLow ≤ r.toNat) (hhigh : r.toNat ≤ (s.crusher u).posHigh) :
    exec (.positionArrival u (some r)) s =
      .next ((((s.keepPosition u r).positionInside u r.toNat).judgeJog u).judgeBackoff u r.toNat) := by
  have hin : ((s.keepPosition u r).crusher u).inWindow (some r.toNat) = true :=
    CrusherParams.inWindow_iff.mpr ⟨hlow, hhigh⟩
  have hpresent : (s.keepPosition u r).present u = true := hp
  rw [exec_positionArrival, State.whenPowered_powered hs]
  exact congrArg _ ((if_neg (not_not_present hpresent)).trans (if_pos hin))

theorem State.positionInside_valid {p : Nat} (h : (s.gap u).validity = .valid) :
    s.positionInside u p = s.modGap u fun g => { g with gap := s.gapOf u p } := by
  simp only [State.positionInside, h]

/-- Settles O29: what an absent crusher keeps, and the gap of a VALID position. -/
theorem readingsAreKeptAndMeasured : Obligations.ReadingsAreKeptAndMeasured := by
  refine ⟨fun u s hs hp => ⟨fun r => ?_, ?_, fun loop raw hraw => ?_⟩, fun u r s hs hp hv hlow hhigh => ?_⟩
  · rw [exec_positionArrival, State.whenPowered_powered hs]
    exact congrArg _ (if_pos (by simpa [State.keepPosition] using hp))
  · rw [exec_positionArrival, State.whenPowered_powered hs]
    exact congrArg _ (if_pos (by simpa using hp))
  · have hloop : raw = rawReading loop := by cases loop <;> exact hraw
    subst hloop
    rw [exec_pressureArrival, exec_powerArrival, State.whenPowered_powered hs, State.whenPowered_powered hs]
    exact ⟨congrArg _ (if_neg (by simpa using hp)), congrArg _ (if_neg (by simpa using hp))⟩
  · intro kept measured
    have hinside : (s.keepPosition u r).positionInside u r.toNat = kept.modGap u fun _ => measured :=
      State.positionInside_valid (s := kept) hv
    rw [exec_positionArrival_inside hs hp hlow hhigh, hinside]
    refine ⟨fun hidle hjog => ?_, fun hbelow => ?_⟩
    · rw [State.judgeJog_eq_self (s := kept.modGap u fun _ => measured) (.inl hjog),
        State.judgeBackoff_eq_self (s := kept.modGap u fun _ => measured) hidle]
    · have hmoves : Moves u (kept.modGap u fun _ => measured) ((kept.modGap u fun _ => measured).judgeJog u) :=
        (Moves.refl _).judgeJog
      set t := (kept.modGap u fun _ => measured).judgeJog u
      have hback : t.judgeBackoff u r.toNat = t := by
        have hsequencer : t.sequencer = s.sequencer := hmoves.sequencer
        rcases hbelow with h | h | ⟨target, ht, hr⟩
        · exact State.judgeBackoff_eq_self (.inl (by rwa [State.isSubject, hsequencer])) _
        · exact State.judgeBackoff_eq_self (.inr (by rwa [hsequencer])) _
        · exact State.judgeBackoff_below (by rwa [hsequencer]) hr
      refine ⟨t, by rw [hback], ?_, hmoves.inputs⟩
      rw [State.gap, hmoves.gaps]
      exact kept.gap_modGap u _

/-! ### The loss of a position (R57) -/

/-- The record of a position that is lost (R57). -/
def GapMeasurement.lost (g : GapMeasurement) : GapMeasurement :=
  { g with validity := .notValid, recovery := none, gap := none, faultStanding := true }

theorem State.accepting_of_validity (h : (s.gap u).validity ≠ .valid) : s.accepting (crusherOf u) = false := by
  simp [State.accepting, crusherOf, h]

theorem State.takeFirstReading_eq_self (h : (s.gap u).firstReadingDue = false) : s.takeFirstReading u = s :=
  if_neg (by simp [h])

/-- The state of a crusher that has lost its position, before its reports (R57). -/
def State.positionLost (s : State) (u : Train) : State :=
  ((s.modGap u GapMeasurement.lost).modPositioner u (Positioner.under s.now .position)).modStation (crusherOf u)
    fun r => { r with lastAccepting := false }

/-- The state a lost position leaves: the crusher's loss, and POSITION_FAULT where it did not stand (R57). -/
def State.positionReported (s : State) (u : Train) : State :=
  (s.positionLost u).modConditions fun l =>
    if (s.gap u).faultStanding then l else l.onset .positionFault (.crusher u) none s.stamp

/-- An arrival outside the window, step by step (R57). -/
theorem State.positionOutside_steps (s : State) (u : Train) :
    s.positionOutside u =
      (let a := (((s.modGap u GapMeasurement.lost).takeFirstReading u).addReason u .position).evaluate (crusherOf u)
       let b := if (s.gap u).validity = .valid then a.abortIfSubject u .abortedPosition else a
       if (s.gap u).faultStanding then b else b.onset .positionFault (.crusher u) none) := rfl

theorem State.gap_lost (s : State) (u : Train) : (s.modGap u GapMeasurement.lost).gap u = (s.gap u).lost :=
  s.gap_modGap u _

/-- The steps of R57 between the loss of the gap and the abort, where no first reading is due. -/
theorem State.evaluate_addReason_lost (s : State) (u : Train) :
    ((s.modGap u GapMeasurement.lost).addReason u .position).evaluate (crusherOf u) = s.positionLost u := by
  have hno : ((s.modGap u GapMeasurement.lost).modPositioner u (Positioner.under s.now .position)).accepting
      (crusherOf u) = false := by
    refine State.accepting_of_validity ?_
    rw [State.modPositioner_gap_read, State.gap_lost]
    show Validity.notValid ≠ .valid
    decide
  rw [State.addReason_eq (.inr rfl), State.modGap_now_read, State.evaluate_eq (.inl hno), hno]
  rfl

/-- An arrival outside the window, with the first reading taken before and no touch to abort (R57). -/
theorem State.positionOutside_eq (hfirst : (s.gap u).firstReadingDue = false)
    (hsubject : (s.gap u).validity ≠ .valid ∨ s.isSubject u = false) :
    s.positionOutside u = s.positionReported u := by
  have htaken : (s.modGap u GapMeasurement.lost).takeFirstReading u = s.modGap u GapMeasurement.lost :=
    State.takeFirstReading_eq_self (by rw [State.gap_lost]; exact hfirst)
  have habort : (if (s.gap u).validity = .valid then (s.positionLost u).abortIfSubject u .abortedPosition
      else s.positionLost u) = s.positionLost u := by
    split
    · next hv =>
      refine State.abortIfSubject_of_not ?_ _
      simpa [State.positionLost] using hsubject.resolve_left (not_not.mpr hv)
    · rfl
  rw [State.positionOutside_steps, htaken, State.evaluate_addReason_lost]
  dsimp only
  rw [habort, State.positionReported]
  split <;> rfl

/-- The state with a reading kept, where there is one (R50). -/
def State.keepReading (s : State) (u : Train) : Option (BitVec 16) → State
  | none => s
  | some r => s.keepPosition u r

theorem State.keepReading_rest (s : State) (u : Train) (reading : Option (BitVec 16)) :
    s.keepReading u reading = { s with inputs := (s.keepReading u reading).inputs } := by
  cases reading <;> rfl

/-- A failed arrival, or one outside the window, loses the position; a jog and a touch's backoff that are over by then
judge nothing. -/
theorem exec_positionArrival_outside {reading : Option (BitVec 16)} {t : State} (hs : s.powered = true)
    (hp : s.present u = true)
    (hout : ∀ r, reading = some r → r.toNat < (s.crusher u).posLow ∨ (s.crusher u).posHigh < r.toNat)
    (ht : (s.keepReading u reading).positionOutside u = t) (hjog : (t.positioner u).state ≠ .jogging)
    (hback : t.isSubject u = false ∨ t.sequencer.state ≠ .backoff) :
    exec (.positionArrival u reading) s = .next t := by
  rw [exec_positionArrival, State.whenPowered_powered hs]
  refine congrArg _ ?_
  cases reading with
  | none =>
    refine (if_neg (not_not_present hp)).trans ?_
    exact (congrArg (State.judgeJog · u) ht).trans (State.judgeJog_eq_self (.inl hjog))
  | some r =>
    have hpresent : (s.keepPosition u r).present u = true := hp
    have hin : ((s.keepPosition u r).crusher u).inWindow (some r.toNat) ≠ true := by
      rw [Ne, CrusherParams.inWindow_iff]
      show ¬((s.crusher u).posLow ≤ r.toNat ∧ r.toNat ≤ (s.crusher u).posHigh)
      have := hout r rfl
      omega
    refine (if_neg (not_not_present hpresent)).trans ((if_neg hin).trans ?_)
    exact (congrArg (fun a => (State.judgeJog a u).judgeBackoff u r.toNat) ht).trans
      ((congrArg (State.judgeBackoff · u r.toNat) (State.judgeJog_eq_self (.inl hjog))).trans
        (State.judgeBackoff_eq_self hback _))

/-! ### A Positioner under a reason (R83) -/

variable {now : Nat} {r : Reason} {p : Positioner}

theorem Positioner.suspend_state : (p.suspend now).state = .jogging ↔ p.state = .jogging := by
  unfold Positioner.suspend
  cases h : p.state <;> simp [h]

theorem Positioner.under_state : (p.under now r).state = .jogging ↔ p.state = .jogging := by
  unfold Positioner.under
  split
  · rfl
  · split
    · exact Positioner.suspend_state
    · rfl

theorem Positioner.under_has : (p.under now r).reasons.has r = true := by
  unfold Positioner.under
  split
  · assumption
  · simp [Reasons.has_put]

theorem Reasons.isEmpty_iff (r : Reasons) : r.isEmpty = true ↔ ∀ x, r.has x = false := by
  refine ⟨fun he x => ?_, fun hx => ?_⟩
  · simp only [Reasons.isEmpty, Bool.not_eq_true', Bool.or_eq_false_iff] at he
    cases x <;> simp [Reasons.has, he]
  · have h0 := hx .mode
    have h1 := hx .relief
    have h2 := hx .estop
    have h3 := hx .position
    have h4 := hx .noZero
    simp only [Reasons.has] at h0 h1 h2 h3 h4
    simp [Reasons.isEmpty, h0, h1, h2, h3, h4]

/-- The first reason suspends. -/
theorem Positioner.under_of_empty (h : p.reasons.isEmpty = true) :
    p.under now r = { p.suspend now with reasons := p.reasons.put r true } := by
  have hr : ¬p.reasons.has r = true := by simp [(p.reasons.isEmpty_iff.mp h) r]
  rw [Positioner.under, if_neg hr, if_pos h]

theorem Positioner.suspend_driving {d : Drive} (h : p.state = .driving) (hd : p.drive = some d) :
    p.suspend now =
      { p with
        state := .suspended, drive := none, lastEnd := ⟨now, some d.direction⟩, valve := ⟨0, 0⟩, moveTimer := none } := by
  simp only [Positioner.suspend, h, Positioner.driveOff, hd]

theorem Positioner.suspend_idle (h : p.state = .idle) : p.suspend now = { p with state := .suspended } := by
  simp only [Positioner.suspend, h]

theorem State.positionLost_positioner (s : State) (u : Train) :
    (s.positionLost u).positioner u = (s.positioner u).under s.now .position := by
  rw [State.positionLost, State.modStation_positioner_read, State.positioner_modPositioner]
  rfl

theorem State.positionLost_othersKept (s : State) (u : Train) : s.othersKept (s.positionLost u) u :=
  ((s.othersKept_modGap u _).trans (State.othersKept_modPositioner _ u _)).trans
    (State.othersKept_modStation _ (crusherOf u) _)

theorem State.positionLost_station (s : State) (u : Train) :
    (s.positionLost u).station (crusherOf u) = { s.station (crusherOf u) with lastAccepting := false } := by
  rw [State.positionLost, State.station_modStation]
  rfl

theorem State.positionLost_gap (s : State) (u : Train) : (s.positionLost u).gap u = (s.gap u).lost := by
  rw [State.positionLost, State.modStation_gap_read]
  exact s.gap_lost u

/-- A VALID position lost, out of a jog and with no touch to abort (R57). -/
theorem exec_positionArrival_lost {reading : Option (BitVec 16)} (hs : s.powered = true) (hp : s.present u = true)
    (hout : ∀ r, reading = some r → r.toNat < (s.crusher u).posLow ∨ (s.crusher u).posHigh < r.toNat)
    (hfirst : (s.gap u).firstReadingDue = false) (hsubject : (s.gap u).validity ≠ .valid ∨ s.isSubject u = false)
    (hback : s.isSubject u = false ∨ s.sequencer.state ≠ .backoff) (hjog : (s.positioner u).state ≠ .jogging) :
    exec (.positionArrival u reading) s =
      .next ((s.keepReading u reading).positionReported u) := by
  have hkept := s.keepReading_rest u reading
  set k := s.keepReading u reading with hk
  have hgap : k.gap u = s.gap u := by rw [hkept]; rfl
  have hsub : k.isSubject u = s.isSubject u := by rw [hkept]; rfl
  have hpos : k.positioner u = s.positioner u := by rw [hkept]; rfl
  have hseq : k.sequencer = s.sequencer := by rw [hkept]
  refine exec_positionArrival_outside hs hp hout
    (k.positionOutside_eq (hgap ▸ hfirst) (hgap ▸ hsub ▸ hsubject)) ?_ ?_
  · show ((k.positionLost u).positioner u).state ≠ .jogging
    rw [k.positionLost_positioner, Ne, Positioner.under_state, hpos]
    exact hjog
  · simpa [State.positionReported, State.positionLost, hsub, hseq] using hback

/-! ### Recovery (R56, R58) -/

theorem exec_recoveryExpiry_due {k : Recovery} (hs : s.powered = true) (hv : (s.gap u).validity = .recovering)
    (hk : (s.gap u).recovery = some k) (hdue : k.timer.length ≤ elapsed s.now k.timer.start) :
    exec (.recoveryExpiry u) s = .next (s.becomeValid u (if (s.zero u).valid then k.gap else none)) := by
  have hexpired : k.timer.expired s.now = true := decide_eq_true hdue
  rw [exec_recoveryExpiry, State.whenPowered_powered hs, State.recoveryExpiry, hk]
  exact congrArg _ (if_pos (by simp [hv, hexpired]))

/-- The record of a position that becomes VALID with a gap (R58). -/
def GapMeasurement.found (gap : Option Nat) (g : GapMeasurement) : GapMeasurement :=
  { g with validity := .valid, recovery := none, faultStanding := false, gap := gap }

theorem State.gap_found (s : State) (u : Train) (gap : Option Nat) :
    (s.modGap u (GapMeasurement.found gap)).gap u = (s.gap u).found gap := s.gap_modGap u _

/-- A position becomes VALID, step by step (R58). -/
theorem State.becomeValid_steps (s : State) (u : Train) (gap : Option Nat) :
    s.becomeValid u gap =
      (let a := (((s.modGap u (GapMeasurement.found gap)).takeFirstReading u).removeReason u .position).evaluate
        (crusherOf u)
       if (s.gap u).faultStanding then a.causeEnd .positionFault (.crusher u) else a) := rfl

/-- A crusher whose position has become VALID with a gap, before the end of POSITION_FAULT (R58). -/
def State.positionFound (s : State) (u : Train) (gap : Option Nat) : State :=
  ((s.modGap u (GapMeasurement.found gap)).removeReason u .position).evaluate (crusherOf u)

/-- A position becomes VALID, with the first reading taken before (R58). -/
theorem State.becomeValid_eq (hfirst : (s.gap u).firstReadingDue = false) (gap : Option Nat) :
    s.becomeValid u gap =
      if (s.gap u).faultStanding then (s.positionFound u gap).causeEnd .positionFault (.crusher u)
      else s.positionFound u gap := by
  have htaken : (s.modGap u (GapMeasurement.found gap)).takeFirstReading u = s.modGap u (GapMeasurement.found gap) :=
    State.takeFirstReading_eq_self (by rw [State.gap_found]; exact hfirst)
  rw [State.becomeValid_steps, htaken]
  rfl

/-- After the record and the reason, a position found is the moving of the crusher alone. -/
theorem State.positionFound_moves (s : State) (u : Train) (gap : Option Nat) :
    Moves u ((s.modGap u (GapMeasurement.found gap)).modPositioner u fun p =>
      { p with reasons := p.reasons.put .position false }) (s.positionFound u gap) :=
  (State.removeReason_moves _ u .position).evaluate

/-- Out of SUSPENDED, and with nothing waiting for the crusher, a position found moves nothing. -/
theorem State.positionFound_still (hstate : (s.positioner u).state ≠ .suspended)
    (hwait : s.board.waitingFor (crusherOf u) = 0) (gap : Option Nat) :
    (s.positionFound u gap).conditions = s.conditions ∧ (s.positionFound u gap).governors = s.governors := by
  have hslots := Board.waitingFor_eq_zero_iff.mp hwait
  rw [State.positionFound, State.removeReason_eq (s := s.modGap u _) (.inl hstate),
    State.evaluate_eq (.inr (.inr (by simpa using hslots)))]
  simp

theorem State.workOf.trans {c : State} (h : a.workOf b u) (k : b.workOf c u) : a.workOf c u := by
  obtain ⟨h1, h2, h3, h4, h5, h6, h7, h8, h9, h10⟩ := h
  obtain ⟨k1, k2, k3, k4, k5, k6, k7, k8, k9, k10⟩ := k
  exact ⟨k1.trans h1, k2.trans h2, k3.trans h3, k4.trans h4, k5.trans h5, k6.trans h6, k7.trans h7, k8.trans h8,
    k9.trans h9, h10.trans k10⟩

/-- A change of a train's records alone is work of that train. -/
theorem State.workOf_of_othersKept (hother : s.othersKept t u)
    (h : t = { s with
      feeders := t.feeders, crushers := t.crushers, board := t.board, gaps := t.gaps, positioners := t.positioners,
      sequencer := t.sequencer, zeros := t.zeros, governors := t.governors, supervisors := t.supervisors,
      conditions := t.conditions, store := t.store }) : s.workOf t u := by
  refine ⟨?_, ?_, ?_, ?_, ?_, ?_, ?_, ?_, ?_, hother⟩ <;> rw [h]

theorem State.workOf_causeEnd (s : State) (u : Train) (code : Code) (sub : Subject) : s.workOf (s.causeEnd code sub) u :=
  State.workOf_of_othersKept (State.othersKept.refl s u) rfl

theorem State.workOf_modPositioner (s : State) (u : Train) (f : Positioner → Positioner) :
    s.workOf (s.modPositioner u f) u := State.workOf_of_othersKept (s.othersKept_modPositioner u f) rfl

theorem State.workOf_modGap (s : State) (u : Train) (f : GapMeasurement → GapMeasurement) :
    s.workOf (s.modGap u f) u := State.workOf_of_othersKept (s.othersKept_modGap u f) rfl

theorem State.workOf_modSupervisor (s : State) (u : Train) (f : Supervisor → Supervisor) :
    s.workOf (s.modSupervisor u f) u := State.workOf_of_othersKept (s.othersKept_modSupervisor u f) rfl

theorem State.workOf_modGovernor (s : State) (u : Train) (f : Governor → Governor) :
    s.workOf (s.modGovernor u f) u := State.workOf_of_othersKept (s.othersKept_modGovernor u f) rfl

/-- What a lost position leaves, record by record (R57). -/
theorem State.positionReported_facts (s : State) (u : Train) (reading : Option (BitVec 16)) :
    let t := (s.keepReading u reading).positionReported u
    t = { s with
          crushers := t.crushers, inputs := t.inputs, gaps := t.gaps, positioners := t.positioners,
          conditions := t.conditions } ∧
      s.othersKept t u ∧ t.gap u = (s.gap u).lost ∧
      t.station (crusherOf u) = { s.station (crusherOf u) with lastAccepting := false } ∧
      t.positioner u = (s.positioner u).under s.now .position ∧
      t.conditions =
        (if (s.gap u).faultStanding then s.conditions
        else s.conditions.onset .positionFault (.crusher u) none s.stamp) := by
  have hkept := s.keepReading_rest u reading
  generalize s.keepReading u reading = k at *
  have hother : s.othersKept k u := by
    rw [hkept]
    exact State.othersKept.refl s u
  refine ⟨?_, hother.trans (k.positionLost_othersKept u), (k.positionLost_gap u).trans ?_,
    (k.positionLost_station u).trans ?_, (k.positionLost_positioner u).trans ?_, ?_⟩ <;> rw [hkept] <;> rfl

theorem State.gapOf_keepPosition (s : State) (u : Train) (r : BitVec 16) (p : Nat) :
    (s.keepPosition u r).gapOf u p = s.gapOf u p := rfl

/-- An arrival in the window of a position not VALID, with the first reading taken before, changes the record alone. -/
theorem exec_positionArrival_recovering {r : BitVec 16} {f : GapMeasurement → GapMeasurement} (hs : s.powered = true)
    (hp : s.present u = true) (hlow : (s.crusher u).posLow ≤ r.toNat) (hhigh : r.toNat ≤ (s.crusher u).posHigh)
    (hinside : (s.keepPosition u r).positionInside u r.toNat = ((s.keepPosition u r).modGap u f).takeFirstReading u)
    (hfirst : (f (s.gap u)).firstReadingDue = false) (hjog : (s.positioner u).state ≠ .jogging)
    (hback : s.isSubject u = false ∨ s.sequencer.state ≠ .backoff) :
    exec (.positionArrival u (some r)) s = .next ((s.keepPosition u r).modGap u f) := by
  have htaken : ((s.keepPosition u r).modGap u f).takeFirstReading u = (s.keepPosition u r).modGap u f :=
    State.takeFirstReading_eq_self ((congrArg _ (State.gap_modGap ..)).trans hfirst)
  rw [exec_positionArrival_inside hs hp hlow hhigh, hinside, htaken,
    State.judgeJog_eq_self (s := (s.keepPosition u r).modGap u f) (.inl hjog),
    State.judgeBackoff_eq_self (s := (s.keepPosition u r).modGap u f) hback]

/-- Settles O30: the loss in VALID and out of it, the recovery's course, and its expiry. -/
theorem positionIsLostAndRecovers : Obligations.PositionIsLostAndRecovers := by
  refine ⟨fun u reading s hs hp hout hv hfirst hsubject hjog => ?_, fun u r s hs hp hfirst hjog hback => ?_,
    fun u reading s hs hp hout hv hfirst hjog hback hheld => ?_, fun u k s hs hv hk hdue hfirst => ?_⟩
  · obtain ⟨hrest, hother, hgap, hstation, hpositioner, hconditions⟩ := s.positionReported_facts u reading
    refine ⟨_, exec_positionArrival_lost hs hp hout hfirst (.inr hsubject) (.inl hsubject) hjog, hrest, hother, hgap,
      hstation, State.accepting_of_validity (hgap ▸ (by decide : Validity.notValid ≠ .valid)), ?_, hconditions,
      fun d hdriving hempty hd => ?_, fun hidle hempty => ?_⟩
    · rw [hpositioner]
      exact Positioner.under_has (r := .position)
    · rw [hpositioner, Positioner.under_of_empty hempty, Positioner.suspend_driving hdriving hd]
      exact ⟨rfl, rfl, rfl, rfl, rfl⟩
    · rw [hpositioner, Positioner.under_of_empty hempty, Positioner.suspend_idle hidle]
  · intro kept inside gap
    refine ⟨fun hv hin => ?_, fun hv hin => ?_⟩
    · refine exec_positionArrival_recovering hs hp hin.1 hin.2 ?_ hfirst hjog hback
      have : ((s.keepPosition u r).gap u).validity = .notValid := hv
      simp only [State.positionInside, this]
      rfl
    · refine exec_positionArrival_recovering (f := fun g =>
        { g with recovery := g.recovery.map fun k => ⟨k.timer, gap⟩ }) hs hp hin.1 hin.2 ?_ hfirst hjog hback
      have : ((s.keepPosition u r).gap u).validity = .recovering := hv
      simp only [State.positionInside, this]
      rfl
  · have hinvalid : (s.gap u).validity ≠ .valid := by rcases hv with h | h <;> simp [h]
    obtain ⟨hrest, hother, hgap, hstation, hpositioner, hconditions⟩ := s.positionReported_facts u reading
    have hsame : ((s.keepReading u reading).positionReported u).positioners = s.positioners := by
      have hkept := s.keepReading_rest u reading
      have hunder : (s.positioner u).under s.now .position = s.positioner u := if_pos hheld
      generalize s.keepReading u reading = k at *
      have hpositioners : (k.positionReported u).positioners =
          (k.modPositioner u (Positioner.under s.now .position)).positioners := by rw [hkept]; rfl
      rw [hpositioners, State.modPositioner_id, hkept]
      exact hkept ▸ hunder
    refine ⟨_, exec_positionArrival_lost hs hp hout hfirst (.inl hinvalid) hback hjog, ?_, hother, hgap,
      hstation, hconditions⟩
    refine hrest.trans ?_
    rw [hsame]
  · set gap := if (s.zero u).valid then k.gap else none with hgap
    have hmoves := s.positionFound_moves u gap
    have hwork : s.workOf (s.positionFound u gap) u :=
      ((s.workOf_modGap u _).trans (State.workOf_modPositioner _ u _)).trans hmoves.workOf
    have hfound : (s.positionFound u gap).gap u = (s.gap u).found gap := by
      rw [State.gap, hmoves.gaps]
      exact s.gap_found u gap
    have hreason : ((s.positionFound u gap).positioner u).reasons.position = false := by
      rw [hmoves.reasons, State.positioner_modPositioner]
      rfl
    rw [exec_recoveryExpiry_due hs hv hk hdue, State.becomeValid_eq hfirst]
    split
    · next hstood =>
      exact ⟨_, rfl, hwork.trans (State.workOf_causeEnd ..), hfound, hreason, hmoves.zeros, hmoves.sequencer,
        fun _ => ConditionList.listed_causeEnded_self _ _ rfl, fun _ h => absurd hstood (by simp [h])⟩
    · next hstood =>
      exact ⟨_, rfl, hwork, hfound, hreason, hmoves.zeros, hmoves.sequencer, fun h => absurd h hstood,
        fun hstate _ hwait => State.positionFound_still hstate hwait gap⟩

end Sys2Proof.Machine
end

section
/-! PROOFS. The moving of one crusher in guarded primitive steps: what a move, a resume, a selection or the end of a
relief episode does is a run of these steps, so a relation that holds of each step, and composes, holds of it. -/

namespace Sys2Proof.Machine

variable {a b s : State} {t : Train} {now : Nat}

theorem State.modPositioner_modPositioner (s : State) (t : Train) (f g : Positioner → Positioner) :
    (s.modPositioner t f).modPositioner t g = s.modPositioner t fun p => g (f p) := by
  have hset {α : Type} (q : Quad α) (x y : α) : (q.set t x).set t y = q.set t y := by cases t <;> rfl
  rw [State.modPositioner, State.positioner_modPositioner]
  exact congrArg (fun q => { s with positioners := q }) (hset ..)

/-! ### The steps of a Positioner -/

/-- A Positioner in which a move may start: in IDLE, at the end of its drain, or with its last reason gone. -/
def Positioner.startable (p : Positioner) : Prop :=
  p.state = .idle ∨ p.state = .draining ∨ p.state = .suspended ∧ p.reasons.isEmpty = true

/-- A Positioner after the end of its move (R78). -/
def Positioner.ended (now : Nat) (p : Positioner) : Positioner :=
  { (p.driveOff now).discardPending with
    moveTimer := none, lastDuration := p.moveDuration now, state := .idle, move := none }

/-- One step of a Positioner in the moving of its crusher, with what the model has found by then. -/
inductive Positioner.Step (now : Nat) (q : CrusherParams) : Positioner → Positioner → Prop where
  /-- Timers and the move's record. -/
  | keeps {p p' : Positioner} (state : p'.state = p.state) (drive : p'.drive = p.drive)
      (pending : p'.pendingDrive = p.pendingDrive) (lastEnd : p'.lastEnd = p.lastEnd)
      (reasons : p'.reasons = p.reasons) : Step now q p p'
  /-- A move begins to drive (R74, R75). -/
  | asks {p : Positioner} (e : Int) (timer : Timer) (h : p.startable) :
    Step now q p ({ p with moveTimer := some timer }.askMove now q e)
  /-- A move begins to drain (R74). -/
  | drains {p : Positioner} (timer : Timer) (h : p.startable) :
    Step now q p { p with state := .draining, drainTimer := some timer }
  /-- A resume that finds no move to start (R84). -/
  | rests {p : Positioner} (h : p.state = .suspended) (hr : p.reasons.isEmpty = true) :
    Step now q p { p with state := .idle, move := none }
  /-- A move ends (R78). -/
  | ends {p : Positioner} (h : p.state = .driving ∨ p.state = .deadTime ∨ p.state = .draining) :
    Step now q p (p.ended now)
  /-- A jog ends (R89). -/
  | endsJog {p : Positioner} (h : p.state = .jogging) : Step now q p { p.dropJog now with state := .suspended }
  /-- A move steered in DRIVING (R77). -/
  | steers {p : Positioner} (e : Int) (h : p.state = .driving) : Step now q p (p.steer now q e)
  /-- A move steered in DEAD_TIME (R77). -/
  | steersPending {p : Positioner} (e : Int) (h : p.state = .deadTime) : Step now q p (p.steerPending now q e)
  /-- A reason goes (R84). -/
  | without {p : Positioner} (r : Reason) : Step now q p { p with reasons := p.reasons.put r false }

/-- A request is applied to the crusher of a train: its slot freed, the last-applied record and the setting written,
before the new target is reported (R36, R42). -/
def State.applied (s : State) (t : Train) (i : Nat) (r : Slot) : State :=
  ((s.freeSlot i).modStation (crusherOf t) fun rec => { rec with lastApplied := some ⟨r.source, r.tag⟩ }).modStation
    (crusherOf t) fun rec =>
      { rec with
        standing :=
          ⟨s.limited (crusherOf t) r.value, r.priority, .request r.source r.tag r.sequence, r.keep⟩ }

/-- The end of a relief episode, up to the predicate evaluated again (R139). -/
def State.episodeEnded (s : State) (t : Train) : State :=
  ((s.modSupervisor t fun v => { v with relief := .normal }).removeHold t .relief).causeEnd .relief (.crusher t)

/-- The accepting predicate of a crusher evaluated, before a selection that it brings (R8). -/
def State.evaluated (s : State) (t : Train) : State :=
  s.modStation (crusherOf t) fun r => { r with lastAccepting := s.accepting (crusherOf t) }

theorem Positioner.askMove_suspended (p : Positioner) (timer : Timer) (now : Nat) (q : CrusherParams) (e : Int) :
    ({ p with state := .suspended, moveTimer := some timer }.askMove now q e) =
      { p with moveTimer := some timer }.askMove now q e := by
  unfold Positioner.askMove Positioner.ask Positioner.mayBegin Positioner.driveOn
  dsimp only
  split <;> rfl

theorem State.startMove_suspended (s : State) (t : Train) (e : Int) :
    (s.modPositioner t fun p => { p with state := .suspended }).startMove t e = s.startMove t e := by
  have hdrive (y : State) :
      (y.modPositioner t fun p => { p with state := .suspended }).driveMove t e = y.driveMove t e := by
    rw [State.driveMove, State.modPositioner_modPositioner]
    exact congrArg (fun p => { y with positioners := y.positioners.set t p })
      (Positioner.askMove_suspended (y.positioner t) (y.timer ((y.crusher t).moveLimit * 1000)) y.now (y.crusher t) e)
  have hdrain (y : State) (timer : Timer) :
      (y.modPositioner t fun p => { p with state := .suspended }).modPositioner t
          (fun p => { p with state := .draining, drainTimer := some timer }) =
        y.modPositioner t fun p => { p with state := .draining, drainTimer := some timer } :=
    State.modPositioner_modPositioner ..
  set m : Positioner → Positioner := fun p => { p with move := some ⟨s.now, (s.crusher t).loadAdjust⟩ } with hm
  have hmove : (s.modPositioner t fun p => { p with state := .suspended }).modPositioner t m =
      (s.modPositioner t m).modPositioner t fun p => { p with state := .suspended } := by
    rw [State.modPositioner_modPositioner, State.modPositioner_modPositioner]
  unfold State.startMove
  show (if (s.crusher t).loadAdjust then
      (((s.modPositioner t fun p => { p with state := .suspended }).modPositioner t m).removeHold t .gapMove).driveMove t e
    else if (s.crusher t).drainTime = 0 then
      (((s.modPositioner t fun p => { p with state := .suspended }).modPositioner t m).addHold t .gapMove).driveMove t e
    else (((s.modPositioner t fun p => { p with state := .suspended }).modPositioner t m).addHold t .gapMove).modPositioner t
      fun p => { p with state := .draining, drainTimer := some (s.timer ((s.crusher t).drainTime * 1000)) }) = _
  rw [hmove]
  exact if_congr Iff.rfl (hdrive ((s.modPositioner t m).removeHold t .gapMove))
    (if_congr Iff.rfl (hdrive ((s.modPositioner t m).addHold t .gapMove)) (hdrain ((s.modPositioner t m).addHold t .gapMove) _))

/-- A resume takes no note of the state it leaves (R84). -/
theorem State.resume_suspended (s : State) (t : Train) :
    (s.modPositioner t fun p => { p with state := .suspended }).resume t = s.resume t := by
  have hidle : (s.modPositioner t fun p => { p with state := .suspended }).enterIdle t = s.enterIdle t := by
    rw [State.enterIdle, State.modPositioner_modPositioner]
    rfl
  have hmove := s.startMove_suspended t
  rw [State.resume, State.resume, State.startMoveOr, State.startMoveOr]
  rw [show (s.modPositioner t fun p => { p with state := .suspended }).gapError t = s.gapError t from rfl]
  cases s.gapError t with
  | none => exact hidle
  | some e => exact if_congr Iff.rfl hidle (hmove e)

/-- A relation of states that composes and holds of every primitive step in the moving of a train's crusher. -/
structure MoveClosed (t : Train) (R : State → State → Prop) : Prop where
  refl : ∀ a, R a a
  trans : ∀ {a b c}, R a b → R b c → R a c
  positioner : ∀ (a : State) (f : Positioner → Positioner),
    Positioner.Step a.now (a.crusher t) (a.positioner t) (f (a.positioner t)) → R a (a.modPositioner t f)
  addGapMove : ∀ a : State, R a (a.addHold t .gapMove)
  removeGapMove : ∀ a : State, R a (a.removeHold t .gapMove)
  episode : ∀ a : State, (a.supervisor t).relief = .restoring → R a (a.episodeEnded t)
  judged : ∀ a : State,
    (a.accepting (crusherOf t) = true → (a.station (crusherOf t)).lastAccepting = false → ∀ i r,
      bestSlot (crusherOf t) 0 a.board.slots = some (i, r) →
        outranks r.priority r.sequence (a.station (crusherOf t)).standing = false) → R a (a.evaluated t)
  selected : ∀ (a : State) (i : Nat) (r : Slot), a.accepting (crusherOf t) = true →
    (a.station (crusherOf t)).lastAccepting = false → bestSlot (crusherOf t) 0 a.board.slots = some (i, r) →
    outranks r.priority r.sequence (a.station (crusherOf t)).standing = true → R a ((a.evaluated t).applied t i r)

namespace MoveClosed

variable {R : State → State → Prop} (hc : MoveClosed t R)
include hc

omit hc in
theorem ite {p : Prop} [Decidable p] (h : p → R s a) (k : ¬p → R s b) : R s (if p then a else b) := by
  split
  · next hp => exact h hp
  · next hp => exact k hp

/-! ### Moves -/

theorem driveMove (h : R s a) (e : Int) (hstart : (a.positioner t).startable) : R s (a.driveMove t e) :=
  hc.trans h (hc.positioner a _ (.asks e _ hstart))

theorem startMove (h : R s a) (e : Int) (hstart : (a.positioner t).startable) : R s (a.startMove t e) := by
  have hmove : R s (a.modPositioner t fun p => { p with move := some ⟨a.now, (a.crusher t).loadAdjust⟩ }) :=
    hc.trans h (hc.positioner a _ (.keeps rfl rfl rfl rfl rfl))
  have hstart' : ((a.modPositioner t fun p =>
      { p with move := some ⟨a.now, (a.crusher t).loadAdjust⟩ }).positioner t).startable := by
    simpa [Positioner.startable] using hstart
  unfold State.startMove
  refine MoveClosed.ite (fun _ => hc.driveMove (hc.trans hmove (hc.removeGapMove _)) e hstart') fun _ => ?_
  have hheld := hc.trans hmove (hc.addGapMove _)
  exact MoveClosed.ite (fun _ => hc.driveMove hheld e hstart') fun _ =>
    hc.trans hheld (hc.positioner _ _ (.drains _ hstart'))

theorem startMoveOr {f : State → State} (hf : R s (f a)) (h : R s a) (hstart : (a.positioner t).startable) :
    R s (a.startMoveOr t f) := by
  unfold State.startMoveOr
  split
  · exact hf
  · exact MoveClosed.ite (fun _ => hf) fun _ => hc.startMove h _ hstart

theorem retargetIdle (h : R s a) : R s (a.retargetIdle t) :=
  MoveClosed.ite (fun hidle => hc.startMoveOr h h (.inl hidle)) fun _ => h

/-! ### Selection -/

section report

variable {report : Train → State → State} (hr : ∀ a, R s a → R s (report t a))
include hr

theorem evaluateWith (h : R s a) : R s (a.evaluateWith report (crusherOf t)) := by
  have hboard : (a.evaluated t).board = a.board := State.modStation_board ..
  have hstanding : ((a.evaluated t).station (crusherOf t)).standing = (a.station (crusherOf t)).standing := by
    rw [State.evaluated, State.station_modStation]
  have heval : a.evaluateWith report (crusherOf t) =
      if a.accepting (crusherOf t) && !(a.station (crusherOf t)).lastAccepting then
        (a.evaluated t).selectWith report (crusherOf t) else a.evaluated t := rfl
  rw [heval]
  refine MoveClosed.ite (fun hrises => ?_) fun hno => hc.trans h (hc.judged a fun hacc hlast => absurd ?_ hno)
  · obtain ⟨hacc, hlast⟩ : a.accepting (crusherOf t) = true ∧ (a.station (crusherOf t)).lastAccepting = false := by
      simpa using hrises
    unfold State.selectWith
    rw [hboard, hstanding]
    split
    · next hb => exact hc.trans h (hc.judged a fun _ _ i r hi => by rw [hb] at hi; cases hi)
    · next i r hb =>
      refine MoveClosed.ite (fun ho => ?_) fun hno => hc.trans h (hc.judged a fun _ _ j q hj => ?_)
      · have happlied : R s ((a.evaluated t).applied t i r) := hc.trans h (hc.selected a i r hacc hlast hb ho)
        unfold State.applyWith State.writeStandingWith
        rw [bestSlot_station hb]
        exact MoveClosed.ite (fun _ => happlied) fun _ => hr _ happlied
      · obtain ⟨-, rfl⟩ := Prod.mk.inj (Option.some.inj (hb.symm.trans hj))
        exact Bool.eq_false_iff.mpr hno
  · simp [hacc, hlast]

end report

/-! ### Arrival in IDLE, resumes and the ends of moves -/

theorem arriveIdle (h : R s a) : R s (a.arriveIdle t) :=
  MoveClosed.ite (fun hr => hc.evaluateWith (fun _ => hc.retargetIdle) (hc.trans h (hc.episode a hr))) fun _ => h

theorem enterIdle (h : R s a) (hstate : (a.positioner t).state = .suspended)
    (hreasons : (a.positioner t).reasons.isEmpty = true) : R s (a.enterIdle t) :=
  hc.arriveIdle (hc.trans (hc.trans h (hc.positioner a _ (.rests hstate hreasons))) (hc.removeGapMove _))

omit hc in
theorem endMove_eq (a : State) (t : Train) :
    a.endMove t = ((a.modPositioner t (Positioner.ended a.now)).removeHold t .gapMove).arriveIdle t := by
  rw [State.endMove, State.enterIdle, State.modPositioner_modPositioner]
  rfl

theorem endMove (h : R s a)
    (hstate : (a.positioner t).state = .driving ∨ (a.positioner t).state = .deadTime ∨
      (a.positioner t).state = .draining) : R s (a.endMove t) := by
  rw [endMove_eq]
  exact hc.arriveIdle (hc.trans (hc.trans h (hc.positioner a _ (.ends hstate))) (hc.removeGapMove _))

theorem resume (h : R s a) (hstate : (a.positioner t).state = .suspended)
    (hreasons : (a.positioner t).reasons.isEmpty = true) : R s (a.resume t) :=
  hc.startMoveOr (hc.enterIdle h hstate hreasons) h (.inr (.inr ⟨hstate, hreasons⟩))

theorem endJog (h : R s a) (hstate : (a.positioner t).state = .jogging) : R s (a.endJog t) := by
  have hended := hc.trans h (hc.positioner a (fun p => { p.dropJog a.now with state := .suspended }) (.endsJog hstate))
  exact MoveClosed.ite (fun hempty => hc.resume hended (by simp) hempty) fun _ => hended

theorem endRunningJog (h : R s a) : R s (a.endRunningJog t) := MoveClosed.ite (hc.endJog h) fun _ => h

theorem judgeMove {f : Nat → CrusherParams → Int → Positioner → Positioner} (h : R s a)
    (hstate : (a.positioner t).state = .driving ∨ (a.positioner t).state = .deadTime)
    (hf : ∀ e, Positioner.Step a.now (a.crusher t) (a.positioner t) (f a.now (a.crusher t) e (a.positioner t))) :
    R s (a.judgeMove t f) := by
  have hend := hc.endMove h (hstate.imp_right .inl)
  unfold State.judgeMove
  split
  · exact hend
  · next e _ => exact MoveClosed.ite (fun _ => hend) fun _ => hc.trans h (hc.positioner a _ (hf e))

theorem retarget (h : R s a) : R s (a.retarget t) := by
  have htimer : R s (a.restartMoveTimer t) := hc.trans h (hc.positioner a _ (.keeps rfl rfl rfl rfl rfl))
  unfold State.retarget
  split
  · exact hc.retargetIdle h
  · next hstate =>
    have hstate' : ((a.restartMoveTimer t).positioner t).state = .driving := by
      simpa [State.restartMoveTimer] using hstate
    exact hc.judgeMove htimer (.inl hstate') fun e => .steers e hstate'
  · next hstate =>
    have hstate' : ((a.restartMoveTimer t).positioner t).state = .deadTime := by
      simpa [State.restartMoveTimer] using hstate
    exact hc.judgeMove htimer (.inr hstate') fun e => .steersPending e hstate'
  all_goals exact h

theorem evaluate (h : R s a) : R s (a.evaluate (crusherOf t)) := hc.evaluateWith (fun _ => hc.retarget) h

theorem removeReason (h : R s a) (r : Reason) : R s (a.removeReason t r) := by
  have hgone := hc.trans h (hc.positioner a (fun p => { p with reasons := p.reasons.put r false }) (.without r))
  unfold State.removeReason
  refine MoveClosed.ite (fun _ => h) fun _ => MoveClosed.ite (fun hlast => ?_) fun _ => hgone
  obtain ⟨hstate, hempty⟩ : (a.positioner t).state = .suspended ∧
      ((a.positioner t).reasons.put r false).isEmpty = true := by simpa using hlast
  exact hc.resume hgone (by simpa using hstate) (by simpa using hempty)

/-! ### Samples, drains and faults -/

theorem sampleAction (h : R s a) : R s (a.sampleAction t) := by
  unfold State.sampleAction
  split
  · next hidle =>
    unfold State.driftTest
    split
    · exact h
    · exact MoveClosed.ite (fun _ => h) fun _ => hc.startMove h _ (.inl hidle)
  · next hstate => exact hc.judgeMove h (.inl hstate) fun e => .steers e hstate
  · next hstate => exact hc.judgeMove h (.inr hstate) fun e => .steersPending e hstate
  all_goals exact h

theorem sampleExpiry (h : R s a) : R s (a.sampleExpiry t) :=
  MoveClosed.ite (fun _ => hc.trans (hc.sampleAction h) (hc.positioner _ _ (.keeps rfl rfl rfl rfl rfl))) fun _ => h

theorem drainExpiry (h : R s a) : R s (a.drainExpiry t) := by
  unfold State.drainExpiry
  refine MoveClosed.ite (fun hdue => ?_) fun _ => h
  have hstate : (a.positioner t).state = .draining := by
    simp only [Bool.and_eq_true, decide_eq_true_eq] at hdue
    exact hdue.1
  have htimer : R s (a.modPositioner t fun p => { p with drainTimer := none }) :=
    hc.trans h (hc.positioner a _ (.keeps rfl rfl rfl rfl rfl))
  have hstate' : ((a.modPositioner t fun p => { p with drainTimer := none }).positioner t).state = .draining := by
    simpa using hstate
  have hend := hc.endMove htimer (.inr (.inr hstate'))
  dsimp only
  split
  · exact hend
  · exact MoveClosed.ite (fun _ => hend) fun _ => hc.driveMove htimer _ (.inr (.inl hstate'))

theorem judgeJog (h : R s a) : R s (a.judgeJog t) :=
  MoveClosed.ite (fun hj => hc.endJog h (by simp only [Bool.and_eq_true, decide_eq_true_eq] at hj; exact hj.1)) fun _ => h

theorem jogTimeEnd (h : R s a) : R s (a.jogTimeEnd t) := by
  refine MoveClosed.ite (fun hj => hc.endJog h ?_) fun _ => h
  simp only [State.jogDue, Bool.and_eq_true, decide_eq_true_eq] at hj
  exact hj.1

end MoveClosed

/-! ### Nothing waits for the crusher -/

/-- Where nothing waits for a crusher, the board, its setting and its last-applied record stay. -/
def Stills (t : Train) (a b : State) : Prop :=
  a.board.waitingFor (crusherOf t) = 0 →
    b.board = a.board ∧ (b.station (crusherOf t)).standing = (a.station (crusherOf t)).standing

theorem stills_moveClosed (t : Train) : MoveClosed t (Stills t) where
  refl := fun _ _ => ⟨rfl, rfl⟩
  trans := fun h k hw => by
    obtain ⟨h1, h2⟩ := h hw
    obtain ⟨k1, k2⟩ := k (h1 ▸ hw)
    exact ⟨k1.trans h1, k2.trans h2⟩
  positioner := fun _ _ _ _ => ⟨rfl, rfl⟩
  addGapMove := fun _ _ => ⟨rfl, rfl⟩
  removeGapMove := fun _ _ => ⟨rfl, rfl⟩
  episode := fun _ _ _ => ⟨rfl, rfl⟩
  judged := fun a _ _ => ⟨State.modStation_board .., by simp [State.evaluated]⟩
  selected := fun a i r _ _ hb _ hw => by
    obtain ⟨k, -, hk, hst⟩ := bestSlot_mem hb
    exact absurd hst (Board.waitingFor_eq_zero_iff.mp hw r (List.mem_of_getElem? hk))

end Sys2Proof.Machine
end

section
/-! PROOFS. The first position reading after a start or a return of the train (R58, R59, R92). -/

namespace Sys2Proof.Machine

variable {a b s t : State} {u : Train}

/-- A new target reaches a Positioner that runs no move and is not in IDLE: nothing happens (R79). -/
theorem State.retarget_still (h : (s.positioner u).state ≠ .idle) (h1 : (s.positioner u).state ≠ .driving)
    (h2 : (s.positioner u).state ≠ .deadTime) : s.retarget u = s := by
  unfold State.retarget
  split <;> first | rfl | contradiction

theorem State.writeStanding_still (h : (s.positioner u).state ≠ .idle) (h1 : (s.positioner u).state ≠ .driving)
    (h2 : (s.positioner u).state ≠ .deadTime) (x : Standing) :
    s.writeStanding (crusherOf u) x = s.modStation (crusherOf u) fun r => { r with standing := x } := by
  unfold State.writeStanding State.writeStandingWith
  dsimp only
  split
  · rfl
  · exact State.retarget_still (u := u) (by simpa using h) (by simpa using h1) (by simpa using h2)

/-- A setting written is the setting, then the moving of the crusher by its closed steps. -/
theorem MoveClosed.writeStanding {R : State → State → Prop} (hc : MoveClosed u R) (s : State) (x : Standing) :
    R (s.modStation (crusherOf u) fun r => { r with standing := x }) (s.writeStanding (crusherOf u) x) :=
  MoveClosed.ite (fun _ => hc.refl _) fun _ => hc.retarget (hc.refl _)

theorem State.writeStanding_moves (s : State) (u : Train) (x : Standing) :
    Moves u (s.modStation (crusherOf u) fun r => { r with standing := x }) (s.writeStanding (crusherOf u) x) :=
  Moves.ite (Moves.refl _) (Moves.refl _).retarget

/-- The START target of the first reading: the gap within the limits, or GAP_MAX (R92). -/
def CrusherParams.startTarget (p : CrusherParams) : Option Nat → Nat
  | some g => clamp p.gapMin p.gapMax g
  | none => p.gapMax

/-- The state as the first reading writes the START setting, before a changed target is reported (R92). -/
def State.firstWritten (s : State) (u : Train) : State :=
  (s.modGap u fun g => { g with firstReadingDue := false }).modStation (crusherOf u) fun r =>
    { r with standing := Standing.start ((s.crusher u).startTarget (s.gap u).gap) }

/-- The first reading taken, where it is due (R92). -/
theorem State.takeFirstReading_due (h : (s.gap u).firstReadingDue = true) :
    s.takeFirstReading u =
      (s.modGap u fun g => { g with firstReadingDue := false }).writeStanding (crusherOf u)
        (Standing.start ((s.crusher u).startTarget (s.gap u).gap)) := by
  rw [State.takeFirstReading, if_pos h, State.firstReading]
  simp only [State.gap_modGap, State.modGap_crusher_read]
  cases (s.gap u).gap <;> rfl

theorem State.takeFirstReading_moves (h : (s.gap u).firstReadingDue = true) :
    Moves u (s.firstWritten u) (s.takeFirstReading u) ∧ Stills u (s.firstWritten u) (s.takeFirstReading u) := by
  rw [State.takeFirstReading_due h]
  exact ⟨State.writeStanding_moves .., MoveClosed.writeStanding (R := Stills u) (stills_moveClosed u) _ _⟩

theorem State.takeFirstReading_still (h : (s.gap u).firstReadingDue = true)
    (hstate : (s.positioner u).state = .suspended ∨ (s.positioner u).state = .fault) :
    s.takeFirstReading u = s.firstWritten u := by
  rw [State.takeFirstReading_due h]
  refine State.writeStanding_still ?_ ?_ ?_ _ <;>
    rcases hstate with hstate | hstate <;> simp [hstate]

/-- What is said of the first reading after a start: it is taken, the crusher's setting is START at a target, the
validity, POSITION and the standing of its fault are given. -/
structure FirstTaken (u : Train) (s t : State) (target : Nat) (v : Validity) (held stands : Bool) : Prop where
  due : (t.gap u).firstReadingDue = false
  zeros : t.zeros = s.zeros
  board : t.board = s.board
  validity : (t.gap u).validity = v
  fault : (t.gap u).faultStanding = stands
  reason : (t.positioner u).reasons.position = held
  standing : (t.station (crusherOf u)).standing = Standing.start target
  sequencer : t.sequencer = s.sequencer

/-- The moving of a crusher for which nothing waits, and the List, leave what is said of the first reading. -/
theorem FirstTaken.then {target : Nat} {v : Validity} {held stands : Bool} (hwait : s.board.waitingFor (crusherOf u) = 0)
    (h : FirstTaken u s a target v held stands) (hm : Moves u a b) (hs : Stills u a b) :
    FirstTaken u s b target v held stands := by
  obtain ⟨hboard, hstanding⟩ := hs (h.board ▸ hwait)
  exact
    { due := by rw [State.gap, hm.gaps]; exact h.due
      zeros := hm.zeros.trans h.zeros
      board := hboard.trans h.board
      validity := by rw [State.gap, hm.gaps]; exact h.validity
      fault := by rw [State.gap, hm.gaps]; exact h.fault
      reason := by rw [hm.reasons]; exact h.reason
      standing := hstanding.trans h.standing
      sequencer := hm.sequencer.trans h.sequencer }

theorem FirstTaken.modConditions {target : Nat} {v : Validity} {held stands : Bool}
    (h : FirstTaken u s a target v held stands) (f : ConditionList → ConditionList) :
    FirstTaken u s (a.modConditions f) target v held stands :=
  ⟨h.due, h.zeros, h.board, h.validity, h.fault, h.reason, h.standing, h.sequencer⟩

theorem FirstTaken.ite {target : Nat} {v : Validity} {held stands : Bool} {p : Prop} [Decidable p]
    (h : FirstTaken u s a target v held stands) (k : FirstTaken u s b target v held stands) :
    FirstTaken u s (if p then a else b) target v held stands := by
  split
  · exact h
  · exact k

/-- Nothing waits for the crusher in a state that says so of the first reading. -/
theorem FirstTaken.judgeJog {target : Nat} {v : Validity} {held stands : Bool}
    (hwait : s.board.waitingFor (crusherOf u) = 0) (h : FirstTaken u s a target v held stands) :
    FirstTaken u s (a.judgeJog u) target v held stands :=
  h.then hwait (Moves.refl _).judgeJog ((stills_moveClosed u).judgeJog ((stills_moveClosed u).refl _))

/-- The first reading in the window (R58, R92). -/
theorem State.becomeValid_first (hwait : s.board.waitingFor (crusherOf u) = 0)
    (hfirst : (s.gap u).firstReadingDue = true) (gap : Option Nat) :
    FirstTaken u s (s.becomeValid u gap) ((s.crusher u).startTarget gap) .valid false false := by
  set w := (s.modGap u (GapMeasurement.found gap)) with hw
  have hgap : w.gap u = (s.gap u).found gap := s.gap_found u gap
  obtain ⟨hmoves, hstills⟩ := State.takeFirstReading_moves (s := w) (u := u) (by rw [hgap]; exact hfirst)
  have hclosed := stills_moveClosed u
  have hwritten : (w.firstWritten u).gap u = { (s.gap u).found gap with firstReadingDue := false } := by
    rw [State.firstWritten, State.modStation_gap_read, State.gap_modGap, hgap]
  have hstanding : ((w.firstWritten u).station (crusherOf u)).standing =
      Standing.start ((s.crusher u).startTarget gap) := by
    rw [State.firstWritten, State.station_modStation, hgap]
    rfl
  have hremoved := State.removeReason_moves (w.takeFirstReading u) u .position
  have hgone := hremoved.evaluate
  have hstill : Stills u (w.firstWritten u) (((w.takeFirstReading u).removeReason u .position).evaluate (crusherOf u)) :=
    hclosed.evaluate (hclosed.removeReason hstills .position)
  obtain ⟨hboard, hkept⟩ := hstill hwait
  have htaken : FirstTaken u s (((w.takeFirstReading u).removeReason u .position).evaluate (crusherOf u))
      ((s.crusher u).startTarget gap) .valid false false := by
    have hgaps : (((w.takeFirstReading u).removeReason u .position).evaluate (crusherOf u)).gap u =
        { (s.gap u).found gap with firstReadingDue := false } := by
      rw [State.gap, hgone.gaps, ← hwritten]
      exact congrArg (Quad.get · u) hmoves.gaps
    exact
      { due := by rw [hgaps]
        zeros := hgone.zeros.trans (hmoves.zeros.trans rfl)
        board := hboard
        validity := by rw [hgaps]; rfl
        fault := by rw [hgaps]; rfl
        reason := by rw [hgone.reasons, State.positioner_modPositioner]; rfl
        standing := hkept.trans hstanding
        sequencer := hgone.sequencer.trans hmoves.sequencer }
  rw [State.becomeValid_steps]
  exact (htaken.modConditions _).ite htaken

/-- The first reading outside the window, or failed (R57, R92). -/
theorem State.positionOutside_first (hwait : s.board.waitingFor (crusherOf u) = 0)
    (hfirst : (s.gap u).firstReadingDue = true) (hv : (s.gap u).validity ≠ .valid) :
    FirstTaken u s (s.positionOutside u) (s.crusher u).gapMax .notValid true true := by
  set w := s.modGap u GapMeasurement.lost with hw
  have hgap : w.gap u = (s.gap u).lost := s.gap_lost u
  obtain ⟨hmoves, hstills⟩ := State.takeFirstReading_moves (s := w) (u := u) (by rw [hgap]; exact hfirst)
  have hclosed := stills_moveClosed u
  have hwritten : (w.firstWritten u).gap u = { (s.gap u).lost with firstReadingDue := false } := by
    rw [State.firstWritten, State.modStation_gap_read, State.gap_modGap, hgap]
  have hstanding : ((w.firstWritten u).station (crusherOf u)).standing = Standing.start (s.crusher u).gapMax := by
    rw [State.firstWritten, State.station_modStation, hgap]
    rfl
  obtain ⟨hboard, hkept⟩ := hstills hwait
  have hunder : FirstTaken u s ((w.takeFirstReading u).addReason u .position) (s.crusher u).gapMax .notValid true true := by
    rw [State.addReason_eq (.inr rfl)]
    have hgaps : (w.takeFirstReading u).gap u = { (s.gap u).lost with firstReadingDue := false } := by
      rw [← hwritten]
      exact congrArg (Quad.get · u) hmoves.gaps
    exact
      { due := by rw [State.modPositioner_gap_read, hgaps]
        zeros := hmoves.zeros
        board := hboard
        validity := by rw [State.modPositioner_gap_read, hgaps]; rfl
        fault := by rw [State.modPositioner_gap_read, hgaps]; rfl
        reason := by rw [State.positioner_modPositioner]; exact Positioner.under_has (r := .position)
        standing := hkept.trans hstanding
        sequencer := hmoves.sequencer }
  have hevaluated := hunder.then hwait (Moves.refl _).evaluate (hclosed.evaluate (hclosed.refl _))
  rw [State.positionOutside_steps]
  dsimp only
  rw [if_neg hv]
  exact hevaluated.ite (hevaluated.modConditions _)

/-- An arrival outside the window, judged for a jog and a touch after the loss (R56, R88, R102). -/
theorem exec_positionArrival_outside_judged {reading : Option (BitVec 16)} (hs : s.powered = true)
    (hp : s.present u = true)
    (hout : ∀ r, reading = some r → r.toNat < (s.crusher u).posLow ∨ (s.crusher u).posHigh < r.toNat)
    (hsubject : (((s.keepReading u reading).positionOutside u).judgeJog u).isSubject u = false) :
    exec (.positionArrival u reading) s = .next (((s.keepReading u reading).positionOutside u).judgeJog u) := by
  rw [exec_positionArrival, State.whenPowered_powered hs]
  refine congrArg _ ?_
  cases reading with
  | none => exact if_neg (not_not_present hp)
  | some r =>
    have hpresent : (s.keepPosition u r).present u = true := hp
    have hin : ((s.keepPosition u r).crusher u).inWindow (some r.toNat) ≠ true := by
      rw [Ne, CrusherParams.inWindow_iff]
      show ¬((s.crusher u).posLow ≤ r.toNat ∧ r.toNat ≤ (s.crusher u).posHigh)
      have := hout r rfl
      omega
    exact (if_neg (not_not_present hpresent)).trans ((if_neg hin).trans (State.judgeBackoff_eq_self (.inl hsubject) _))

theorem State.positionInside_notValid {p : Nat} (h : (s.gap u).validity = .notValid) :
    s.positionInside u p =
      (s.modGap u fun g =>
        { g with validity := .recovering, recovery := some ⟨⟨s.now, 1000⟩, s.gapOf u p⟩ }).takeFirstReading u := by
  simp only [State.positionInside, h]
  rfl

theorem State.positionInside_unchecked {p : Nat} (h : (s.gap u).validity = .unchecked) :
    s.positionInside u p = s.becomeValid u (s.gapOf u p) := by
  simp only [State.positionInside, h]

/-- A first reading outside the window, of a crusher SUSPENDED under POSITION or in FAULT: the record, the START setting,
the predicate and POSITION_FAULT, and nothing else (R57, R92). -/
theorem State.positionOutside_first_still (hfirst : (s.gap u).firstReadingDue = true)
    (hv : (s.gap u).validity ≠ .valid) (hheld : (s.positioner u).reasons.position = true)
    (hstate : (s.positioner u).state = .suspended ∨ (s.positioner u).state = .fault) :
    s.positionOutside u =
      (((s.modGap u GapMeasurement.lost).firstWritten u).modStation (crusherOf u) fun r =>
          { r with lastAccepting := false }).modConditions fun l =>
        if (s.gap u).faultStanding then l else l.onset .positionFault (.crusher u) none s.stamp := by
  set w := s.modGap u GapMeasurement.lost with hw
  have hgap : w.gap u = (s.gap u).lost := s.gap_lost u
  have hreason : (w.firstWritten u).addReason u .position = w.firstWritten u := by
    refine if_pos ?_
    simpa [State.firstWritten, hw, Reasons.has] using hheld
  have hno : (w.firstWritten u).accepting (crusherOf u) = false := by
    refine State.accepting_of_validity ?_
    rw [State.firstWritten, State.modStation_gap_read, State.gap_modGap, hgap]
    show Validity.notValid ≠ .valid
    decide
  have htaken := State.takeFirstReading_still (s := w) (u := u) (by rw [hgap]; exact hfirst) hstate
  rw [State.positionOutside_steps, htaken, hreason, State.evaluate_eq (.inl hno), hno]
  dsimp only
  rw [if_neg hv]
  split <;> rfl

/-- Settles O31: the first reading in UNCHECKED and in NOT_VALID, in the window and outside. -/
theorem firstReadingWritesTheStartTarget : Obligations.FirstReadingWritesTheStartTarget := by
  refine ⟨fun u reading s hs hp hv hfirst hwait hsubject => ?_, fun u reading s hs hp hv hfirst hgap hheld hstate hsubject => ?_⟩
  · by_cases hin : ∃ r, reading = some r ∧ (s.crusher u).posLow ≤ r.toNat ∧ r.toNat ≤ (s.crusher u).posHigh
    · obtain ⟨r, rfl, hlow, hhigh⟩ := hin
      have htaken := FirstTaken.judgeJog (s := s.keepPosition u r) hwait
        (State.becomeValid_first (s := s.keepPosition u r) hwait hfirst (s.gapOf u r.toNat))
      have hexec := exec_positionArrival_inside hs hp hlow hhigh
      rw [State.positionInside_unchecked (s := s.keepPosition u r) hv, State.gapOf_keepPosition,
        State.judgeBackoff_eq_self (.inl (by rw [State.isSubject, htaken.sequencer]; exact hsubject))] at hexec
      refine ⟨_, hexec, htaken.due, htaken.zeros, htaken.board, fun x hx _ _ => ⟨htaken.validity, htaken.reason, ?_⟩,
        fun hout => ?_⟩
      · cases hx
        refine htaken.standing.trans (congrArg _ ?_)
        show (s.crusher u).startTarget (s.gapOf u r.toNat) = _
        unfold State.gapOf
        split <;> rfl
      · have := hout r rfl
        omega
    · have hout : ∀ r, reading = some r → r.toNat < (s.crusher u).posLow ∨ (s.crusher u).posHigh < r.toNat := by
        intro r hr
        by_contra hno
        exact hin ⟨r, hr, by omega, by omega⟩
      have hkept := s.keepReading_rest u reading
      have htaken := FirstTaken.judgeJog (s := s.keepReading u reading) (by rw [hkept]; exact hwait)
        (State.positionOutside_first (s := s.keepReading u reading) (u := u) (by rw [hkept]; exact hwait)
          (by rw [hkept]; exact hfirst) (by rw [hkept]; exact fun h => by cases hv.symm.trans h))
      have hexec := exec_positionArrival_outside_judged hs hp hout (by
        rw [State.isSubject, htaken.sequencer, hkept]
        exact hsubject)
      refine ⟨_, hexec, htaken.due, htaken.zeros.trans (by rw [hkept]), htaken.board.trans (by rw [hkept]),
        fun r hr hlow hhigh => absurd ⟨r, hr, hlow, hhigh⟩ hin, fun _ =>
        ⟨htaken.validity, htaken.fault, htaken.reason, htaken.standing.trans (by rw [hkept]; rfl)⟩⟩
  · intro inside
    have hnot : (s.gap u).validity ≠ .valid := fun h => by cases hv.symm.trans h
    have hjog : (s.positioner u).state ≠ .jogging := by rcases hstate with h | h <;> simp [h]
    by_cases hin : inside
    · obtain ⟨r, rfl, hlow, hhigh⟩ := hin
      set recovering : State → State := fun a => a.modGap u fun g =>
        { g with validity := .recovering, recovery := some ⟨⟨s.now, 1000⟩, s.gapOf u r.toNat⟩ } with hrecovering
      have hgap' : (recovering (s.keepPosition u r)).gap u =
          { s.gap u with validity := .recovering, recovery := some ⟨⟨s.now, 1000⟩, s.gapOf u r.toNat⟩ } :=
        (s.keepPosition u r).gap_modGap u _
      set t := (recovering (s.keepPosition u r)).firstWritten u with ht
      have hinside : (s.keepPosition u r).positionInside u r.toNat = t :=
        (State.positionInside_notValid (s := s.keepPosition u r) hv).trans
          (State.takeFirstReading_still (s := recovering (s.keepPosition u r)) (by rw [hgap']; exact hfirst) hstate)
      have hfound : t.gap u = { s.gap u with
          validity := .recovering, recovery := some ⟨⟨s.now, 1000⟩, s.gapOf u r.toNat⟩, firstReadingDue := false } := by
        rw [ht, State.firstWritten, State.modStation_gap_read, State.gap_modGap, hgap']
      have hstanding : (t.station (crusherOf u)).standing = Standing.start (s.crusher u).gapMax := by
        rw [ht, State.firstWritten, State.station_modStation, hgap']
        show Standing.start ((s.crusher u).startTarget (s.gap u).gap) = _
        rw [hgap]
        rfl
      refine ⟨t, ?_, rfl, ?_, by rw [hfound], hstanding, fun _ => ⟨by rw [hfound], fun x hx => ?_, rfl⟩,
        fun h => absurd ⟨r, rfl, hlow, hhigh⟩ h⟩
      · rw [exec_positionArrival_inside hs hp hlow hhigh, hinside, State.judgeJog_eq_self (s := t) (.inl hjog),
          State.judgeBackoff_eq_self (s := t) (.inl hsubject)]
      · exact (State.othersKept_modGap (s.keepPosition u r) u _).trans
          ((State.othersKept_modGap _ u _).trans (State.othersKept_modStation _ (crusherOf u) _))
      · cases hx
        rw [hfound]
        rfl
    · have hout : ∀ r, reading = some r → r.toNat < (s.crusher u).posLow ∨ (s.crusher u).posHigh < r.toNat := by
        intro r hr
        by_contra hno
        exact hin ⟨r, hr, by omega, by omega⟩
      have hkept := s.keepReading_rest u reading
      set k := s.keepReading u reading with hk
      have hkgap : k.gap u = s.gap u := by rw [hkept]; rfl
      have hkpos : k.positioner u = s.positioner u := by rw [hkept]; rfl
      have hlost : (k.modGap u GapMeasurement.lost).gap u = (s.gap u).lost := by rw [k.gap_lost, hkgap]
      have houtside := State.positionOutside_first_still (s := k) (u := u) (by rw [hkgap]; exact hfirst)
        (by rw [hkgap]; exact hnot) (by rw [hkpos]; exact hheld) (by rw [hkpos]; exact hstate)
      set t := k.positionOutside u with ht
      have hfound : t.gap u = { (s.gap u).lost with firstReadingDue := false } := by
        rw [houtside]
        show ((((k.modGap u GapMeasurement.lost).firstWritten u).modStation (crusherOf u) fun r =>
          { r with lastAccepting := false })).gap u = _
        rw [State.modStation_gap_read, State.firstWritten, State.modStation_gap_read, State.gap_modGap, hlost]
      have hrest : t = { s with
          crushers := t.crushers, inputs := t.inputs, gaps := t.gaps, conditions := t.conditions } := by
        rw [houtside, State.firstWritten, hkept]
        rfl
      have hjudged : t.judgeJog u = t := by
        refine State.judgeJog_eq_self (.inl ?_)
        rw [hrest]
        exact hjog
      refine ⟨t, ?_, hrest, ?_, by rw [hfound], ?_, fun h => absurd h hin, fun _ => ⟨by rw [hfound]; rfl, by rw [hfound]; rfl, ?_⟩⟩
      · have hexec := exec_positionArrival_outside_judged hs hp hout (by
          rw [← hk, ← ht, hjudged, hrest]
          exact hsubject)
        rw [hexec, ← hk, ← ht, hjudged]
      · have hother : s.othersKept k u := by
          rw [hkept]
          exact State.othersKept.refl s u
        rw [houtside]
        show s.othersKept (((k.modGap u GapMeasurement.lost).firstWritten u).modStation (crusherOf u) fun r =>
          { r with lastAccepting := false }) u
        exact hother.trans ((State.othersKept_modGap k u _).trans ((State.othersKept_modGap _ u _).trans
          ((State.othersKept_modStation _ (crusherOf u) _).trans (State.othersKept_modStation _ (crusherOf u) _))))
      · rw [houtside]
        show ((((k.modGap u GapMeasurement.lost).firstWritten u).modStation (crusherOf u) fun r =>
          { r with lastAccepting := false }).station (crusherOf u)).standing = _
        rw [State.station_modStation, State.firstWritten, State.station_modStation, hlost, hkept]
        rfl
      · rw [houtside, hkept]
        rfl

end Sys2Proof.Machine
end

section
/-! PROOFS. The relief detector, a relief onset and its end, and the trip latches (R133 to R138, R142 to R144). -/

namespace Sys2Proof.Machine

variable {a b s t : State} {u : Train}

/-! ### Trip latches (R143, R144) -/

theorem State.judgeTrip_of_set (h : (s.supervisor u).untripped = false) : s.judgeTrip u = s.addHold u .trip :=
  if_neg (by simp [h])

theorem Supervisor.untripped_putLatch_set (v : Supervisor) (which : TripLatch) :
    (v.putLatch which .set).untripped = false := by
  cases which <;> simp [Supervisor.putLatch, Supervisor.untripped]

/-- A latch becomes SET: the latch, its report, and TRIP (R144). -/
theorem State.setLatch_eq (s : State) (u : Train) (which : TripLatch) (d : Option Detail) :
    s.setLatch u which d =
      ((s.modSupervisor u fun v => v.putLatch which .set).onset which.code (.crusher u) d).addHold u .trip := by
  refine State.judgeTrip_of_set ?_
  simp [State.onset, Supervisor.untripped_putLatch_set]

/-- What setting a latch does. -/
structure LatchSets (u : Train) (which : TripLatch) (d : Option Detail) (a b : State) : Prop where
  rest : b = { a with governors := b.governors, supervisors := b.supervisors, conditions := b.conditions }
  others : a.othersKept b u
  supervisor : b.supervisor u = (a.supervisor u).putLatch which .set
  governor : b.governor u = (a.governor u).hold .trip
  conditions : b.conditions = a.conditions.onset which.code (.crusher u) d a.stamp

theorem State.setLatch_sets (s : State) (u : Train) (which : TripLatch) (d : Option Detail) :
    LatchSets u which d s (s.setLatch u which d) := by
  rw [State.setLatch_eq]
  refine ⟨rfl, ?_, ?_, ?_, rfl⟩
  · exact (s.othersKept_modSupervisor u fun v => v.putLatch which .set).trans
      (State.othersKept_modGovernor (s.modSupervisor u _) u fun g => g.hold .trip)
  · exact s.supervisor_modSupervisor u fun v => v.putLatch which .set
  · exact s.governor_modGovernor u fun g => g.hold .trip

/-- A latch takes the end of its cause (R143): CLEAR and SET stay, SET_ACKNOWLEDGED clears. -/
def Latch.causeEnded (l : Latch) : Latch := if l = .setAcknowledged then .clear else l

theorem State.endLatchCause_clear {which : TripLatch} (h : (s.supervisor u).latch which = .clear) :
    s.endLatchCause u which = s := by
  simp only [State.endLatchCause, h]

theorem State.endLatchCause_set {which : TripLatch} (h : (s.supervisor u).latch which = .set) :
    s.endLatchCause u which = s.causeEnd which.code (.crusher u) := by
  simp only [State.endLatchCause, h]

theorem State.endLatchCause_setAcknowledged {which : TripLatch}
    (h : (s.supervisor u).latch which = .setAcknowledged) :
    s.endLatchCause u which =
      ((s.modSupervisor u fun v => v.putLatch which .clear).causeEnd which.code (.crusher u)).judgeTrip u := by
  simp only [State.endLatchCause, h]

theorem State.judgeTrip_rest (s : State) (u : Train) :
    s.judgeTrip u = { s with governors := (s.judgeTrip u).governors } := by
  unfold State.judgeTrip
  split <;> rfl

/-- What following the latches leaves of a train's feeder: every hold but TRIP. -/
theorem State.judgeTrip_holds (s : State) (u : Train) {c : Hold} (hc : c ≠ .trip) :
    ((s.judgeTrip u).governor u).holds.has c = (s.governor u).holds.has c := by
  unfold State.judgeTrip
  split
  · simp [State.removeHold, ((s.governor u).release_keeps .trip).1, hc]
  · simp [State.addHold, ((s.governor u).hold_keeps .trip).1, hc]

theorem State.judgeTrip_trip (s : State) (u : Train) :
    ((s.judgeTrip u).governor u).holds.trip = !(s.supervisor u).untripped := by
  unfold State.judgeTrip
  cases h : (s.supervisor u).untripped
  · simpa [State.addHold, Holds.has] using (s.governor u).hold_has .trip
  · simpa [State.removeHold, Holds.has] using (s.governor u).release_has .trip

theorem State.judgeTrip_others (s : State) {v : Train} (hv : v ≠ u) :
    (s.judgeTrip u).governor v = s.governor v := by
  unfold State.judgeTrip
  split <;> exact State.governor_modGovernor_of_ne _ hv _

/-- What the end of a latch's cause leaves, and what it does. -/
structure LatchEnds (u : Train) (which : TripLatch) (a b : State) : Prop where
  rest : b = { a with governors := b.governors, supervisors := b.supervisors, conditions := b.conditions }
  others : a.othersKept b u
  supervisor : b.supervisor u = (a.supervisor u).putLatch which ((a.supervisor u).latch which).causeEnded
  conditions : b.conditions = if (a.supervisor u).latch which = .clear then a.conditions
    else a.conditions.causeEnded which.code (.crusher u)
  holds : ∀ c, c ≠ .trip → (b.governor u).holds.has c = (a.governor u).holds.has c
  trip : (b.governor u).holds.trip =
    if (a.supervisor u).latch which = .setAcknowledged then !(b.supervisor u).untripped
    else (a.governor u).holds.trip

theorem Supervisor.putLatch_latch (v : Supervisor) (which : TripLatch) : v.putLatch which (v.latch which) = v := by
  cases which <;> rfl

theorem State.endLatchCause_ends (s : State) (u : Train) (which : TripLatch) :
    LatchEnds u which s (s.endLatchCause u which) := by
  cases h : (s.supervisor u).latch which with
  | clear =>
    rw [State.endLatchCause_clear h]
    have hsame := (s.supervisor u).putLatch_latch which
    rw [h] at hsame
    exact ⟨rfl, State.othersKept.refl s u, by simpa [h, Latch.causeEnded] using hsame.symm,
      by simp [h], fun _ _ => rfl, by simp [h]⟩
  | set =>
    rw [State.endLatchCause_set h]
    refine ⟨rfl, State.othersKept.refl s u, ?_, by simp [h], fun _ _ => rfl, by simp [h]; rfl⟩
    have := (s.supervisor u).putLatch_latch which
    rw [h] at this
    simpa [h, Latch.causeEnded, State.causeEnd] using this.symm
  | setAcknowledged =>
    rw [State.endLatchCause_setAcknowledged h]
    set a := (s.modSupervisor u fun v => v.putLatch which .clear).causeEnd which.code (.crusher u) with ha
    have hrest := a.judgeTrip_rest u
    have hsupervisor : (a.judgeTrip u).supervisor u = (s.supervisor u).putLatch which .clear := by
      rw [hrest]
      exact s.supervisor_modSupervisor u fun v => v.putLatch which .clear
    refine ⟨by rw [hrest, ha]; rfl, ?_, ?_, ?_, fun c hc => ?_, ?_⟩
    · intro v hv
      obtain ⟨h1, h2, h3, h4, h5, h6, h7⟩ := s.othersKept_modSupervisor u (fun v => v.putLatch which .clear) v hv
      rw [hrest]
      exact ⟨h1, h2, h3, h4, h5, (State.judgeTrip_others a hv).trans h6, h7⟩
    · rw [hsupervisor, h]
      rfl
    · rw [hrest, h]
      rfl
    · rw [State.judgeTrip_holds a u hc]
      rfl
    · rw [State.judgeTrip_trip, if_pos h, hrest]
      rfl

/-! ### A reason that may end a jog (R83) -/

/-- A Positioner under a reason, its jog ended where the reason ends it (R83). -/
def Positioner.barred (now : Nat) (r : Reason) (p : Positioner) : Positioner :=
  if p.reasons.has r = false ∧ p.state = .jogging ∧ r.endsJog = true then
    { (p.under now r).dropJog now with state := .suspended }
  else p.under now r

theorem Positioner.under_nonempty {now : Nat} {r : Reason} {p : Positioner} :
    (p.under now r).reasons.isEmpty = false := by
  rw [← Bool.not_eq_true, Reasons.isEmpty_iff]
  intro hno
  simpa [Positioner.under_has] using hno r

/-- A reason added is a change of the Positioner alone: under the reason itself no jog that ends resumes. -/
theorem State.addReason_barred (s : State) (u : Train) (r : Reason) :
    s.addReason u r = s.modPositioner u (Positioner.barred s.now r) := by
  by_cases h : (s.positioner u).reasons.has r = false ∧ (s.positioner u).state = .jogging ∧ r.endsJog = true
  · obtain ⟨hr, hjog, hends⟩ := h
    have hunder : (s.modPositioner u (Positioner.under s.now r)).endJog u =
        s.modPositioner u fun p => { (p.under s.now r).dropJog s.now with state := .suspended } := by
      rw [State.endJog_eq, State.modPositioner_modPositioner]
      · simp only [Positioner.dropJog_eq]
        rfl
      · simpa using Positioner.under_nonempty
    rw [State.addReason]
    dsimp only
    rw [if_neg (by simp [hr]), if_pos (by simp [hjog, hends])]
    refine Eq.trans ?_ (hunder.trans ?_)
    · simp only [State.modPositioner, Positioner.under, hr]
      rfl
    · simp only [State.modPositioner, Positioner.barred, hr, hjog, hends]
      rfl
  · rw [State.modPositioner]
    have hbarred : (s.positioner u).barred s.now r = (s.positioner u).under s.now r := if_neg h
    rw [hbarred]
    by_cases hr : (s.positioner u).reasons.has r = true
    · rw [State.addReason]
      dsimp only
      rw [if_pos hr, Positioner.under, if_pos hr]
      exact (congrArg (fun q => { s with positioners := q }) (s.positioners.set_get u)).symm
    · have hno : (s.positioner u).state ≠ .jogging ∨ r.endsJog = false := by
        by_contra hyes
        simp only [not_or, not_not, Bool.not_eq_false] at hyes
        exact h ⟨by simpa using hr, hyes.1, hyes.2⟩
      exact State.addReason_eq hno

theorem Positioner.barred_has (now : Nat) (r : Reason) (p : Positioner) : (p.barred now r).reasons.has r = true := by
  unfold Positioner.barred
  split
  · simpa using Positioner.under_has (now := now) (r := r) (p := p)
  · exact Positioner.under_has

/-- The drive is off under a reason that suspends, or ends the jog. -/
theorem Positioner.barred_drive {now : Nat} {r : Reason} {p : Positioner} (hr : p.reasons.has r = false)
    (hends : r.endsJog = true)
    (h : p.drive = none ∨ p.state = .jogging ∨ p.state = .driving ∧ p.reasons.isEmpty = true) :
    (p.barred now r).drive = none := by
  unfold Positioner.barred
  split
  · rw [Positioner.dropJog_eq]
  · next hno =>
    rw [Positioner.under, if_neg (by simp [hr])]
    rcases h with h | h | ⟨h, hempty⟩
    · split
      · unfold Positioner.suspend
        split <;> simp [h, Positioner.discardPending]
      · exact h
    · exact absurd ⟨hr, h, hends⟩ hno
    · rw [if_pos hempty]
      simp [Positioner.suspend, h]

/-! ### The abort of a touch (R103, R107) -/

/-- A Positioner whose lent drive is returned (R90). -/
def Positioner.returned (now : Nat) (p : Positioner) : Positioner :=
  { (p.driveOff now).discardPending with state := .suspended }

theorem Positioner.returned_eq (now : Nat) (p : Positioner) :
    p.returned now =
      { p with
        state := .suspended
        drive := none
        pendingDrive := none
        lastEnd := match p.drive with | none => p.lastEnd | some d => ⟨now, some d.direction⟩
        valve := match p.drive with | none => p.valve | some _ => ⟨0, 0⟩ } := by
  unfold Positioner.returned Positioner.driveOff
  cases h : p.drive <;> simp [Positioner.discardPending, h]

/-- The outcome of a touch that leaves the zero as it was (R107). -/
def State.abortOutcome (s : State) (u : Train) (r : TouchResult) : TouchOutcome :=
  ⟨r, (s.zero u).zeroNow, (s.zero u).zeroNow, none, (s.gap u).wear, s.touchDuration, s.stamp⟩

/-- What the abort of a touch does. -/
structure TouchAborts (u : Train) (r : TouchResult) (a b : State) : Prop where
  rest : b = { a with
    positioners := b.positioners, sequencer := Sequencer.atStart, zeros := b.zeros, governors := b.governors,
    conditions := b.conditions, store := b.store }
  others : a.othersKept b u
  positioner : b.positioner u = (a.positioner u).returned a.now
  zero : b.zero u = { a.zero u with outcome := some (a.abortOutcome u r), aborted := true }
  governor : b.governor u = (a.governor u).release .calibration
  conditions : b.conditions =
    (a.conditions.onset .zeroAborted (.crusher u) (some (.result r)) a.stamp).causeEnded .zeroAborted (.crusher u)
  marked : b.store.dirty.zero = true ∨ b.store.writing.map WriteJob.sec = some .zero

theorem State.endTouch_eq (s : State) (u : Train) :
    s.endTouch u = { s with
      positioners := s.positioners.set u ((s.positioner u).returned s.now)
      sequencer := Sequencer.atStart
      governors := s.governors.set u ((s.governor u).release .calibration) } := rfl

/-- The records of an abort, before the touch ends and the section is marked (R107). -/
def State.abortWritten (s : State) (u : Train) (r : TouchResult) : State :=
  { s with
    sequencer := { s.sequencer with dwellTimer := none }
    zeros := s.zeros.set u { s.zero u with outcome := some (s.abortOutcome u r), aborted := true }
    conditions := (s.conditions.onset .zeroAborted (.crusher u) (some (.result r)) s.stamp).causeEnded .zeroAborted
      (.crusher u) }

theorem State.abortTouch_eq (s : State) (u : Train) (r : TouchResult) :
    s.abortTouch u r = ((s.abortWritten u r).endTouch u).mark .zero := rfl

theorem State.abortTouch_aborts (s : State) (u : Train) (r : TouchResult) : TouchAborts u r s (s.abortTouch u r) := by
  have hmarks := ((s.abortWritten u r).endTouch u).mark_marks .zero
  rw [State.abortTouch_eq]
  rw [State.mark_eq_withStore] at hmarks ⊢
  generalize (((s.abortWritten u r).endTouch u).mark .zero).store = store at *
  rw [State.endTouch_eq] at hmarks ⊢
  refine
    { rest := rfl
      others := fun v hv => ?_
      positioner := Quad.get_set_self ..
      zero := Quad.get_set_self ..
      governor := Quad.get_set_self ..
      conditions := rfl
      marked := hmarks.imp DirtySet.zero_of_put id }
  obtain ⟨-, -, -, -, hzero, -, -⟩ := s.othersKept_modZero u
    (fun z => { z with outcome := some (s.abortOutcome u r), aborted := true }) v hv
  obtain ⟨-, -, -, hpositioner, -, -, -⟩ := s.othersKept_modPositioner u (Positioner.returned s.now) v hv
  obtain ⟨-, -, -, -, -, hgovernor, -⟩ := s.othersKept_modGovernor u (fun g => g.release .calibration) v hv
  exact ⟨rfl, rfl, rfl, hpositioner, hzero, hgovernor, rfl⟩

end Sys2Proof.Machine
end

section
/-! PROOFS. A relief onset, the clearing, and a power trip (R133 to R138, R142). -/

namespace Sys2Proof.Machine

variable {a b s t : State} {u : Train}

/-! ### Power trips (R142) -/

theorem State.judgePowerTrip_begins {power : Nat} (hc : (s.supervisor u).tripCause = false)
    (htrip : (s.crusher u).tripLevel ≤ power) (hresume : (s.crusher u).resumeLevel < power) :
    s.judgePowerTrip u power =
      (s.modSupervisor u fun v => { v with tripCause := true }).setLatch u .powerTrip (some (.power power)) := by
  have hno : ¬power ≤ (s.crusher u).resumeLevel := by omega
  simp [State.judgePowerTrip, hc, htrip, hno]

theorem State.judgePowerTrip_ends {power : Nat} (hc : (s.supervisor u).tripCause = true)
    (hresume : power ≤ (s.crusher u).resumeLevel) : s.judgePowerTrip u power = s.endTripCause u := by
  simp [State.judgePowerTrip, hc, hresume]

/-- What judging for overload leaves of the state: the records of the train's Supervisor and Governor, and the List. -/
theorem State.judgeOverload_rest (s : State) (u : Train) (power : Nat) :
    s.judgeOverload u power = { s with
      governors := (s.judgeOverload u power).governors
      supervisors := (s.judgeOverload u power).supervisors
      conditions := (s.judgeOverload u power).conditions } ∧ s.othersKept (s.judgeOverload u power) u := by
  have hsupervisor (f : Supervisor → Supervisor) : s.modSupervisor u f = { s with
      governors := (s.modSupervisor u f).governors
      supervisors := (s.modSupervisor u f).supervisors
      conditions := (s.modSupervisor u f).conditions } ∧ s.othersKept (s.modSupervisor u f) u :=
    ⟨rfl, s.othersKept_modSupervisor u f⟩
  cases he : (s.supervisor u).overload with
  | true =>
    rcases Nat.lt_or_ge (s.crusher u).resumeLevel power with hp | hp
    · rw [State.judgeOverload_of_resume_lt he hp]
      exact ⟨rfl, State.othersKept.refl s u⟩
    · rw [State.judgeOverload_of_le_resume he hp]
      exact ⟨rfl, (s.othersKept_modSupervisor u fun v => { v with overload := false }).trans
        (State.othersKept_modGovernor (s.modSupervisor u _) u fun g => g.release .overload)⟩
  | false =>
    rcases Nat.lt_or_ge power (s.crusher u).overloadLevel with hp | hp
    · rw [State.judgeOverload_of_lt_level he hp]
      exact hsupervisor _
    · rw [State.judgeOverload_of_level_le he hp]
      exact hsupervisor _

theorem Governor.lawful.hold {limit : Nat} {g : Governor} (h : g.lawful limit) (c : Hold) :
    (g.hold c).lawful limit := by
  refine ⟨fun _ => h.hold_stops c, ?_⟩
  rw [(g.hold_keeps c).2.2.1]
  exact h.2

theorem Governor.lawful.floorTrim {g : Governor} {p : FeederParams} (h : g.lawful p.trimLimit) :
    (g.floorTrim p).lawful p.trimLimit :=
  ⟨h.1, Int.le_refl _, by show -(p.trimLimit : Int) ≤ p.trimLimit; omega⟩

theorem State.governor_judgeOverload_of {power : Nat} (he : (s.supervisor u).overload = false) :
    (s.judgeOverload u power).governor u = s.governor u ∧ (s.judgeOverload u power).conditions = s.conditions ∧
      ((s.judgeOverload u power).supervisor u).powerLatch = (s.supervisor u).powerLatch ∧
      ((s.judgeOverload u power).supervisor u).reliefLatch = (s.supervisor u).reliefLatch := by
  rcases Nat.lt_or_ge power (s.crusher u).overloadLevel with hp | hp
  · rw [State.judgeOverload_of_lt_level he hp, State.supervisor_modSupervisor]
    exact ⟨rfl, rfl, rfl, rfl⟩
  · rw [State.judgeOverload_of_level_le he hp, State.supervisor_modSupervisor]
    exact ⟨rfl, rfl, rfl, rfl⟩

/-- A reading above RESUME_LEVEL leaves an overload episode as it is, and the Governor and the List with it. -/
theorem State.judgeOverload_above {power : Nat} (hp : (s.crusher u).resumeLevel < power) :
    (s.judgeOverload u power).governor u = s.governor u ∧ (s.judgeOverload u power).conditions = s.conditions := by
  cases he : (s.supervisor u).overload with
  | true => rw [State.judgeOverload_of_resume_lt he hp]; exact ⟨rfl, rfl⟩
  | false => exact ⟨(State.governor_judgeOverload_of he).1, (State.governor_judgeOverload_of he).2.1⟩

/-- What a power arrival does to the state before it judges the load of a touch. -/
theorem exec_powerArrival_judged {loop : LoopReading} (hs : s.powered = true) (hp : s.present u = true)
    (htouch : s.isSubject u = false ∨ s.sequencer.state ≠ .approach)
    (hj : (s.withPower u (analogOf loop (s.crusher u).powerSpan)).judgeOverload u
      (analogOf loop (s.crusher u).powerSpan).scaled = a)
    (hb : a.judgePowerTrip u (analogOf loop (s.crusher u).powerSpan).scaled = b)
    (hsequencer : b.sequencer = s.sequencer) : exec (.powerArrival u loop) s = .next b := by
  rw [exec_powerArrival_present hs hp rfl, hj, hb, State.judgeLoad_eq_self]
  rw [State.isSubject, hsequencer]
  exact htouch

/-- Settles O36: the arrival is the judging for overload, then the trip's begin or the end of its cause. -/
theorem powerTripLatches : Obligations.PowerTripLatches := by
  intro u loop s hs hp htouch p
  have harrival {a b : State} := exec_powerArrival_judged (a := a) (b := b) (loop := loop) hs hp htouch
  obtain ⟨hrest, hothers⟩ := (s.withPower u (analogOf loop (s.crusher u).powerSpan)).judgeOverload_rest u p
  obtain ⟨-, hsequencer, hparams, hcause, -⟩ :=
    (s.withPower u (analogOf loop (s.crusher u).powerSpan)).judgeOverload_keeps u p
  have habove := State.judgeOverload_above (s := s.withPower u (analogOf loop (s.crusher u).powerSpan)) (u := u) (power := p)
  have hquiet := State.governor_judgeOverload_of
    (s := s.withPower u (analogOf loop (s.crusher u).powerSpan)) (u := u) (power := p)
  generalize hj : (s.withPower u (analogOf loop (s.crusher u).powerSpan)).judgeOverload u p = j at *
  have hcrusher : j.crusher u = s.crusher u := by rw [State.crusher, hparams]; rfl
  refine ⟨fun hno htrip hresume hlaw => ?_, fun hyes hresume hover => ?_⟩
  · obtain ⟨hgovernor, hconditions⟩ := habove hresume
    have hbegins := State.judgePowerTrip_begins (hcause.trans hno) (hcrusher ▸ htrip) (hcrusher ▸ hresume)
    have hkother := j.othersKept_modSupervisor u fun v => { v with tripCause := true }
    have hksupervisor := j.supervisor_modSupervisor u fun v => { v with tripCause := true }
    obtain ⟨brest, bothers, bsupervisor, bgovernor, bconditions⟩ :=
      (j.modSupervisor u fun v => { v with tripCause := true }).setLatch_sets u .powerTrip (some (.power p))
    generalize (j.modSupervisor u fun v => { v with tripCause := true }).setLatch u .powerTrip (some (.power p)) = b at *
    have hbgovernor : b.governor u = (s.governor u).hold .trip := bgovernor.trans (congrArg (Governor.hold · .trip) hgovernor)
    refine ⟨b, harrival rfl hbegins (by rw [brest]; exact hsequencer), (hothers.trans hkother).trans bothers, ?_, ?_, ?_, ?_,
      ?_, ?_⟩
    · rw [brest, hrest]
      rfl
    · rw [bsupervisor]
      rfl
    · rw [bsupervisor, hksupervisor]
      rfl
    · rw [hbgovernor]
      exact Governor.hold_has _ .trip
    · rw [hbgovernor]
      exact (hlaw.hold_stops .trip).1
    · rw [bconditions]
      show j.conditions.onset _ _ _ j.stamp = _
      rw [hconditions, hrest]
      rfl
  · obtain ⟨hgovernor, hconditions, hpower, hrelief⟩ := hquiet hover
    have hends := State.judgePowerTrip_ends (hcause.trans hyes) (hcrusher ▸ hresume)
    have hkother := j.othersKept_modSupervisor u fun v => { v with tripCause := false }
    have hksupervisor := j.supervisor_modSupervisor u fun v => { v with tripCause := false }
    obtain ⟨brest, bothers, bsupervisor, bconditions, bholds, btrip⟩ :=
      (j.modSupervisor u fun v => { v with tripCause := false }).endLatchCause_ends u .powerTrip
    change j.judgePowerTrip u p =
      (j.modSupervisor u fun v => { v with tripCause := false }).endLatchCause u .powerTrip at hends
    generalize (j.modSupervisor u fun v => { v with tripCause := false }).endLatchCause u .powerTrip = b at *
    have hlatch : ((j.modSupervisor u fun v => { v with tripCause := false }).supervisor u).latch .powerTrip =
        (s.supervisor u).powerLatch := by rw [hksupervisor]; exact hpower
    rw [hlatch] at bsupervisor bconditions btrip
    rw [hksupervisor] at bsupervisor
    refine ⟨b, harrival rfl hends (by rw [brest]; exact hsequencer), (hothers.trans hkother).trans bothers, ?_, ?_, ?_,
      fun hack hclear => ?_, ?_⟩
    · rw [brest, hrest]
      rfl
    · rw [bsupervisor]
      rfl
    · rw [bsupervisor]
      rfl
    · have hother : (j.supervisor u).reliefLatch = .clear := hrelief.trans hclear
      rw [btrip, if_pos hack, bsupervisor, hack]
      simp [Supervisor.untripped, Supervisor.putLatch, Latch.causeEnded, hother]
    · rw [bconditions]
      show (if _ then j.conditions else j.conditions.causeEnded _ _) = _
      rw [hconditions]
      rfl

theorem State.accepting_of_relief (h : (s.supervisor u).relief.accepts = false) : s.accepting (crusherOf u) = false := by
  simp [State.accepting, crusherOf, h]

/-! ### A relief onset (R135, R136) -/

/-- A relief onset is one for repeated relief (R136). -/
def State.reliefTrips (s : State) (u : Train) : Prop :=
  (s.crusher u).reliefCount ≤
      onsetsWithin (enterOnset (s.supervisor u).history s.time.seconds) s.time.seconds (s.crusher u).reliefWindow ∨
    (s.supervisor u).reliefLatch ≠ .clear

theorem enterOnset_eq (history : List Nat) (second : Nat) :
    enterOnset history second = (if history.length < 4 then history else history.drop 1) ++ [second] := rfl

theorem onsetsWithin_eq (history : List Nat) (second window : Nat) :
    onsetsWithin history second window =
      history.countP fun x => (second + 4294967296 - x) % 4294967296 ≤ window := List.countP_eq_length_filter.symm

/-- What a relief onset does before a touch is aborted by it: the record of the onset, the repeated relief judged, the
feeder held with its trim at the floor, and the Positioner under RELIEF. -/
structure ReliefStopped (u : Train) (a b : State) : Prop where
  rest : b = { a with
    crushers := b.crushers, positioners := b.positioners, governors := b.governors,
    supervisors := b.supervisors, conditions := b.conditions }
  others : a.othersKept b u
  station : b.station (crusherOf u) = { a.station (crusherOf u) with lastAccepting := false }
  accepting : b.accepting (crusherOf u) = false
  positioner : b.positioner u = (a.positioner u).barred a.now .relief
  supervisor : b.supervisor u = { a.supervisor u with
    detectorActive := true, relief := .relieving, clearingTimer := none
    history := enterOnset (a.supervisor u).history a.time.seconds
    reliefLatch := (b.supervisor u).reliefLatch }
  trips : a.reliefTrips u →
    (b.supervisor u).reliefLatch = .set ∧
      b.governor u = (((a.governor u).hold .trip).floorTrim (a.feeder u)).hold .relief ∧
      b.conditions = a.conditions.onset .repeatedRelief (.crusher u) none a.stamp
  untripped : ¬a.reliefTrips u →
    (b.supervisor u).reliefLatch = .clear ∧
      b.governor u = ((a.governor u).floorTrim (a.feeder u)).hold .relief ∧ b.conditions = a.conditions

/-- The Supervisor's record of an onset: the detector active, and RELIEVING (R133, R135). -/
def State.relieving (s : State) (u : Train) : State :=
  (s.modSupervisor u fun v => { v with detectorActive := true }).modSupervisor u fun v =>
    { v with relief := .relieving, clearingTimer := none }

/-- The state of a train stopped by a relief onset, up to the abort of a touch. -/
def State.reliefStopped (s : State) (u : Train) : State :=
  ((((s.relieving u).judgeRepeatedRelief u).floorAndHold u .relief).addReason u .relief).evaluate (crusherOf u)

/-- The detector becomes active: the train is stopped, a touch is aborted, and RELIEF is reported. -/
theorem State.setDetector_onset (h : (s.supervisor u).detectorActive = false) :
    s.setDetector u true =
      ((s.reliefStopped u).abortIfSubject u .abortedRelief).onset .relief (.crusher u) none :=
  if_neg (by simp [h])

/-- The record of the onset, with the repeated relief judged (R136). -/
theorem State.judgeRepeatedRelief_cases (s : State) (u : Train) :
    let entered := s.modSupervisor u fun v => { v with history := enterOnset v.history s.time.seconds }
    s.reliefTrips u ∧ s.judgeRepeatedRelief u = entered.setLatch u .repeatedRelief none ∨
      ¬s.reliefTrips u ∧ s.judgeRepeatedRelief u = entered := by
  intro entered
  have hentered : entered.supervisor u =
      { s.supervisor u with history := enterOnset (s.supervisor u).history s.time.seconds } :=
    State.supervisor_modSupervisor _ u _
  have hcond : ((entered.crusher u).reliefCount ≤ onsetsWithin (entered.supervisor u).history s.time.seconds
      (entered.crusher u).reliefWindow || decide ((entered.supervisor u).reliefLatch ≠ .clear)) = true ↔
      s.reliefTrips u := by
    rw [hentered, State.reliefTrips]
    simp only [Bool.or_eq_true, decide_eq_true_eq]
    rfl
  by_cases h : s.reliefTrips u
  · exact .inl ⟨h, if_pos (hcond.mpr h)⟩
  · exact .inr ⟨h, if_neg fun hc => h (hcond.mp hc)⟩

/-- The steps of a relief onset after the repeated relief is judged, on a train in RELIEVING. -/
theorem State.relieving_stops (h : (a.supervisor u).relief = .relieving) :
    ((a.floorAndHold u .relief).addReason u .relief).evaluate (crusherOf u) =
      (((a.modGovernor u fun g => (g.floorTrim (a.feeder u)).hold .relief).modPositioner u
        (Positioner.barred a.now .relief)).modStation (crusherOf u) fun r => { r with lastAccepting := false }) := by
  have hno : ((a.modGovernor u fun g => (g.floorTrim (a.feeder u)).hold .relief).modPositioner u
      (Positioner.barred a.now .relief)).accepting (crusherOf u) = false := by
    refine State.accepting_of_relief ?_
    rw [State.modPositioner_supervisor_read, State.modGovernor_supervisor_read, h]
    rfl
  rw [State.floorAndHold_eq, State.addReason_barred]
  exact (State.evaluate_eq (.inl hno)).trans (by rw [hno])

/-- What the last steps of a relief onset do. -/
theorem ReliefStopped.of_entered {e : State} (he : s.othersKept e u)
    (hrest : e = { s with governors := e.governors, supervisors := e.supervisors, conditions := e.conditions })
    (hsupervisor : e.supervisor u = { s.supervisor u with
      detectorActive := true, relief := .relieving, clearingTimer := none
      history := enterOnset (s.supervisor u).history s.time.seconds
      reliefLatch := (e.supervisor u).reliefLatch })
    (htrips : s.reliefTrips u → (e.supervisor u).reliefLatch = .set ∧ e.governor u = (s.governor u).hold .trip ∧
      e.conditions = s.conditions.onset .repeatedRelief (.crusher u) none s.stamp)
    (hno : ¬s.reliefTrips u → (e.supervisor u).reliefLatch = .clear ∧ e.governor u = s.governor u ∧
      e.conditions = s.conditions) :
    ReliefStopped u s (((e.floorAndHold u .relief).addReason u .relief).evaluate (crusherOf u)) := by
  have hrelief : (e.supervisor u).relief = .relieving := by rw [hsupervisor]
  have hfeeder : e.feeder u = s.feeder u := by rw [hrest]; rfl
  have hnow : e.now = s.now := by rw [hrest]; rfl
  have hpositioner : e.positioner u = s.positioner u := by rw [hrest]; rfl
  have hstation : e.station (crusherOf u) = s.station (crusherOf u) := by rw [hrest]; rfl
  rw [State.relieving_stops hrelief]
  refine
    { rest := by rw [hrest]; rfl
      others := ((he.trans (e.othersKept_modGovernor u _)).trans (State.othersKept_modPositioner _ u _)).trans
        (State.othersKept_modStation _ (crusherOf u) _)
      station := (State.station_modStation ..).trans (by rw [← hstation]; rfl)
      accepting := State.accepting_of_relief ?_
      positioner := ?_
      supervisor := hsupervisor
      trips := fun ht => ?_
      untripped := fun ht => ?_ }
  · simp [hrelief, ReliefState.accepts]
  · rw [State.modStation_positioner_read, State.positioner_modPositioner, hnow]
    exact congrArg (Positioner.barred _ _) hpositioner
  · obtain ⟨h1, h2, h3⟩ := htrips ht
    refine ⟨h1, ?_, h3⟩
    rw [State.modStation_governor_read, State.modPositioner_governor_read, State.governor_modGovernor, h2, hfeeder]
  · obtain ⟨h1, h2, h3⟩ := hno ht
    refine ⟨h1, ?_, h3⟩
    rw [State.modStation_governor_read, State.modPositioner_governor_read, State.governor_modGovernor, h2, hfeeder]

theorem State.reliefStopped_stops (s : State) (u : Train) : ReliefStopped u s (s.reliefStopped u) := by
  have hwother : s.othersKept (s.relieving u) u :=
    (s.othersKept_modSupervisor u _).trans (State.othersKept_modSupervisor _ u _)
  have hwsup : (s.relieving u).supervisor u =
      { s.supervisor u with detectorActive := true, relief := .relieving, clearingTimer := none } := by
    rw [State.relieving, State.supervisor_modSupervisor, State.supervisor_modSupervisor]
  have hwrest : s.relieving u = { s with supervisors := (s.relieving u).supervisors } := rfl
  rw [State.reliefStopped]
  generalize s.relieving u = w at *
  have htrips : w.reliefTrips u ↔ s.reliefTrips u := by
    rw [State.reliefTrips, hwsup, hwrest]
    rfl
  have hcases := w.judgeRepeatedRelief_cases u
  dsimp only at hcases
  rw [htrips] at hcases
  have heother := w.othersKept_modSupervisor u fun v => { v with history := enterOnset v.history w.time.seconds }
  have hesup := w.supervisor_modSupervisor u fun v => { v with history := enterOnset v.history w.time.seconds }
  have herest : (w.modSupervisor u fun v => { v with history := enterOnset v.history w.time.seconds }) =
      { w with supervisors := (w.modSupervisor u fun v =>
        { v with history := enterOnset v.history w.time.seconds }).supervisors } := rfl
  generalize (w.modSupervisor u fun v => { v with history := enterOnset v.history w.time.seconds }) = e at *
  have htime : w.time = s.time := by rw [hwrest]
  rw [hwsup, htime] at hesup
  dsimp only at hesup
  rcases hcases with ⟨ht, hj⟩ | ⟨ht, hj⟩
  · obtain ⟨jrest, jothers, jsupervisor, jgovernor, jconditions⟩ := e.setLatch_sets u .repeatedRelief none
    rw [hj]
    generalize e.setLatch u .repeatedRelief none = j at *
    refine ReliefStopped.of_entered ((hwother.trans heother).trans jothers) ?_ ?_ (fun _ => ⟨?_, ?_, ?_⟩) (absurd ht)
    · rw [jrest, herest, hwrest]
    · rw [jsupervisor, hesup]
      rfl
    · rw [jsupervisor]
      rfl
    · rw [jgovernor, herest, hwrest]
      rfl
    · rw [jconditions, herest, hwrest]
      rfl
  · have hclear : (s.supervisor u).reliefLatch = .clear := by
      by_contra hne
      exact ht (.inr hne)
    rw [hj]
    refine ReliefStopped.of_entered (hwother.trans heother) ?_ ?_ (fun h => absurd h ht) fun _ => ⟨?_, ?_, ?_⟩
    · rw [herest, hwrest]
    · rw [hesup]
    · rw [hesup]
      exact hclear
    · rw [herest, hwrest]
      rfl
    · rw [herest, hwrest]

end Sys2Proof.Machine
end

section
/-! PROOFS. The relief detector at pressure arrivals and at the relief switch, and the clearing (R133 to R138). -/

namespace Sys2Proof.Machine

variable {a b s t : State} {u : Train}

/-- The state with a pressure reading kept (R50). -/
def State.keepPressure (s : State) (u : Train) (x : Analog) : State :=
  s.withInputs { s.inputs with pressure := s.inputs.pressure.set u (some x) }

/-- A pressure arrival of a present train is judged by the Supervisor, then by the Sequencer. -/
theorem exec_pressureArrival_present {loop : LoopReading} (hs : s.powered = true) (hp : s.present u = true)
    (hb : (s.keepPressure u (analogOf loop (s.crusher u).pressureSpan)).judgePressure u
      (analogOf loop (s.crusher u).pressureSpan).scaled = b) :
    exec (.pressureArrival u loop) s = .next (b.judgeContact u (analogOf loop (s.crusher u).pressureSpan).scaled) := by
  subst hb
  rw [exec_pressureArrival, State.whenPowered_powered hs]
  exact congrArg _ (if_pos hp)

theorem State.judgeContact_eq_self (h : s.isSubject u = false) (p : Nat) : s.judgeContact u p = s :=
  if_pos (by simp [h])

/-! ### The detector (R133, R134) -/

theorem State.judgePressure_analog (h : (s.crusher u).reliefSource = .analog) (p : Nat) :
    s.judgePressure u p = s.setDetector u (detectorAnalog (s.crusher u) (s.supervisor u).detectorActive p) := by
  unfold State.judgePressure
  rw [h]

theorem State.judgePressure_switch (h : (s.crusher u).reliefSource = .switch) (p : Nat) :
    s.judgePressure u p = s.judgeSwitch u := by
  unfold State.judgePressure
  rw [h]

theorem State.judgeSwitch_level {level : Bool} (h : (s.inputs.reliefSwitch.get u).level = some level) :
    s.judgeSwitch u = s.setDetector u (level != (s.crusher u).switchInvert) := by
  unfold State.judgeSwitch
  rw [h]

theorem State.judgeSwitch_none (h : (s.inputs.reliefSwitch.get u).level = none) : s.judgeSwitch u = s := by
  unfold State.judgeSwitch
  rw [h]

theorem detectorAnalog_eq (p : CrusherParams) (before : Bool) (pressure : Nat) :
    detectorAnalog p before pressure =
      if before then decide (p.reliefLevel - p.reliefHyst ≤ pressure) else decide (p.reliefLevel ≤ pressure) := rfl

theorem State.setDetector_same {active : Bool} (h : (s.supervisor u).detectorActive = active) :
    s.setDetector u active = s := if_pos h

/-- The end of relief starts the clearing timer (R137). -/
theorem State.setDetector_end (h : (s.supervisor u).detectorActive = true) (hr : (s.supervisor u).relief = .relieving) :
    s.setDetector u false = s.modSupervisor u fun v =>
      { v with
        detectorActive := false
        relief := .clearing
        clearingTimer := some ⟨s.now, (s.crusher u).clearingTime * 1000⟩ } := by
  have hset {α : Type} (q : Quad α) (x y : α) : (q.set u x).set u y = q.set u y := by cases u <;> rfl
  have hrelieving : ((s.modSupervisor u fun v => { v with detectorActive := false }).supervisor u).relief = .relieving := by
    rw [State.supervisor_modSupervisor]
    exact hr
  refine (if_neg (by simp [h])).trans ((if_neg Bool.false_ne_true).trans ((if_pos hrelieving).trans ?_))
  rw [State.modSupervisor, State.supervisor_modSupervisor]
  exact congrArg (fun q => { s with supervisors := q }) (hset ..)

/-- The detector becomes active where the crusher is no touch's subject. -/
theorem State.setDetector_stops (h : (s.supervisor u).detectorActive = false) (hsub : s.isSubject u = false) :
    s.setDetector u true = (s.reliefStopped u).onset .relief (.crusher u) none := by
  rw [State.setDetector_onset h, State.abortIfSubject_of_not]
  rw [(s.reliefStopped_stops u).rest]
  exact hsub

/-- A relief onset by any event, in the words of the relief switch (R134, R135). -/
theorem ReliefStopped.relieves (h : ReliefStopped u a b) :
    (b.supervisor u).detectorActive = true ∧ (b.supervisor u).relief = .relieving ∧
      (b.governor u).holds.relief = true ∧ (b.positioner u).reasons.relief = true := by
  refine ⟨by rw [h.supervisor], by rw [h.supervisor], ?_, ?_⟩
  · by_cases ht : a.reliefTrips u
    · rw [(h.trips ht).2.1]
      exact Governor.hold_has _ .relief
    · rw [(h.untripped ht).2.1]
      exact Governor.hold_has _ .relief
  · rw [h.positioner]
    exact Positioner.barred_has _ .relief _

/-! ### The relief switch (R134) -/

/-- A relief switch change of a present train under SWITCH makes the sampled level the one judged. -/
theorem exec_digitalChange_reliefSwitch (hs : s.powered = true) (hp : s.present u = true)
    (hsource : (s.crusher u).reliefSource = .switch) (hdue : (s.inputs.reliefSwitch.get u).due = true) :
    exec (.digitalChange (.reliefSwitch u)) s =
      .next ((s.withInputs { s.inputs with
        reliefSwitch := s.inputs.reliefSwitch.set u
          ⟨(s.inputs.reliefSwitch.get u).raw, some (s.inputs.reliefSwitch.get u).raw, 0, false⟩ }).setDetector u
            ((s.inputs.reliefSwitch.get u).raw != (s.crusher u).switchInvert)) := by
  rw [exec_digitalChange, State.whenPowered_powered hs, State.digitalChange]
  refine congrArg _ ((if_pos hdue).trans ((if_pos hp).trans ?_))
  rw [State.reliefSwitchChanged]
  have hlevel : ((s.inputs.putDigital (.reliefSwitch u) (s.inputs.reliefSwitch.get u).changed).reliefSwitch.get u).level =
      some (s.inputs.reliefSwitch.get u).raw :=
    congrArg Digital.level (Quad.get_set_self ..)
  show (match (s.crusher u).reliefSource with
    | .analog => s.withInputs _
    | .switch => (s.withInputs _).judgeSwitch u) = _
  rw [hsource]
  exact State.judgeSwitch_level (s := s.withInputs
    (s.inputs.putDigital (.reliefSwitch u) (s.inputs.reliefSwitch.get u).changed)) hlevel

/-- The abort of a touch leaves a train under RELIEF as it is. -/
theorem TouchAborts.relieves {r : TouchResult} (h : TouchAborts u r a b)
    (hhold : (a.governor u).holds.relief = true) (hreason : (a.positioner u).reasons.relief = true) :
    b.supervisor u = a.supervisor u ∧ (b.governor u).holds.relief = true ∧
      (b.positioner u).reasons.relief = true := by
  refine ⟨by rw [h.rest]; rfl, ?_, ?_⟩
  · rw [h.governor]
    exact (((a.governor u).release_keeps .calibration).1 .relief).trans (by simpa [Holds.has] using hhold)
  · rw [h.positioner, Positioner.returned_eq]
    exact hreason

/-- An onset by the detector, in what O32 says of it. -/
theorem State.setDetector_relieves (h : (s.supervisor u).detectorActive = false) :
    (s.setDetector u true).inputs = s.inputs ∧ (s.setDetector u true).isSubject u = false ∧
      ((s.setDetector u true).supervisor u).detectorActive = true ∧
      ((s.setDetector u true).supervisor u).relief = .relieving ∧
      ((s.setDetector u true).governor u).holds.relief = true ∧
      ((s.setDetector u true).positioner u).reasons.relief = true := by
  have hstop := s.reliefStopped_stops u
  obtain ⟨hactive, hrelief, hhold, hreason⟩ := hstop.relieves
  have hinputs : (s.reliefStopped u).inputs = s.inputs := by rw [hstop.rest]
  rw [State.setDetector_onset h, State.abortIfSubject]
  split
  · have hab := (s.reliefStopped u).abortTouch_aborts u .abortedRelief
    obtain ⟨hsupervisor, hhold', hreason'⟩ := hab.relieves hhold hreason
    generalize (s.reliefStopped u).abortTouch u .abortedRelief = b at *
    rw [← hsupervisor] at hactive hrelief
    exact ⟨by rw [← hinputs, hab.rest]; rfl, by rw [hab.rest]; rfl, hactive, hrelief, hhold', hreason'⟩
  · next hsub => exact ⟨hinputs, by simpa [State.onset] using hsub, hactive, hrelief, hhold, hreason⟩

/-- A pressure arrival at a crusher that is no touch's subject is the judging of its relief. -/
theorem exec_pressureArrival_judged {loop : LoopReading} (hs : s.powered = true) (hp : s.present u = true)
    (hb : (s.keepPressure u (analogOf loop (s.crusher u).pressureSpan)).judgePressure u
      (analogOf loop (s.crusher u).pressureSpan).scaled = b) (hsub : b.isSubject u = false) :
    exec (.pressureArrival u loop) s = .next b := by
  rw [exec_pressureArrival_present hs hp hb, State.judgeContact_eq_self hsub]

/-- The relief judged at a pressure arrival under SWITCH. -/
theorem State.keepPressure_switch {level : Bool} {x : Analog} (hsource : (s.crusher u).reliefSource = .switch)
    (hlevel : (s.inputs.reliefSwitch.get u).level = some level) :
    (s.keepPressure u x).judgePressure u x.scaled =
      (s.keepPressure u x).setDetector u (level != (s.crusher u).switchInvert) :=
  (State.judgePressure_switch (s := s.keepPressure u x) hsource _).trans
    (State.judgeSwitch_level (s := s.keepPressure u x) hlevel)

/-- Settles O32: the detector keeps its level, ends a relief, or begins one. -/
theorem reliefDetectorFollowsItsSource : Obligations.ReliefDetectorFollowsItsSource := by
  refine ⟨?_, ?_, ?_⟩
  · intro u loop s hs hp hsource hsub a kept
    have hjudge : kept.judgePressure u a.scaled =
        kept.setDetector u (detectorAnalog (s.crusher u) (s.supervisor u).detectorActive a.scaled) :=
      State.judgePressure_analog (s := kept) hsource _
    have harrival {b : State} : kept.judgePressure u a.scaled = b → b.isSubject u = false → _ :=
      exec_pressureArrival_judged (loop := loop) (b := b) hs hp
    refine ⟨fun hactive hbelow => ?_, fun hactive habove => ?_, fun hactive hrelief hbelow => ?_⟩
    · refine harrival (hjudge.trans (State.setDetector_same (s := kept) ?_)) hsub
      rw [detectorAnalog_eq]
      simpa [hactive, kept] using hbelow
    · refine harrival (hjudge.trans (State.setDetector_same (s := kept) ?_)) hsub
      rw [detectorAnalog_eq]
      simpa [hactive, kept] using habove
    · have hoff : detectorAnalog (s.crusher u) (s.supervisor u).detectorActive a.scaled = false := by
        rw [detectorAnalog_eq, hactive]
        exact decide_eq_false (Nat.not_le.mpr hbelow)
      rw [hoff] at hjudge
      exact harrival (hjudge.trans (State.setDetector_end (s := kept) hactive hrelief)) hsub
  · intro u s hs hp hsource hdue raw kept
    have harrival : exec (.digitalChange (.reliefSwitch u)) s = .next (kept.setDetector u (raw != (s.crusher u).switchInvert)) :=
      exec_digitalChange_reliefSwitch hs hp hsource hdue
    refine ⟨fun hsame => ?_, fun hactive hinvert hrelief => ?_, fun hactive hinvert => ?_⟩
    · exact harrival.trans (congrArg _ (State.setDetector_same (s := kept) hsame))
    · rw [harrival, hinvert, bne_self_eq_false]
      exact congrArg _ (State.setDetector_end (s := kept) hactive hrelief)
    · have hon : (raw != (s.crusher u).switchInvert) = true := by simpa using hinvert
      obtain ⟨hinputs, -, hrelieves⟩ := State.setDetector_relieves (s := kept) (u := u) hactive
      exact ⟨_, harrival.trans (by rw [hon]), hinputs, hrelieves⟩
  · intro u loop s hs hp hsource hsub kept
    refine ⟨fun hnone => ?_, fun level hlevel => ?_⟩
    · exact exec_pressureArrival_judged hs hp ((State.judgePressure_switch (s := kept) hsource _).trans
        (State.judgeSwitch_none (s := kept) hnone)) hsub
    · have hjudge := State.keepPressure_switch (x := analogOf loop (s.crusher u).pressureSpan) hsource hlevel
      refine ⟨fun hsame => ?_, fun hactive hinvert hrelief => ?_, fun hactive hinvert => ?_⟩
      · exact exec_pressureArrival_judged hs hp (hjudge.trans (State.setDetector_same (s := kept) hsame)) hsub
      · rw [hinvert, bne_self_eq_false] at hjudge
        exact exec_pressureArrival_judged hs hp (hjudge.trans (State.setDetector_end (s := kept) hactive hrelief)) hsub
      · have hon : (level != (s.crusher u).switchInvert) = true := by simpa using hinvert
        rw [hon] at hjudge
        obtain ⟨hinputs, hsubject, hrelieves⟩ := State.setDetector_relieves (s := kept) (u := u) hactive
        exact ⟨_, exec_pressureArrival_judged hs hp hjudge hsubject, hinputs, hrelieves⟩

/-! ### A relief onset at a pressure arrival (R135, R136) -/

theorem State.reliefTrips_iff :
    s.reliefTrips u ↔
      (s.crusher u).reliefCount ≤
          (((if (s.supervisor u).history.length < 4 then (s.supervisor u).history
            else (s.supervisor u).history.drop 1) ++ [s.time.seconds]).countP fun x =>
              (s.time.seconds + 4294967296 - x) % 4294967296 ≤ (s.crusher u).reliefWindow) ∨
        (s.supervisor u).reliefLatch ≠ .clear := by
  rw [State.reliefTrips, onsetsWithin_eq, enterOnset_eq]

/-- Settles O33: the train stopped by the onset, and its report. -/
theorem reliefOnsetStopsTheTrain : Obligations.ReliefOnsetStopsTheTrain := by
  intro u loop s hs hp hsource hsub hactive habove hlaw hreason hdrive entered within trips
  set x := analogOf loop (s.crusher u).pressureSpan with hx
  have hon : detectorAnalog (s.crusher u) (s.supervisor u).detectorActive x.scaled = true := by
    rw [detectorAnalog_eq, hactive]
    exact decide_eq_true habove
  have hstop := (s.keepPressure u x).reliefStopped_stops u
  have hjudge : (s.keepPressure u x).judgePressure u x.scaled =
      ((s.keepPressure u x).reliefStopped u).onset .relief (.crusher u) none :=
    (State.judgePressure_analog (s := s.keepPressure u x) hsource _).trans
      ((congrArg (State.setDetector _ u) hon).trans
        (State.setDetector_stops (s := s.keepPressure u x) hactive hsub))
  have hexec := exec_pressureArrival_judged (loop := loop) hs hp hjudge
  have htrips : (s.keepPressure u x).reliefTrips u ↔ trips := s.reliefTrips_iff
  generalize (s.keepPressure u x).reliefStopped u = b at *
  have hrest := hstop.rest
  have hsupervisor : b.supervisor u = { s.supervisor u with
      detectorActive := true, relief := .relieving, clearingTimer := none
      history := entered, reliefLatch := (b.supervisor u).reliefLatch } := hstop.supervisor
  have hreasons := Positioner.barred_has s.now .relief (s.positioner u)
  have hoff := Positioner.barred_drive (now := s.now) (r := .relief) hreason rfl hdrive
  have hpositioner : b.positioner u = (s.positioner u).barred s.now .relief := hstop.positioner
  have hstopped (g : Governor) (hg : g.lawful (s.feeder u).trimLimit) (hb : b.governor u = (g.floorTrim (s.feeder u)).hold .relief)
      (hbase : g.base = (s.governor u).base) :
      (b.governor u).holds.relief = true ∧ (b.governor u).trim = -((s.feeder u).trimLimit : Int) ∧
        (b.governor u).command = 0 ∧ (b.governor u).demand = 0 ∧ (b.governor u).base = (s.governor u).base := by
    obtain ⟨-, hkbase, hktrim, -, -⟩ := (g.floorTrim (s.feeder u)).hold_keeps .relief
    obtain ⟨hcommand, hdemand, -⟩ := hg.floorTrim.hold_stops .relief
    rw [hb]
    exact ⟨Governor.hold_has _ .relief, hktrim, hcommand, hdemand, hkbase.trans hbase⟩
  have hgovernor : (b.governor u).holds.relief = true ∧ (b.governor u).trim = -((s.feeder u).trimLimit : Int) ∧
        (b.governor u).command = 0 ∧ (b.governor u).demand = 0 ∧ (b.governor u).base = (s.governor u).base := by
    by_cases ht : trips
    · exact hstopped _ (hlaw.hold .trip) (hstop.trips (htrips.mpr ht)).2.1 ((s.governor u).hold_keeps .trip).2.1
    · exact hstopped _ hlaw (hstop.untripped (mt htrips.mp ht)).2.1 rfl
  obtain ⟨hhold, htrim, hcommand, hdemand, hbase⟩ := hgovernor
  refine ⟨b.onset .relief (.crusher u) none, hexec (by rw [hrest]; exact hsub), ?_, hstop.others, hstop.accepting,
    hstop.station, congrArg Supervisor.relief hsupervisor, congrArg Supervisor.detectorActive hsupervisor,
    congrArg Supervisor.clearingTimer hsupervisor, congrArg Supervisor.history hsupervisor, hhold, htrim, hcommand,
    hdemand, hbase, ?_, ?_, fun ht => ?_, fun ht => ?_⟩
  · rw [hrest]
    rfl
  · exact (congrArg (fun p => p.reasons.relief) hpositioner).trans hreasons
  · exact (congrArg Positioner.drive hpositioner).trans hoff
  · obtain ⟨hlatch, hg, hc⟩ := hstop.trips (htrips.mpr ht)
    refine ⟨hlatch, ?_, ?_⟩
    · show (b.governor u).holds.has .trip = true
      rw [hg, ((Governor.floorTrim _ _).hold_keeps .relief).1 .trip]
      exact Governor.hold_has _ .trip
    · show b.conditions.onset _ _ _ b.stamp = _
      rw [hc, hrest]
      rfl
  · obtain ⟨hlatch, hg, hc⟩ := hstop.untripped (mt htrips.mp ht)
    refine ⟨hlatch, ?_, ?_⟩
    · show (b.governor u).holds.has .trip = (s.governor u).holds.has .trip
      rw [hg, ((Governor.floorTrim _ _).hold_keeps .relief).1 .trip]
      rfl
    · show b.conditions.onset _ _ _ b.stamp = _
      rw [hc, hrest]
      rfl

/-! ### The clearing expiry (R138) -/

/-- The clearing over: RESTORING, and the latch of REPEATED_RELIEF with the end of its cause (R138). -/
def State.restoring (s : State) (u : Train) : State :=
  (s.modSupervisor u fun v => { v with relief := .restoring, clearingTimer := none }).endLatchCause u .repeatedRelief

theorem exec_clearingExpiry_due {k : Timer} (hs : s.powered = true) (hr : (s.supervisor u).relief = .clearing)
    (hk : (s.supervisor u).clearingTimer = some k) (hdue : k.length ≤ elapsed s.now k.start) :
    exec (.clearingExpiry u) s = .next (((s.restoring u).removeReason u .relief).evaluate (crusherOf u)) := by
  have hexpired : timerExpired (s.supervisor u).clearingTimer s.now = true := by
    rw [hk]
    exact decide_eq_true hdue
  rw [exec_clearingExpiry, State.whenPowered_powered hs]
  exact congrArg _ (if_pos (by simp [hr, hexpired]))

/-- Settles O34: the relief state and the latch, then the Positioner without its reason and the predicate. -/
theorem clearingExpiryRestores : Obligations.ClearingExpiryRestores := by
  intro u k s hs hr hk hdue
  have hwsup := s.supervisor_modSupervisor u fun v => { v with relief := .restoring, clearingTimer := none }
  have hwother := s.othersKept_modSupervisor u fun v => { v with relief := .restoring, clearingTimer := none }
  obtain ⟨erest, eothers, esupervisor, econditions, eholds, -⟩ :=
    (s.modSupervisor u fun v => { v with relief := .restoring, clearingTimer := none }).endLatchCause_ends u .repeatedRelief
  rw [hwsup] at esupervisor econditions
  rw [exec_clearingExpiry_due hs hr hk hdue, State.restoring]
  generalize (s.modSupervisor u fun v => { v with relief := .restoring, clearingTimer := none }).endLatchCause u
    .repeatedRelief = e at *
  have hlatch : (e.supervisor u).reliefLatch = (s.supervisor u).reliefLatch.causeEnded := by rw [esupervisor]; rfl
  have hrelief : (e.supervisor u).relief = .restoring := by rw [esupervisor]; rfl
  have htimer : (e.supervisor u).clearingTimer = none := by rw [esupervisor]; rfl
  have hpositioner : e.positioner u = s.positioner u := by rw [erest]; rfl
  have hhold : (e.governor u).holds.relief = (s.governor u).holds.relief := eholds .relief (by decide)
  have hwork : s.workOf e u := by
    refine State.workOf_of_othersKept (hwother.trans eothers) ?_
    rw [erest]
    rfl
  have hmoves := (State.removeReason_moves e u .relief).evaluate
  refine ⟨_, rfl, (hwork.trans (State.workOf_modPositioner _ u _)).trans hmoves.workOf, ?_, ?_, ?_, ?_, fun hstate hmode => ?_⟩
  · rw [hmoves.supervisor]
    exact htimer
  · rw [hmoves.reasons, State.positioner_modPositioner]
    rfl
  · rw [hmoves.supervisor]
    exact hlatch
  · rcases hmoves.episode with ⟨h1, h2, -⟩ | ⟨-, h2, h3, h4⟩
    · exact .inl ⟨h1.trans hrelief, h2.trans hhold⟩
    · exact .inr ⟨h2, h3, by rw [h4]; exact ConditionList.listed_causeEnded_self _ _ rfl⟩
  · have hother : (e.positioner u).state ≠ .suspended ∨ ((e.positioner u).reasons.put .relief false).isEmpty = false := by
      rw [hpositioner]
      refine hstate.imp_right fun hm => ?_
      rw [← Bool.not_eq_true, Reasons.isEmpty_iff]
      intro hno
      exact Bool.noConfusion (hm.symm.trans (hno .mode))
    have hno : (e.modPositioner u fun p => { p with reasons := p.reasons.put .relief false }).accepting (crusherOf u) = false :=
      State.accepting_of_mode (by rw [State.modPositioner_station_read, erest]; exact hmode)
    rw [State.removeReason_eq hother, State.evaluate_eq (.inl hno)]
    exact ⟨hrelief, econditions⟩

end Sys2Proof.Machine
end

section
/-! PROOFS. The emergency stop, asserted and released (R53, R85, R86). -/

namespace Sys2Proof.Machine

variable {a b s t : State} {u : Train}

/-! ### One operation over the four trains -/

/-- One change of every Positioner, train by train. -/
theorem State.forTrains_positioners (s : State) (f : Positioner → Positioner) :
    (s.forTrains fun t a => a.modPositioner t f) = { s with positioners := s.positioners.map f } := rfl

/-- One change of every Governor, train by train. -/
theorem State.forTrains_governors (s : State) (f : Governor → Governor) :
    (s.forTrains fun t a => a.modGovernor t f) = { s with governors := s.governors.map f } := rfl

/-- A reason added to every Positioner (R83, R85). -/
theorem State.forTrains_addReason (s : State) (r : Reason) :
    (s.forTrains fun t a => a.addReason t r) = { s with positioners := s.positioners.map (Positioner.barred s.now r) } := by
  simp only [State.forTrains_eq, State.addReason_barred, State.modPositioner_now_read]
  exact s.forTrains_positioners (Positioner.barred s.now r)

theorem State.forTrains_addHold (s : State) (c : Hold) :
    (s.forTrains fun t a => a.addHold t c) = { s with governors := s.governors.map fun g => g.hold c } := rfl

theorem State.forTrains_removeHold (s : State) (c : Hold) :
    (s.forTrains fun t a => a.removeHold t c) = { s with governors := s.governors.map fun g => g.release c } := rfl

/-- A reason removed from one Positioner leaves the reasons of the others. -/
theorem State.removeReason_reasons (s : State) (t u : Train) (r : Reason) :
    ((s.removeReason t r).positioner u).reasons =
      if u = t then (s.positioner t).reasons.put r false else (s.positioner u).reasons := by
  have hmoves := State.removeReason_moves s t r
  split
  · next h =>
    subst h
    rw [hmoves.reasons, State.positioner_modPositioner]
  · next h => rw [(hmoves.others u h).2.1, State.positioner_modPositioner_of_ne s h]

theorem State.forTrains_removeReason_reasons (s : State) (u : Train) (r : Reason) :
    (((s.forTrains fun t a => a.removeReason t r).positioner u).reasons).has r = false := by
  rw [State.forTrains_eq]
  cases u <;> simp [State.removeReason_reasons, Reasons.has_put]

theorem State.forTrains_removeReason_inputs (s : State) (r : Reason) :
    (s.forTrains fun t a => a.removeReason t r).inputs = s.inputs := by
  have hone (a : State) (t : Train) : (a.removeReason t r).inputs = a.inputs :=
    (State.removeReason_moves a t r).inputs
  rw [State.forTrains_eq, hone, hone, hone, hone]

/-- A Positioner without a reason (R84). -/
def Positioner.without (r : Reason) (p : Positioner) : Positioner := { p with reasons := p.reasons.put r false }

/-- Reasons removed where every Positioner keeps another, or is not SUSPENDED. -/
theorem State.forTrains_removeReason_eq {r : Reason}
    (h : ∀ u, (s.positioner u).state ≠ .suspended ∨ ((s.positioner u).reasons.put r false).isEmpty = false) :
    (s.forTrains fun t a => a.removeReason t r) =
      { s with positioners := s.positioners.map fun p => { p with reasons := p.reasons.put r false } } := by
  have hone (a : State) (u : Train) (ha : a.positioner u = s.positioner u) :
      a.removeReason u r = a.modPositioner u (Positioner.without r) := State.removeReason_eq (by rw [ha]; exact h u)
  have h1 := hone (s.modPositioner .t0 (Positioner.without r)) .t1 rfl
  have h2 := hone ((s.modPositioner .t0 (Positioner.without r)).modPositioner .t1 (Positioner.without r)) .t2 rfl
  have h3 := hone (((s.modPositioner .t0 (Positioner.without r)).modPositioner .t1 (Positioner.without r)).modPositioner .t2
    (Positioner.without r)) .t3 rfl
  rw [State.forTrains_eq, hone s .t0 rfl, h1, h2, h3]
  rfl

/-! ### The emergency stop -/

/-- The line with ESTOP held everywhere, before a running touch is aborted (R85). -/
def State.estopHeld (s : State) : State :=
  { s with
    inputs := { s.inputs with estop := ⟨false, some false, 0, false⟩ }
    positioners := s.positioners.map (Positioner.barred s.now .estop)
    governors := s.governors.map fun g => g.hold .estop }

theorem exec_estopAssert_due (hs : s.powered = true) (hdue : s.inputs.estop.due = true)
    (hraw : s.inputs.estop.raw = false) :
    exec .estopAssert s = .next ((s.estopHeld.abortRunning .abortedEstop).onset .estop .line none) := by
  have hheld : ((s.withInputs { s.inputs with estop := s.inputs.estop.changed }).forTrains
      fun t a => a.addReason t .estop).forTrains (fun t a => a.addHold t .estop) = s.estopHeld := by
    rw [State.forTrains_addReason, State.forTrains_addHold]
    simp only [State.estopHeld, State.withInputs, Digital.changed, hraw]
    rfl
  rw [exec_estopAssert, State.whenPowered_powered hs, ← hheld]
  exact congrArg _ (if_pos (by simp [hdue, hraw]))

/-- What is said of one train when the line is stopped (R85). -/
structure EstopTrain (u : Train) (t : State) : Prop where
  reason : (t.positioner u).reasons.estop = true
  drive : (t.positioner u).drive = none
  hold : (t.governor u).holds.estop = true
  command : (t.governor u).command = 0
  duty : (t.governor u).output.duty = 0

/-- A train stopped stays so when its touch is aborted: the drive is returned, and the feeder stays HELD. -/
theorem TouchAborts.estop {r : TouchResult} (h : TouchAborts u r a b)
    (hlaw : (a.governor u).lawful (a.feeder u).trimLimit) (hreason : (a.positioner u).reasons.estop = true)
    (hhold : (a.governor u).holds.estop = true) : EstopTrain u b := by
  have hhas : (b.governor u).holds.has .estop = true := by
    rw [h.governor, ((a.governor u).release_keeps .calibration).1 .estop]
    exact hhold
  obtain ⟨heq, hduty⟩ := hlaw.release_eq .calibration
  obtain ⟨hcommand, hdemand, hout⟩ := hlaw.1 (by simp [Governor.state_eq_held (d := .estop) hhold])
  refine ⟨?_, ?_, hhas, ?_, ?_⟩
  · rw [h.positioner, Positioner.returned_eq]
    exact hreason
  · rw [h.positioner, Positioner.returned_eq]
  · rw [h.governor, heq]
    exact hcommand
  · rw [h.governor, hduty]
    exact hout

/-- Settles O27: ESTOP held everywhere, then the touch aborted where one runs. -/
theorem estopStopsTheLine : Obligations.EstopStopsTheLine := by
  intro s hs hdue hraw hlaws hreasons hdrives
  rw [exec_estopAssert_due hs hdue hraw]
  have hpositioner (u : Train) : s.estopHeld.positioner u = (s.positioner u).barred s.now .estop := Quad.get_map ..
  have hgovernor (u : Train) : s.estopHeld.governor u = (s.governor u).hold .estop := Quad.get_map ..
  have hreason (u : Train) : (s.estopHeld.positioner u).reasons.estop = true := by
    rw [hpositioner]
    exact Positioner.barred_has s.now .estop _
  have hhold (u : Train) : (s.estopHeld.governor u).holds.estop = true := by
    rw [hgovernor]
    exact Governor.hold_has _ .estop
  have hlaw (u : Train) : (s.estopHeld.governor u).lawful (s.estopHeld.feeder u).trimLimit := by
    rw [hgovernor]
    exact (hlaws u).hold .estop
  have htrain (u : Train) (hno : s.sequencer.subject ≠ some u) : EstopTrain u s.estopHeld := by
    obtain ⟨hcommand, -, hout⟩ := (hlaws u).hold_stops .estop
    refine ⟨hreason u, ?_, hhold u, by rw [hgovernor]; exact hcommand, by rw [hgovernor]; exact hout⟩
    rw [hpositioner]
    refine Positioner.barred_drive (r := .estop) (hreasons u) rfl ?_
    rcases hdrives u with h | h | h | ⟨-, h⟩
    · exact .inl h
    · exact .inr (.inr h)
    · exact .inr (.inl h)
    · exact absurd h hno
  cases hsubject : s.sequencer.subject with
  | none =>
    have hnone : s.estopHeld.abortRunning .abortedEstop = s.estopHeld := by
      unfold State.abortRunning
      rw [show s.estopHeld.sequencer.subject = none from hsubject]
    rw [hnone]
    refine ⟨_, rfl, rfl, rfl, fun u => ?_, hsubject, fun u h => (by cases h), fun _ => ⟨rfl, rfl, rfl⟩, rfl, rfl, rfl, rfl, rfl, rfl, rfl,
      rfl, rfl, rfl⟩
    obtain ⟨h1, h2, h3, h4, h5⟩ := htrain u (by simp [hsubject])
    exact ⟨h1, h2, h3, h4, h5⟩
  | some v =>
    have hsome : s.estopHeld.abortRunning .abortedEstop = s.estopHeld.abortTouch v .abortedEstop := by
      unfold State.abortRunning
      rw [show s.estopHeld.sequencer.subject = some v from hsubject]
    have hab := s.estopHeld.abortTouch_aborts v .abortedEstop
    rw [hsome]
    generalize s.estopHeld.abortTouch v .abortedEstop = b at *
    have hrest := hab.rest
    refine ⟨_, rfl, ?_, ?_, fun u => ?_, ?_, fun u h => ?_, fun h => (by cases h), ?_⟩
    · rw [hrest]; rfl
    · rw [hrest]; rfl
    · have htrains : EstopTrain u b := by
        by_cases hu : u = v
        · subst hu
          exact hab.estop (hlaw u) (hreason u) (hhold u)
        · obtain ⟨h1, h2, h3, h4, h5⟩ := htrain u (by simpa [hsubject] using Ne.symm hu)
          obtain ⟨-, -, -, kpositioner, -, kgovernor, -⟩ := hab.others u hu
          rw [← kpositioner] at h1 h2
          rw [← kgovernor] at h3 h4 h5
          exact ⟨h1, h2, h3, h4, h5⟩
      obtain ⟨h1, h2, h3, h4, h5⟩ := htrains
      exact ⟨h1, h2, h3, h4, h5⟩
    · rw [hrest]; rfl
    · cases h
      show (b.zero v).outcome.map TouchOutcome.result = _
      rw [hab.zero]
      rfl
    · rw [hrest]
      exact ⟨rfl, rfl, rfl, rfl, rfl, rfl, rfl, rfl, rfl, rfl⟩

theorem exec_estopRelease_due (hs : s.powered = true) (hdue : s.inputs.estop.due = true) (hraw : s.inputs.estop.raw = true) :
    exec .estopRelease s =
      .next ((((s.withInputs { s.inputs with estop := ⟨true, some true, 0, false⟩ }).forTrains fun t a =>
        a.removeReason t .estop).forTrains fun t a => a.removeHold t .estop).causeEnd .estop .line) := by
  have hchanged : s.inputs.estop.changed = ⟨true, some true, 0, false⟩ := by rw [Digital.changed, hraw]
  rw [exec_estopRelease, State.whenPowered_powered hs, ← hchanged]
  exact congrArg _ (if_pos (by simp [hdue, hraw]))

/-- Settles O28: the reason and the hold removed train by train, and the cause ended. -/
theorem estopReleaseRemovesItsHolds : Obligations.EstopReleaseRemovesItsHolds := by
  intro s hs hdue hraw
  set w := s.withInputs { s.inputs with estop := ⟨true, some true, 0, false⟩ } with hw
  have hexec := exec_estopRelease_due hs hdue hraw
  rw [← hw] at hexec
  have hinputs := w.forTrains_removeReason_inputs .estop
  have hreasons := fun u => w.forTrains_removeReason_reasons u .estop
  have hstill (h : ∀ u, (s.positioner u).state = .suspended → (s.positioner u).reasons.mode = true ∨
      (s.positioner u).reasons.relief = true ∨ (s.positioner u).reasons.position = true ∨
      (s.positioner u).reasons.noZero = true) := State.forTrains_removeReason_eq (s := w) (r := .estop) fun u => by
    by_cases hstate : (s.positioner u).state = .suspended
    · refine .inr ?_
      have := h u hstate
      show ((s.positioner u).reasons.put .estop false).isEmpty = false
      rcases this with hk | hk | hk | hk <;> simp [Reasons.isEmpty, Reasons.put, hk]
    · exact .inl hstate
  rw [hexec]
  generalize (w.forTrains fun t a => a.removeReason t .estop) = b at *
  rw [State.forTrains_removeHold]
  refine ⟨_, rfl, hinputs, ?_, fun u => ⟨hreasons u, ?_⟩, fun h => ?_⟩
  · show decide (b.inputs.estop.level = some false) = false
    rw [hinputs]
    rfl
  · show Holds.has (Governor.holds ((b.governors.map fun g => g.release .estop).get u)) .estop = false
    rw [Quad.get_map]
    exact Governor.release_has _ .estop
  · rw [hstill h]
    rfl

end Sys2Proof.Machine
end

section
/-! PROOFS. The millisecond boundary: what a quiet part settles, the samples and the first levels (R52 to R54, R160). -/

namespace Sys2Proof.Machine

variable {a b s t : State} {u : Train}

/-! ### Nothing falls due in a quiet part -/

theorem State.forTrains_fixed {f : Train → State → State} (h : ∀ u, f u s = s) : s.forTrains f = s := by
  rw [State.forTrains_eq, h, h, h, h]

theorem State.settleCounts_quiet (h : s.quiet) : s.settleCounts = s := by
  obtain ⟨hsecond, hlapse, hwait, -⟩ := h
  have hboundary : s.secondBoundary = s := if_neg (by simp [hsecond])
  have hlapses : Station.all.foldl State.keepLapse s = s := List.foldl_fixed' (fun st => if_neg (by simp [hlapse st])) _
  have hwaits : (List.range Config.slotCount).foldl State.waitExpiry s = s :=
    List.foldl_fixed' (fun i => if_neg (by simp [hwait i])) _
  rw [State.settleCounts, hboundary, hlapses, hwaits]

theorem State.settleInputs_quiet (h : s.quiet) : s.settleInputs = s := by
  obtain ⟨-, -, -, hdigital, hestop, -⟩ := h
  have hassert : s.estopAssert = s := if_neg (by simp [hestop])
  have hrelease : s.estopRelease = s := if_neg (by simp [hestop])
  rw [State.settleInputs, List.foldl_fixed' fun i => if_neg (by simp [hdigital i]), hassert, hrelease]

theorem State.recoveryExpiry_quiet (h : timerExpired ((s.gap u).recovery.map Recovery.timer) s.now = false) :
    s.recoveryExpiry u = s := by
  unfold State.recoveryExpiry
  split
  · rfl
  · next k hk =>
    rw [hk] at h
    exact if_neg (by simp [show k.timer.expired s.now = false from h])

theorem State.dwellExpiry_quiet (h : timerExpired s.sequencer.dwellTimer s.now = false) : s.dwellExpiry = s := by
  unfold State.dwellExpiry
  split
  · rfl
  · exact if_neg (by simp [h])

theorem State.timeLimitExpiry_quiet (h : timerExpired s.sequencer.limitTimer s.now = false) :
    s.timeLimitExpiry = s := by
  unfold State.timeLimitExpiry
  split
  · rfl
  · exact if_neg (by simp [h])

theorem State.settleTimers_quiet (h : s.quiet) : s.settleTimers = s := by
  obtain ⟨-, -, -, -, -, htrains, hdwell, hlimit, -⟩ := h
  have hrecovery : s.forTrains (fun u a => a.recoveryExpiry u) = s :=
    State.forTrains_fixed fun u => State.recoveryExpiry_quiet (htrains u).1
  have hclearing : s.forTrains (fun u a => a.clearingExpiry u) = s :=
    State.forTrains_fixed fun u => if_neg (by simp [(htrains u).2.2.1])
  have hoverload : s.forTrains (fun u a => a.overloadDelayExpiry u) = s :=
    State.forTrains_fixed fun u => if_neg (by simp [(htrains u).2.2.2.1])
  have hdrain : s.forTrains (fun u a => a.drainExpiry u) = s :=
    State.forTrains_fixed fun u => if_neg (by simp [(htrains u).2.2.2.2.1])
  have hmove : s.forTrains (fun u a => a.moveTimerExpiry u) = s :=
    State.forTrains_fixed fun u => if_neg (by simp [(htrains u).2.2.2.2.2.1])
  have hsample : s.forTrains (fun u a => a.sampleExpiry u) = s :=
    State.forTrains_fixed fun u => if_neg (by simp [(htrains u).2.2.2.2.2.2.1])
  have hdead : s.forTrains (fun u a => a.deadTimeExpiry u) = s :=
    State.forTrains_fixed fun u => if_neg (by simp [(htrains u).2.2.2.2.2.2.2.1])
  have hjog : s.forTrains (fun u a => a.jogTimeEnd u) = s :=
    State.forTrains_fixed fun u => if_neg (by simp [(htrains u).2.2.2.2.2.2.2.2.1])
  have hwear : s.forTrains (fun u a => a.wearStep u) = s :=
    State.forTrains_fixed fun u => if_neg (by simp [(htrains u).2.1])
  have hupdate : s.forTrains (fun u a => a.updateExpiry u) = s :=
    State.forTrains_fixed fun u => if_neg (by simp [(htrains u).2.2.2.2.2.2.2.2.2])
  rw [State.settleTimers]
  rw [hrecovery, hclearing, hoverload, State.dwellExpiry_quiet hdwell, State.timeLimitExpiry_quiet hlimit, hdrain, hdead,
    hmove, hsample, hjog, hwear, hupdate]

theorem State.settle_quiet (h : s.quiet) : s.settle = s := by
  have hgap (l : Link) : s.interByteGap l = s := by
    obtain ⟨-, -, -, -, -, -, -, -, hgaps, -⟩ := h
    exact if_neg (by simp [hgaps l])
  have hrestart : s.restartStart = s := by
    obtain ⟨-, -, -, -, -, -, -, -, -, hr⟩ := h
    exact if_neg (by simp [hr])
  rw [State.settle, State.settleCounts_quiet h, State.settleInputs_quiet h, State.settleTimers_quiet h, State.settleLinks,
    hgap, hgap, hgap, hrestart]

/-! ### Samples -/

variable {f : FieldInputs} {i j : DigitalInput} {d : Digital}

theorem FieldInputs.digital_putDigital : (f.putDigital i d).digital j = if j = i then d else f.digital j := by
  cases i <;> cases j <;> simp [FieldInputs.putDigital, FieldInputs.digital, Quad.get_set]

theorem zipQuad_get {α β γ : Type} (g : α → β → γ) (p : Quad α) (q : Quad β) (u : Train) :
    (zipQuad g p q).get u = g (p.get u) (q.get u) := by cases u <;> rfl

theorem FieldInputs.digital_sampled (f : FieldInputs) (x : Samples) (i : DigitalInput) :
    (f.sampled x).digital i = (f.digital i).sampled (x.level i) := by
  cases i <;> simp [FieldInputs.sampled, FieldInputs.digital, Samples.level, zipQuad_get]

theorem Digital.sampled_first {raw : Bool} (h : d.level = none) : d.sampled raw = ⟨raw, none, d.count, true⟩ := by
  simp [Digital.sampled, h]

theorem Digital.sampled_same {raw : Bool} (h : d.level = some raw) : d.sampled raw = ⟨raw, some raw, 0, false⟩ := by
  simp [Digital.sampled, h]

theorem Digital.sampled_other {raw v : Bool} (h : d.level = some v) (hne : raw ≠ v) (hc : d.count < 20) :
    d.sampled raw = ⟨!v, some v, d.count + 1, d.count = 19⟩ := by
  have hmin : min (d.count + 1) Config.debounceSamples = d.count + 1 := Nat.min_eq_left hc
  have hraw : raw = !v := by cases raw <;> cases v <;> simp_all
  have hdue : (d.count + 1 = Config.debounceSamples) ↔ d.count = 19 := by
    show d.count + 1 = 20 ↔ _
    omega
  simp only [Digital.sampled, h, hne, if_false, hmin, hdue]
  rw [hraw, ← h]

theorem Digital.sampled_level {raw : Bool} : (d.sampled raw).level = d.level := by
  unfold Digital.sampled
  split
  · rfl
  · split <;> rfl

theorem Digital.estopSampled_level {raw : Bool} : (d.estopSampled raw).level = d.level := by
  unfold Digital.estopSampled
  split
  · rfl
  all_goals exact Digital.sampled_level

/-! ### First levels (R54) -/

theorem State.abortIfSubject_inputs (s : State) (u : Train) (r : TouchResult) :
    (s.abortIfSubject u r).inputs = s.inputs := by
  unfold State.abortIfSubject
  split
  · rw [(s.abortTouch_aborts u r).rest]
  · rfl

theorem State.setDetector_inputs (s : State) (u : Train) (active : Bool) : (s.setDetector u active).inputs = s.inputs := by
  by_cases hsame : (s.supervisor u).detectorActive = active
  · rw [State.setDetector_same hsame]
  · cases active with
    | true => exact (State.setDetector_relieves (by simpa using hsame)).1
    | false =>
      refine (congrArg State.inputs ((if_neg hsame).trans (if_neg Bool.false_ne_true))).trans ?_
      unfold State.reliefEnd
      split <;> rfl

theorem State.judgeSwitch_inputs (s : State) (u : Train) : (s.judgeSwitch u).inputs = s.inputs := by
  unfold State.judgeSwitch
  split
  · rfl
  · exact State.setDetector_inputs ..

/-- The blocks that take a change leave the inputs as they are. -/
theorem State.deliverChange_inputs (s : State) (i : DigitalInput) (level : Bool) :
    (s.deliverChange i level).inputs = s.inputs := by
  cases i with
  | running u =>
    have hhold : (s.crusherRunningChanged u level).inputs = s.inputs := by cases level <;> rfl
    refine (apply_ite State.inputs ..).trans (ite_eq_iff.mpr ?_)
    by_cases hp : (!s.present u) = true
    · exact .inl ⟨hp, rfl⟩
    · refine .inr ⟨hp, (apply_ite State.inputs ..).trans (ite_eq_iff.mpr ?_)⟩
      by_cases hl : level = true
      · exact .inl ⟨hl, hhold⟩
      · exact .inr ⟨hl, (State.abortIfSubject_inputs ..).trans hhold⟩
  | reliefSwitch u =>
    show (if _ then s.reliefSwitchChanged u else s).inputs = _
    split
    · unfold State.reliefSwitchChanged
      split
      · rfl
      · exact State.judgeSwitch_inputs ..
    · rfl
  | surgeConveyor => cases level <;> rfl
  | productConveyor => cases level <;> rfl

theorem State.digitalChange_digital (s : State) (i j : DigitalInput) :
    ((s.digitalChange i).inputs.digital j) =
      if j = i ∧ (s.inputs.digital i).due = true then (s.inputs.digital i).changed else s.inputs.digital j := by
  rw [State.digitalChange]
  by_cases hdue : (s.inputs.digital i).due = true
  · rw [if_pos hdue, State.deliverChange_inputs]
    simp [FieldInputs.digital_putDigital, hdue]
  · rw [if_neg hdue]
    simp [hdue]

/-- An input whose change is due while it has no level yet takes its level (R54). -/
def Digital.firstTaken (d : Digital) : Digital := if d.level = none ∧ d.due = true then d.changed else d

theorem Digital.firstTaken_firstTaken (d : Digital) : d.firstTaken.firstTaken = d.firstTaken := by
  unfold Digital.firstTaken
  split
  · simp [Digital.changed]
  · rfl

theorem State.firstLevel_digital (s : State) (i j : DigitalInput) :
    (s.firstLevel i).inputs.digital j = if j = i then (s.inputs.digital j).firstTaken else s.inputs.digital j := by
  rw [State.firstLevel]
  by_cases hlevel : (s.inputs.digital i).level = none
  · rw [if_pos (by simp [hlevel]), State.digitalChange_digital]
    by_cases hj : j = i
    · subst hj
      simp [Digital.firstTaken, hlevel]
    · simp [hj]
  · rw [if_neg (by simpa using hlevel)]
    by_cases hj : j = i
    · subst hj
      simp [Digital.firstTaken, hlevel]
    · simp [hj]

theorem State.foldl_firstLevel_digital (l : List DigitalInput) (s : State) (j : DigitalInput) :
    ((l.foldl State.firstLevel s).inputs.digital j) =
      if j ∈ l then (s.inputs.digital j).firstTaken else s.inputs.digital j := by
  induction l generalizing s with
  | nil => simp
  | cons i rest ih =>
    rw [List.foldl_cons, ih, State.firstLevel_digital]
    by_cases hi : j = i
    · simp [hi, Digital.firstTaken_firstTaken]
    · simp [hi]

theorem DigitalInput.mem_all (i : DigitalInput) : i ∈ DigitalInput.all := by
  cases i with
  | running u | reliefSwitch u => cases u <;> decide
  | _ => decide

theorem FieldInputs.estop_putDigital : (f.putDigital i d).estop = f.estop := by cases i <;> rfl

theorem State.firstLevel_estop (s : State) (i : DigitalInput) : (s.firstLevel i).inputs.estop = s.inputs.estop := by
  rw [State.firstLevel]
  split
  · rw [State.digitalChange]
    split
    · rw [State.deliverChange_inputs]
      exact FieldInputs.estop_putDigital
    · rfl
  · rfl

theorem State.foldl_firstLevel_estop (l : List DigitalInput) (s : State) :
    (l.foldl State.firstLevel s).inputs.estop = s.inputs.estop := by
  induction l generalizing s with
  | nil => rfl
  | cons i rest ih => rw [List.foldl_cons, ih, State.firstLevel_estop]

theorem State.estopAssert_inputs (s : State) :
    s.estopAssert.inputs =
      if s.inputs.estop.due = true ∧ s.inputs.estop.raw = false then
        { s.inputs with estop := s.inputs.estop.changed }
      else s.inputs := by
  unfold State.estopAssert
  dsimp only
  by_cases h : s.inputs.estop.due = true ∧ s.inputs.estop.raw = false
  · rw [if_pos (by simp [h]), if_pos h, State.forTrains_addReason, State.forTrains_addHold]
    have hab (b : State) : (b.abortRunning .abortedEstop).inputs = b.inputs := by
      unfold State.abortRunning
      split
      · rfl
      · rw [(b.abortTouch_aborts _ _).rest]
    exact hab _
  · have hno : (s.inputs.estop.due && !s.inputs.estop.raw) = false := by
      rw [← Bool.not_eq_true]
      simpa using h
    rw [if_neg (by simp [hno]), if_neg h]

theorem State.estopRelease_inputs (s : State) :
    s.estopRelease.inputs =
      if s.inputs.estop.due = true ∧ s.inputs.estop.raw = true then
        { s.inputs with estop := s.inputs.estop.changed }
      else s.inputs := by
  unfold State.estopRelease
  dsimp only
  by_cases h : s.inputs.estop.due = true ∧ s.inputs.estop.raw = true
  · rw [if_pos (by simp [h]), if_pos h, State.forTrains_removeHold]
    exact State.forTrains_removeReason_inputs ..
  · have hno : (s.inputs.estop.due && s.inputs.estop.raw) = false := by
      rw [← Bool.not_eq_true]
      simpa using h
    rw [if_neg (by simp [hno]), if_neg h]

/-- The first level of the E-stop loop leaves the other inputs, and takes the loop's. -/
theorem State.firstEstop_inputs (s : State) :
    s.firstEstop.inputs = { s.inputs with estop := s.inputs.estop.firstTaken } := by
  rw [State.firstEstop, Digital.firstTaken]
  by_cases hlevel : s.inputs.estop.level = none
  · rw [if_pos (by simp [hlevel]), State.estopRelease_inputs, State.estopAssert_inputs]
    by_cases hdue : s.inputs.estop.due = true
    · cases hraw : s.inputs.estop.raw <;> simp [hdue, hlevel, Digital.changed, hraw]
    · simp [hdue]
  · rw [if_neg (by simpa using hlevel), if_neg (by simp [hlevel])]

/-- The inputs after a millisecond's samples. -/
theorem State.sampleInputs_digital (s : State) (x : Samples) (i : DigitalInput) :
    (s.sampleInputs x).inputs.digital i = ((s.inputs.digital i).sampled (x.level i)).firstTaken := by
  rw [State.sampleInputs, State.firstEstop_inputs]
  refine Eq.trans (?_ : _ = (DigitalInput.all.foldl State.firstLevel (s.withInputs (s.inputs.sampled x))).inputs.digital i) ?_
  · cases i <;> rfl
  · rw [State.foldl_firstLevel_digital, if_pos (DigitalInput.mem_all i)]
    exact congrArg Digital.firstTaken (s.inputs.digital_sampled x i)

theorem State.sampleInputs_estop (s : State) (x : Samples) :
    (s.sampleInputs x).inputs.estop = (s.inputs.estop.estopSampled x.estopLoop).firstTaken := by
  rw [State.sampleInputs, State.firstEstop_inputs, State.foldl_firstLevel_estop]
  rfl

theorem State.forTrains_countLoaded_inputs (s : State) : (s.forTrains State.countLoaded).inputs = s.inputs := by
  have hone (a : State) (u : Train) : (State.countLoaded u a).inputs = a.inputs := by
    unfold State.countLoaded
    split <;> rfl
  rw [State.forTrains_eq, hone, hone, hone, hone]

/-- A millisecond boundary of a quiet part. -/
theorem exec_millisecondBoundary_quiet (x : Samples) (hs : s.powered = true) (h : s.quiet) :
    exec (.millisecondBoundary x) s =
      .next ((((s.withTime s.time.advance).tickOutputs).sampleInputs x).forTrains State.countLoaded) := by
  rw [exec_millisecondBoundary, State.whenPowered_powered hs, State.millisecondBoundary, State.settle_quiet h]

theorem Digital.firstTaken_of_level {v : Bool} (h : d.level = some v) : d.firstTaken = d := if_neg (by simp [h])

theorem Digital.firstTaken_sampled_of {raw v : Bool} (h : d.level = some v) :
    (d.sampled raw).firstTaken = d.sampled raw :=
  Digital.firstTaken_of_level (v := v) (by rw [Digital.sampled_level, h])

theorem Digital.firstTaken_first {raw : Bool} (h : d.level = none) :
    (d.sampled raw).firstTaken = ⟨raw, some raw, 0, false⟩ := by
  rw [Digital.sampled_first h, Digital.firstTaken, if_pos ⟨rfl, rfl⟩]
  rfl

/-- With every first sample taken, the samples change the inputs alone. -/
theorem State.sampleInputs_of_levels (hlevels : ∀ i, (s.inputs.digital i).level ≠ none)
    (hestop : s.inputs.estop.level ≠ none) (x : Samples) :
    s.sampleInputs x = s.withInputs (s.inputs.sampled x) := by
  have hone (i : DigitalInput) :
      (s.withInputs (s.inputs.sampled x)).firstLevel i = s.withInputs (s.inputs.sampled x) := by
    refine if_neg ?_
    show ¬((s.inputs.sampled x).digital i).level.isNone = true
    rw [FieldInputs.digital_sampled, Digital.sampled_level]
    simpa using hlevels i
  rw [State.sampleInputs, List.foldl_fixed' hone]
  refine if_neg ?_
  show ¬(s.inputs.estop.estopSampled x.estopLoop).level.isNone = true
  rw [Digital.estopSampled_level]
  simpa using hestop

/-- The loaded time counted, train by train (R63). -/
theorem State.forTrains_countLoaded (s : State) :
    s.forTrains State.countLoaded = { s with gaps := Quad.make (fun u =>
      if s.loaded u then { s.gap u with loadedTime := min ((s.gap u).loadedTime + 1) Config.wearStepTime }
      else s.gap u) } := by
  have hone (a : State) (u : Train) (hl : a.loaded u = s.loaded u) (hg : a.gap u = s.gap u) :
      State.countLoaded u a = { a with gaps := a.gaps.set u (if s.loaded u = true then
        { s.gap u with loadedTime := min ((s.gap u).loadedTime + 1) Config.wearStepTime } else s.gap u) } := by
    rw [State.countLoaded, hl, ← hg]
    split
    · rfl
    · exact (congrArg (fun q => { a with gaps := q }) (a.gaps.set_get u)).symm
  rw [State.forTrains_eq, hone s .t0 rfl rfl]
  rw [hone _ .t1 (by rfl) (by rfl)]
  rw [hone _ .t2 (by rfl) (by rfl)]
  rw [hone _ .t3 (by rfl) (by rfl)]
  rfl

end Sys2Proof.Machine
end

section
/-! PROOFS. The boundaries of a millisecond and of a second, waits and keeps (R38 to R42, R160, R161). -/

namespace Sys2Proof.Machine

variable {a b s t : State} {u : Train} {st : Station}

/-- One millisecond of a PWM output of n + 1 ms: the duty holds while its period lasts. -/
theorem Pwm.tick_eq (w : Pwm) (n commanded : Nat) :
    w.tick (n + 1) commanded = if w.phase < n then ⟨w.duty, w.phase + 1⟩ else ⟨commanded, 0⟩ := by
  unfold Pwm.tick
  split
  · next h => rw [if_neg (by omega)]
  · next h => rw [if_pos (by omega)]

theorem Governor.tick_eq (g : Governor) :
    g.tick = { g with
      output := if g.output.phase < 9 then ⟨g.output.duty, g.output.phase + 1⟩ else ⟨g.command, 0⟩ } :=
  congrArg (fun w => { g with output := w }) (g.output.tick_eq 9 g.command)

theorem Positioner.tickJog_eq (p : Positioner) :
    p.tickJog =
      { p with
        jog :=
          if p.drive.isSome ∧ p.state = .jogging then p.jog.map fun j => { j with remaining := j.remaining - 1 }
          else p.jog } := by
  obtain ⟨state, reasons, drive, pending, lastEnd, move, drain, moving, sample, jog, duration, valve⟩ := p
  cases jog with
  | none => simp [Positioner.tickJog]
  | some j =>
    simp only [Positioner.tickJog, Bool.and_eq_true, decide_eq_true_eq]
    split <;> rfl

theorem Positioner.tick_eq (p : Positioner) :
    p.tickJog.tickValve =
      { p with
        jog :=
          if p.drive.isSome ∧ p.state = .jogging then p.jog.map fun j => { j with remaining := j.remaining - 1 }
          else p.jog
        valve :=
          match p.drive with
          | none => p.valve
          | some d => if p.valve.phase < 4 then ⟨p.valve.duty, p.valve.phase + 1⟩ else ⟨d.duty, 0⟩ } := by
  rw [p.tickJog_eq, Positioner.tickValve]
  cases hd : p.drive with
  | none => rfl
  | some d =>
    dsimp only
    rw [← p.valve.tick_eq 4 d.duty]
    rfl

/-- A loop that is closed: an open sample is due at once (R53). -/
theorem Digital.estopSampled_closed {d : Digital} {closed : Bool} (h : d.level = some true) :
    d.estopSampled closed = ⟨closed, some true, 0, !closed⟩ := by
  simp only [Digital.estopSampled, h]

theorem Digital.estopSampled_eq {d : Digital} {closed : Bool} (h : d.level ≠ some true) :
    d.estopSampled closed = d.sampled closed := by
  unfold Digital.estopSampled
  split
  · next hl => exact absurd hl h
  all_goals rfl

theorem State.loaded_iff :
    s.loaded u = true ↔ s.present u = true ∧ (s.inputs.running.get u).level = some true ∧
      ∃ a, s.inputs.power.get u = some a ∧ (s.crusher u).loadedPower ≤ a.scaled := by
  have hlevel : (s.inputs.running.get u).energized = true ↔ (s.inputs.running.get u).level = some true := by
    rw [Digital.energized]
    cases (s.inputs.running.get u).level <;> simp
  rw [State.loaded, Bool.and_eq_true, Bool.and_eq_true, hlevel, and_assoc]
  cases s.inputs.power.get u <;> simp

/-- Settles O23: a quiet part settles nothing, so the boundary is its counting and its samples. -/
theorem millisecondBoundaryAdvancesUptime : Obligations.MillisecondBoundaryAdvancesUptime := by
  refine ⟨fun x s hs hquiet hlevels hestop => ?_, fun x s hs hquiet => ?_, fun x s hs hquiet => ?_⟩
  · set w := (s.withTime s.time.advance).tickOutputs with hw
    have hsampled : w.sampleInputs x = w.withInputs (s.inputs.sampled x) :=
      State.sampleInputs_of_levels (s := w) hlevels hestop x
    have hrunning (u : Train) : ((s.inputs.sampled x).running.get u).level = (s.inputs.running.get u).level := by
      have := congrArg Digital.level (s.inputs.digital_sampled x (.running u))
      rw [Digital.sampled_level] at this
      exact this
    have hloaded (u : Train) : (w.withInputs (s.inputs.sampled x)).loaded u = true ↔ s.present u = true ∧
        (s.inputs.running.get u).level = some true ∧
        ∃ a, s.inputs.power.get u = some a ∧ (s.crusher u).loadedPower ≤ a.scaled := by
      rw [State.loaded_iff, ← hrunning]
      rfl
    rw [exec_millisecondBoundary_quiet x hs hquiet, ← hw, hsampled, State.forTrains_countLoaded]
    refine ⟨_, rfl, rfl, rfl, fun u => ?_, fun u => ?_, fun u => ?_⟩
    · have hcount : min ((s.gap u).loadedTime + 1) Config.wearStepTime = (s.gap u).loadedTime + 1 := by
        obtain ⟨-, -, -, -, -, htrains, -⟩ := hquiet
        have hbelow : ¬Config.wearStepTime ≤ (s.gap u).loadedTime := of_decide_eq_false (htrains u).2.1
        exact Nat.min_eq_left (by omega)
      refine (Quad.get_make ..).trans ?_
      simp only [hloaded]
      split
      · exact congrArg (fun n => { s.gap u with loadedTime := n }) hcount
      · rfl
    · exact (Quad.get_map ..).trans (Governor.tick_eq _)
    · exact (Quad.get_map ..).trans (Positioner.tick_eq _)
  · refine ⟨_, exec_millisecondBoundary_quiet x hs hquiet, ?_⟩
    rw [State.forTrains_countLoaded_inputs]
    have hdigital (i : DigitalInput) : ((s.withTime s.time.advance).tickOutputs.sampleInputs x).inputs.digital i =
        ((s.inputs.digital i).sampled (x.level i)).firstTaken := State.sampleInputs_digital _ x i
    have hestop : ((s.withTime s.time.advance).tickOutputs.sampleInputs x).inputs.estop =
        (s.inputs.estop.estopSampled x.estopLoop).firstTaken := State.sampleInputs_estop _ x
    refine ⟨fun i v hv hx => ?_, fun i v hv hx hc => ?_, fun hv => ?_, fun hv hx => ?_, fun hv hx hc => ?_⟩
    · rw [hdigital, Digital.firstTaken_sampled_of hv, Digital.sampled_same (by rw [hx]; exact hv), hx]
    · rw [hdigital, Digital.firstTaken_sampled_of hv]
      exact Digital.sampled_other hv hx hc
    · rw [hestop, Digital.estopSampled_closed hv]
      exact Digital.firstTaken_of_level rfl
    · rw [hestop, Digital.estopSampled_eq (by simp [hv]), Digital.firstTaken_sampled_of hv,
        Digital.sampled_same (by rw [hx]; exact hv), hx]
    · rw [hestop, Digital.estopSampled_eq (by simp [hv]), Digital.firstTaken_sampled_of hv]
      exact (Digital.sampled_other hv (by simp [hx]) hc).trans (by rw [Bool.not_false])
  · refine ⟨_, exec_millisecondBoundary_quiet x hs hquiet, ?_⟩
    rw [State.forTrains_countLoaded_inputs]
    refine ⟨fun i hi => ?_, fun hi => ?_⟩
    · rw [State.sampleInputs_digital]
      exact Digital.firstTaken_first hi
    · have hno : s.inputs.estop.level ≠ some true := by simp [hi]
      rw [State.sampleInputs_estop]
      exact (congrArg Digital.firstTaken (Digital.estopSampled_eq hno)).trans (Digital.firstTaken_first hi)

/-! ### Waits and keeps (R38, R40, R42) -/

theorem State.station_map_countKeep (s : State) (st : Station) :
    ({ s with
      feeders := s.feeders.map StationRecord.countKeep
      crushers := s.crushers.map StationRecord.countKeep } : State).station st = (s.station st).countKeep := by
  obtain ⟨train, role⟩ := st
  cases role <;> exact Quad.get_map ..

theorem exec_keepLapse_due (hs : s.powered = true) (h : (s.station st).standing.keep = some 0) :
    exec (.keepLapse st) s = .next (s.releaseStanding st) := by
  rw [exec_keepLapse, State.whenPowered_powered hs]
  exact congrArg _ (if_pos (decide_eq_true h))

theorem State.accepting_modStation {f : StationRecord → StationRecord} (hf : ∀ r, (f r).mode = r.mode) :
    (s.modStation st f).accepting st = s.accepting st := by
  simp only [State.accepting, State.station_modStation, hf, State.modStation_present_read, State.modStation_zero_read,
    State.modStation_gap_read, State.modStation_supervisor_read, State.modStation_positioner_read]

theorem State.accepting_released (s : State) (st : Station) :
    (s.modStation st fun r => { r with standing := r.standing.released }).accepting st = s.accepting st :=
  State.accepting_modStation fun _ => rfl

theorem State.releaseStanding_not (h : s.accepting st = false) :
    s.releaseStanding st = s.modStation st fun r => { r with standing := r.standing.released } := by
  refine if_neg ?_
  rw [s.accepting_released st, h]
  exact Bool.false_ne_true

theorem State.releaseStanding_accepting (h : s.accepting st = true) :
    s.releaseStanding st = (s.modStation st fun r => { r with standing := r.standing.released }).select st := by
  refine if_pos ?_
  rw [s.accepting_released st, h]

/-- No request that waits for a station outranks its standing setting (R43). -/
def State.chosen (s : State) (st : Station) : Prop :=
  ∀ r, some r ∈ s.board.slots → r.station = st → outranks r.priority r.sequence (s.station st).standing = false

/-- The moving of a crusher whose selection is made leaves the board, its setting and its last-applied record. -/
def Stays (t : Train) (a b : State) : Prop :=
  a.chosen (crusherOf t) → b.chosen (crusherOf t) ∧ b.board = a.board ∧
    (b.station (crusherOf t)).standing = (a.station (crusherOf t)).standing ∧
    (b.station (crusherOf t)).lastApplied = (a.station (crusherOf t)).lastApplied

theorem Stays.of_same (hboard : b.board = a.board)
    (hstation : (b.station (crusherOf u)).standing = (a.station (crusherOf u)).standing ∧
      (b.station (crusherOf u)).lastApplied = (a.station (crusherOf u)).lastApplied) : Stays u a b := by
  obtain ⟨hstanding, happlied⟩ := hstation
  refine fun h => ⟨?_, hboard, hstanding, happlied⟩
  rw [State.chosen, hboard, hstanding]
  exact h

theorem stays_moveClosed (u : Train) : MoveClosed u (Stays u) where
  refl := fun _ => Stays.of_same rfl ⟨rfl, rfl⟩
  trans := fun h k ha => by
    obtain ⟨h0, h1, h2, h3⟩ := h ha
    obtain ⟨k0, k1, k2, k3⟩ := k h0
    exact ⟨k0, k1.trans h1, k2.trans h2, k3.trans h3⟩
  positioner := fun _ _ _ => Stays.of_same rfl ⟨rfl, rfl⟩
  addGapMove := fun _ => Stays.of_same rfl ⟨rfl, rfl⟩
  removeGapMove := fun _ => Stays.of_same rfl ⟨rfl, rfl⟩
  episode := fun _ _ => Stays.of_same rfl ⟨rfl, rfl⟩
  judged := fun a _ => Stays.of_same (State.modStation_board ..) (by simp [State.evaluated])
  selected := fun a i r _ _ hb ho ha => by
    obtain ⟨k, -, hk, hst⟩ := bestSlot_mem hb
    have := ha r (List.mem_of_getElem? hk) hst
    rw [ho] at this
    cases this

/-- A request applied, in the fields that the report of its target leaves (R36, R42). -/
structure SlotApplied (st : Station) (i : Nat) (r : Slot) (a b : State) : Prop where
  work : a.workOf b st.train
  board : b.board = { a.board with slots := a.board.slots.set i none }
  standing : (b.station st).standing =
    ⟨a.limited st r.value, r.priority, .request r.source r.tag r.sequence, r.keep⟩
  lastApplied : (b.station st).lastApplied = some ⟨r.source, r.tag⟩
  mode : (b.station st).mode = (a.station st).mode
  base : st.role = .feeder → (a.governor st.train).base = (a.station st).standing.target →
    (b.governor st.train).base = a.limited st r.value

/-- The best slot of a station is the last it would have outranked: applied, it leaves none that outranks it. -/
theorem State.applied_settled {i : Nat} {r : Slot}
    (hbest : ∀ j q, s.board.slots[j]? = some (some q) → q.station = crusherOf u → j ≠ i →
      q.priority < r.priority ∨ q.priority = r.priority ∧ q.sequence < r.sequence) :
    (s.applied u i r).chosen (crusherOf u) := by
  intro q hq hqst
  obtain ⟨j, hj⟩ := List.mem_iff_getElem?.mp hq
  have hboard : (s.applied u i r).board.slots = s.board.slots.set i none := rfl
  have hne : j ≠ i := by
    rintro rfl
    rw [hboard, List.getElem?_set_self'] at hj
    cases hs : s.board.slots[j]? <;> simp [hs] at hj
  rw [hboard, List.getElem?_set_ne (Ne.symm hne)] at hj
  have hlower := hbest j q hj hqst hne
  have hstanding : ((s.applied u i r).station (crusherOf u)).standing =
      ⟨s.limited (crusherOf u) r.value, r.priority, .request r.source r.tag r.sequence, r.keep⟩ := by
    rw [State.applied, State.station_modStation]
  rw [hstanding, ← Bool.not_eq_true, outranks_iff]
  rintro (h | ⟨h, hseq⟩)
  · dsimp only at h
    omega
  · have := hseq r.source r.tag r.sequence rfl
    dsimp only at h
    omega

theorem State.applied_slotApplied (s : State) (u : Train) (i : Nat) (r : Slot) :
    SlotApplied (crusherOf u) i r s (s.applied u i r) := by
  refine ⟨?_, rfl, ?_, ?_, ?_, fun h => by cases h⟩
  · refine State.workOf_of_othersKept ?_ rfl
    exact ((State.othersKept.refl s u).trans ((s.freeSlot i).othersKept_modStation (crusherOf u) _)).trans
      (State.othersKept_modStation _ (crusherOf u) _)
  · rw [State.applied, State.station_modStation]
  · rw [State.applied, State.station_modStation, State.station_modStation]
  · rw [State.applied, State.station_modStation, State.station_modStation]
    rfl

/-- A request applied to the feeder of a train: its slot freed, the last-applied record and the setting written, before
the new target is reported (R36, R42). -/
def State.fed (s : State) (u : Train) (i : Nat) (r : Slot) : State :=
  ((s.freeSlot i).modStation (feederOf u) fun rec => { rec with lastApplied := some ⟨r.source, r.tag⟩ }).modStation
    (feederOf u) fun rec =>
      { rec with standing := ⟨s.limited (feederOf u) r.value, r.priority, .request r.source r.tag r.sequence, r.keep⟩ }

theorem State.fed_slotApplied (s : State) (u : Train) (i : Nat) (r : Slot) :
    s.workOf (s.fed u i r) u ∧ (s.fed u i r).board = { s.board with slots := s.board.slots.set i none } ∧
      ((s.fed u i r).station (feederOf u)).standing =
        ⟨s.limited (feederOf u) r.value, r.priority, .request r.source r.tag r.sequence, r.keep⟩ ∧
      ((s.fed u i r).station (feederOf u)).lastApplied = some ⟨r.source, r.tag⟩ ∧
      ((s.fed u i r).station (feederOf u)).mode = (s.station (feederOf u)).mode := by
  refine ⟨?_, rfl, ?_, ?_, ?_⟩
  · refine State.workOf_of_othersKept ?_ rfl
    exact ((State.othersKept.refl s u).trans ((s.freeSlot i).othersKept_modStation (feederOf u) _)).trans
      (State.othersKept_modStation _ (feederOf u) _)
  · rw [State.fed, State.station_modStation]
  · rw [State.fed, State.station_modStation, State.station_modStation]
  · rw [State.fed, State.station_modStation, State.station_modStation]
    rfl

/-- The best waiting slot of a station, freed and applied. -/
theorem State.freeSlot_apply {i : Nat} {r : Slot} (hst : r.station = st)
    (hbest : ∀ j q, s.board.slots[j]? = some (some q) → q.station = st → j ≠ i →
      q.priority < r.priority ∨ q.priority = r.priority ∧ q.sequence < r.sequence) :
    SlotApplied st i r s ((s.freeSlot i).applyWith State.retarget r) := by
  obtain ⟨u, role⟩ := st
  cases role with
  | crusher =>
    have hstays : Stays u (s.applied u i r) ((s.freeSlot i).applyWith State.retarget r) ∧
        Moves u (s.applied u i r) ((s.freeSlot i).applyWith State.retarget r) := by
      unfold State.applyWith State.writeStandingWith
      rw [hst]
      dsimp only
      split
      · exact ⟨(stays_moveClosed u).refl _, Moves.refl _⟩
      · exact ⟨(stays_moveClosed u).retarget ((stays_moveClosed u).refl _), (Moves.refl _).retarget⟩
    obtain ⟨hstays, hmoves⟩ := hstays
    obtain ⟨-, kboard, kstanding, kapplied⟩ := hstays (State.applied_settled hbest)
    obtain ⟨work, board, standing, lastApplied, mode, -⟩ := s.applied_slotApplied u i r
    exact ⟨work.trans hmoves.workOf, kboard.trans board, kstanding.trans standing, kapplied.trans lastApplied,
      hmoves.mode.trans mode, fun h => by cases h⟩
  | feeder =>
    obtain ⟨work, board, standing, lastApplied, mode⟩ := s.fed_slotApplied u i r
    unfold State.applyWith State.writeStandingWith
    rw [hst]
    dsimp only
    split
    · next hsame =>
      exact ⟨work, board, standing, lastApplied, mode, fun _ hbase => hbase.trans (Eq.trans (by simp; rfl) hsame.symm)⟩
    · exact ⟨work.trans (State.workOf_modGovernor _ u _), board, standing, lastApplied, mode,
        fun _ _ => (congrArg Governor.base (State.governor_modGovernor ..)).trans (Governor.rejudged_keeps ..).2.1⟩

/-- At an accepting station the release is followed by the best of the requests that wait, if it outranks (R38, R45). -/
theorem State.releaseStanding_best {i : Nat} {r : Slot} (hacc : s.accepting st = true)
    (hi : s.board.slots[i]? = some (some r)) (hst : r.station = st)
    (hbest : ∀ j q, s.board.slots[j]? = some (some q) → q.station = st → j ≠ i →
      q.priority < r.priority ∨ q.priority = r.priority ∧ q.sequence < r.sequence) :
    let outranked := 0 < r.priority ∨
      ∀ l tag n, (s.station st).standing.origin = .request l tag n → n < r.sequence
    (¬outranked → s.releaseStanding st = s.modStation st fun r => { r with standing := r.standing.released }) ∧
      (outranked → SlotApplied st i r s (s.releaseStanding st)) := by
  intro outranked
  set w := s.modStation st fun r => { r with standing := r.standing.released } with hw
  have hboard : w.board = s.board := State.modStation_board ..
  have hstanding : (w.station st).standing = (s.station st).standing.released := by rw [hw, State.station_modStation]
  have hselect := State.selectWith_of_best (s := w) (report := State.retarget) (by rw [hboard]; exact hi) hst
    (by rw [hboard]; exact hbest)
  have hout : outranks r.priority r.sequence (w.station st).standing = true ↔ outranked := by
    rw [hstanding, outranks_iff]
    show 0 < r.priority ∨ 0 = r.priority ∧ _ ↔ _
    refine ⟨fun h => h.imp_right And.right, fun h => ?_⟩
    rcases Nat.eq_zero_or_pos r.priority with h0 | h0
    · exact h.imp_right fun hn => ⟨h0.symm, hn⟩
    · exact .inl h0
  rw [State.releaseStanding_accepting hacc]
  refine ⟨fun hno => hselect.trans (if_neg (mt hout.mp hno)), fun hyes => ?_⟩
  have hselected : w.select st = (w.freeSlot i).applyWith State.retarget r := hselect.trans (if_pos (hout.mpr hyes))
  obtain ⟨work, board, standing, lastApplied, mode, base⟩ :=
    State.freeSlot_apply (s := w) (i := i) hst (by rw [hboard]; exact hbest)
  rw [hselected]
  have hlimited : w.limited st r.value = s.limited st r.value := by
    obtain ⟨u, role⟩ := st
    cases role <;> simp only [State.limited, hw, State.modStation_crusher_read, State.modStation_feeder_read]
  have hwork : s.workOf w st.train := by
    refine State.workOf_of_othersKept (s.othersKept_modStation st _) ?_
    obtain ⟨u, role⟩ := st
    cases role <;> rfl
  refine ⟨hwork.trans work, by rw [board, hboard], by rw [standing, hlimited], lastApplied, ?_, fun hrole hbase => ?_⟩
  · rw [mode, hw, State.station_modStation]
  · rw [base hrole, hlimited]
    rw [hstanding]
    exact (congrArg Governor.base (State.modStation_governor_read ..)).trans hbase

theorem exec_keepLapse_not (hs : s.powered = true) (h : (s.station st).standing.keep = some 0)
    (hno : s.accepting st = false ∨ s.board.waitingFor st = 0) :
    exec (.keepLapse st) s = .next (s.modStation st fun r => { r with standing := r.standing.released }) := by
  rw [exec_keepLapse_due hs h]
  by_cases hacc : s.accepting st = true
  · rw [State.releaseStanding_accepting hacc]
    refine congrArg _ (State.selectWith_none ?_)
    rw [State.modStation_board]
    exact Board.waitingFor_eq_zero_iff.mp (hno.resolve_left (by simp [hacc]))
  · rw [State.releaseStanding_not (by simpa using hacc)]

/-- Settles O24: the boundary counts down, and each item that has come to 0 ends by its own command. -/
theorem secondBoundaryCountsDown : Obligations.SecondBoundaryCountsDown := by
  refine ⟨fun s hs hdue => ?_, fun i r s hs hr hwait => ?_, fun st s hs hk hno => exec_keepLapse_not hs hk hno,
    fun st i r s hs hk hacc hi hst hbest => ?_⟩
  · rw [exec_secondBoundary, State.whenPowered_powered hs, State.secondBoundary, if_pos hdue]
    exact ⟨_, rfl, rfl, rfl, fun st => s.station_map_countKeep st, rfl, rfl⟩
  · have hdue : s.board.waitDue i.val = true := by
      unfold Board.waitDue
      rw [hr]
      exact decide_eq_true hwait
    rw [exec_waitExpiry, State.whenPowered_powered hs]
    exact congrArg _ (if_pos hdue)
  · obtain ⟨hno, hyes⟩ := State.releaseStanding_best hacc hi hst hbest
    rw [exec_keepLapse_due hs hk]
    intro outranks
    refine ⟨fun h => congrArg _ (hno h), fun h _ => ?_⟩
    obtain ⟨work, board, standing, lastApplied, mode, base⟩ := hyes h
    exact ⟨_, rfl, work, board, standing, lastApplied, mode, fun hrole hbases => base hrole (by
      obtain ⟨u, role⟩ := st
      cases hrole
      exact hbases u)⟩

end Sys2Proof.Machine
end

section
/-! PROOFS. Samples, drains, drives and their timers (R68 to R81, R139). -/

namespace Sys2Proof.Machine

variable {a b s t : State} {u : Train} {e : Int} {g : Nat} {p : Positioner} {q : CrusherParams} {now : Nat}

/-! ### The error and the drive of a move (R71, R72) -/

theorem State.gapError_eq (hg : (s.gap u).gap = some g) :
    s.gapError u = some (((s.station (crusherOf u)).standing.target : Int) - g) := by
  rw [State.gapError, hg]
  rfl

theorem Positioner.mayBegin_iff {d : Direction} {deadTime : Nat} :
    p.mayBegin now deadTime d = true ↔
      p.lastEnd.direction = some d ∨ deadTime ≤ elapsed now p.lastEnd.uptime := by
  simp [Positioner.mayBegin]

/-- The Positioner with the drive of a move on (R71, R75). -/
def Positioner.driven (q : CrusherParams) (e : Int) (p : Positioner) : Positioner :=
  { p with
    state := .driving, drive := some ⟨moveDirection e, q.moveDuty e⟩, pendingDrive := none
    valve := ⟨q.moveDuty e, 0⟩ }

/-- The Positioner with the drive of a move pending (R71, R75). -/
def Positioner.waiting (q : CrusherParams) (e : Int) (p : Positioner) : Positioner :=
  { p with
    state := .deadTime
    pendingDrive := some ⟨moveDirection e, q.moveDuty e, ⟨p.lastEnd.uptime, q.deadTime⟩⟩ }

theorem Positioner.askMove_begins
    (h : p.lastEnd.direction = some (moveDirection e) ∨ q.deadTime ≤ elapsed now p.lastEnd.uptime) :
    p.askMove now q e = p.driven q e := by
  rw [Positioner.askMove, Positioner.ask, if_pos (Positioner.mayBegin_iff.mpr h)]
  rfl

theorem Positioner.askMove_waits (hd : p.drive = none) (hne : p.lastEnd.direction ≠ some (moveDirection e))
    (h : elapsed now p.lastEnd.uptime < q.deadTime) : p.askMove now q e = p.waiting q e := by
  have hno : ¬p.mayBegin now q.deadTime (moveDirection e) = true := by
    rw [Positioner.mayBegin_iff]
    exact fun h' => h'.elim hne (by omega)
  rw [Positioner.askMove, Positioner.ask, if_neg hno]
  simp [Positioner.waiting, hd]

theorem Positioner.driveOff_none (h : p.drive = none) : p.driveOff now = p := by
  simp only [Positioner.driveOff, h]

theorem Positioner.driveOff_some {d : Drive} (h : p.drive = some d) :
    p.driveOff now = { p with drive := none, lastEnd := ⟨now, some d.direction⟩, valve := ⟨0, 0⟩ } := by
  simp only [Positioner.driveOff, h]

/-- A move ended, field by field (R78). -/
theorem Positioner.ended_eq (now : Nat) (p : Positioner) :
    p.ended now =
      { p with
        state := .idle
        drive := none
        pendingDrive := none
        lastEnd := match p.drive with | none => p.lastEnd | some d => ⟨now, some d.direction⟩
        valve := match p.drive with | none => p.valve | some _ => ⟨0, 0⟩
        move := none
        moveTimer := none
        lastDuration := p.moveDuration now } := by
  unfold Positioner.ended Positioner.driveOff
  cases h : p.drive <;> simp [Positioner.discardPending, h]

theorem Positioner.moveDuration_some {m : Move} (h : p.move = some m) :
    p.moveDuration now = some (min (elapsed now m.start) 4294967294) := by
  simp only [Positioner.moveDuration, h]
  rfl

/-- A move timed out, field by field (R80). -/
theorem Positioner.timeOut_eq (now : Nat) (p : Positioner) :
    p.timeOut now =
      { p with
        state := .fault
        drive := none
        pendingDrive := none
        lastEnd := match p.drive with | none => p.lastEnd | some d => ⟨now, some d.direction⟩
        valve := match p.drive with | none => p.valve | some _ => ⟨0, 0⟩
        moveTimer := none } := by
  unfold Positioner.timeOut Positioner.driveOff
  cases h : p.drive <;> simp [Positioner.discardPending, h]

/-! ### Directions -/

theorem moveDirection_eq_iff {d : Direction} : d = moveDirection e ↔ (d = .opening ↔ 0 < e) := by
  unfold moveDirection
  cases d <;> by_cases h : 0 < e <;> simp [h]

theorem moveDirection_other {d : Direction} (h : ¬(d = .opening ↔ 0 < e)) : moveDirection e = d.other := by
  unfold moveDirection
  cases d <;> by_cases he : 0 < e <;> simp [he, Direction.other] at h ⊢

/-! ### The steering of a move (R77) -/

theorem Positioner.steer_same {d : Drive} (hd : p.drive = some d) (h : d.direction = .opening ↔ 0 < e) :
    p.steer now q e = { p with drive := some ⟨d.direction, q.moveDuty e⟩ } := by
  simp only [Positioner.steer, hd]
  exact if_pos (moveDirection_eq_iff.mpr h)

/-- A reversed error in DRIVING: the other drive waits out the dead time (R77). -/
theorem Positioner.steer_reversed {d : Drive} (hd : p.drive = some d) (h : ¬(d.direction = .opening ↔ 0 < e))
    (hdead : 0 < q.deadTime) :
    p.steer now q e =
      { p with
        state := .deadTime, drive := none, lastEnd := ⟨now, some d.direction⟩
        pendingDrive := some ⟨d.direction.other, q.moveDuty e, ⟨now, q.deadTime⟩⟩, valve := ⟨0, 0⟩ } := by
  have hother := moveDirection_other h
  have hne : d.direction ≠ d.direction.other := by cases d.direction <;> decide
  have hoff := Positioner.driveOff_some (now := now) hd
  simp only [Positioner.steer, hd]
  refine (if_neg (mt moveDirection_eq_iff.mp h)).trans ?_
  rw [Positioner.askMove_waits]
  · rw [hoff, Positioner.waiting, hother]
  · rw [hoff]
  · rw [hoff, hother]
    simpa using hne
  · rw [hoff]
    simpa [elapsed_self] using hdead

theorem Positioner.steerPending_same {d : PendingDrive} (hd : p.pendingDrive = some d)
    (h : d.direction = .opening ↔ 0 < e) :
    p.steerPending now q e = { p with pendingDrive := some ⟨d.direction, q.moveDuty e, d.deadTime⟩ } := by
  simp only [Positioner.steerPending, hd]
  exact if_pos (moveDirection_eq_iff.mpr h)

theorem Positioner.steerPending_reversed {d : PendingDrive} (hd : p.pendingDrive = some d)
    (h : ¬(d.direction = .opening ↔ 0 < e)) : p.steerPending now q e = p.askMove now q e := by
  simp only [Positioner.steerPending, hd]
  exact if_neg (mt moveDirection_eq_iff.mp h)

/-! ### Moves judged, started and ended -/

section judged

variable {f : Nat → CrusherParams → Int → Positioner → Positioner}

theorem State.judgeMove_outside (hg : (s.gap u).gap = some g)
    (h : (s.crusher u).deadband / 2 < (((s.station (crusherOf u)).standing.target : Int) - g).natAbs) :
    s.judgeMove u f =
      s.modPositioner u (f s.now (s.crusher u) (((s.station (crusherOf u)).standing.target : Int) - g)) := by
  unfold State.judgeMove
  rw [State.gapError_eq hg]
  exact if_neg (by simpa [CrusherParams.settleBand] using h)

theorem State.judgeMove_within (h : ∀ g, (s.gap u).gap = some g →
      (((s.station (crusherOf u)).standing.target : Int) - g).natAbs ≤ (s.crusher u).deadband / 2) :
    s.judgeMove u f = s.endMove u := by
  unfold State.judgeMove
  cases hg : (s.gap u).gap with
  | none =>
    have : s.gapError u = none := by rw [State.gapError, hg]; rfl
    rw [this]
  | some g =>
    rw [State.gapError_eq hg]
    exact if_pos (h g hg)

end judged

/-- A move that ends out of RESTORING (R78). -/
theorem State.endMove_eq (h : (s.supervisor u).relief ≠ .restoring) :
    s.endMove u = (s.modPositioner u (Positioner.ended s.now)).removeHold u .gapMove := by
  rw [MoveClosed.endMove_eq]
  exact if_neg (by simpa [State.removeHold] using h)

/-- A move driven at once or after the dead time, its timer running (R74, R75). -/
def Positioner.moving (now : Nat) (q : CrusherParams) (e : Int) (p : Positioner) : Positioner :=
  { p with moveTimer := some ⟨now, q.moveLimit * 1000⟩ }.askMove now q e

theorem State.driveMove_eq (s : State) (u : Train) (e : Int) :
    s.driveMove u e = s.modPositioner u (Positioner.moving s.now (s.crusher u) e) := rfl

/-- GAP_MOVE as a move that starts leaves it (R73). -/
def Governor.moveHeld (adjust : Bool) (g : Governor) : Governor := if adjust then g.release .gapMove else g.hold .gapMove

theorem Governor.moveHeld_gapMove (adjust : Bool) (g : Governor) : (g.moveHeld adjust).holds.gapMove = !adjust := by
  cases adjust
  · exact g.hold_has .gapMove
  · exact g.release_has .gapMove

/-- A move that drives at once (R73, R74). -/
theorem State.startMove_drives (h : (s.crusher u).loadAdjust = true ∨ (s.crusher u).drainTime = 0) :
    s.startMove u e =
      (s.modPositioner u fun p =>
        Positioner.moving s.now (s.crusher u) e { p with move := some ⟨s.now, (s.crusher u).loadAdjust⟩ }).modGovernor u
          (Governor.moveHeld (s.crusher u).loadAdjust) := by
  have hset {α : Type} (x : Quad α) (y z : α) : (x.set u y).set u z = x.set u z := by cases u <;> rfl
  rw [State.startMove]
  dsimp only
  cases hadjust : (s.crusher u).loadAdjust with
  | true =>
    rw [if_pos rfl, State.driveMove_eq]
    simp only [State.removeHold, State.modGovernor, State.modPositioner, State.positioner, Quad.get_set_self, hset]
    rfl
  | false =>
    rw [if_neg Bool.false_ne_true, if_pos (h.resolve_left (by simp [hadjust])), State.driveMove_eq]
    simp only [State.addHold, State.modGovernor, State.modPositioner, State.positioner, Quad.get_set_self, hset]
    rfl

/-- A move that drains first (R73, R74). -/
theorem State.startMove_drains (h : (s.crusher u).loadAdjust = false) (hdrain : (s.crusher u).drainTime ≠ 0) :
    s.startMove u e =
      (s.modGovernor u fun g => g.hold .gapMove).modPositioner u fun p =>
        { p with
          state := .draining, move := some ⟨s.now, false⟩
          drainTimer := some ⟨s.now, (s.crusher u).drainTime * 1000⟩ } := by
  have hset {α : Type} (x : Quad α) (y z : α) : (x.set u y).set u z = x.set u z := by cases u <;> rfl
  rw [State.startMove]
  dsimp only
  rw [h, if_neg Bool.false_ne_true, if_neg hdrain]
  simp only [State.addHold, State.modGovernor, State.modPositioner, State.positioner, Quad.get_set_self, hset]
  rfl

theorem Positioner.moving_move (now : Nat) (q : CrusherParams) (e : Int) (p : Positioner) :
    (p.moving now q e).move = p.move ∧ (p.moving now q e).moveTimer = some ⟨now, q.moveLimit * 1000⟩ := by
  unfold Positioner.moving Positioner.askMove Positioner.ask
  split <;> exact ⟨rfl, rfl⟩

/-! ### Samples (R68, R77) -/

theorem exec_sampleExpiry_due (hs : s.powered = true)
    (hdue : (s.positioner u).sampleTimer.length ≤ elapsed s.now (s.positioner u).sampleTimer.start) :
    exec (.sampleExpiry u) s =
      .next ((s.sampleAction u).modPositioner u fun p =>
        { p with sampleTimer := ⟨s.now, (s.crusher u).sampleInterval⟩ }) := by
  rw [exec_sampleExpiry, State.whenPowered_powered hs]
  exact congrArg _ (if_pos (decide_eq_true hdue))

theorem State.sampleAction_idle (h : (s.positioner u).state = .idle) : s.sampleAction u = s.driftTest u := by
  unfold State.sampleAction
  rw [h]

theorem State.sampleAction_driving (h : (s.positioner u).state = .driving) :
    s.sampleAction u = s.judgeMove u Positioner.steer := by
  unfold State.sampleAction
  rw [h]

theorem State.sampleAction_deadTime (h : (s.positioner u).state = .deadTime) :
    s.sampleAction u = s.judgeMove u Positioner.steerPending := by
  unfold State.sampleAction
  rw [h]

theorem State.sampleAction_still (h : (s.positioner u).state ≠ .idle) (h1 : (s.positioner u).state ≠ .driving)
    (h2 : (s.positioner u).state ≠ .deadTime) : s.sampleAction u = s := by
  unfold State.sampleAction
  split <;> first | rfl | contradiction

theorem State.driftTest_within (hg : (s.gap u).gap = some g)
    (h : (((s.station (crusherOf u)).standing.target : Int) - g).natAbs ≤ (s.crusher u).deadband) :
    s.driftTest u = s := by
  unfold State.driftTest
  rw [State.gapError_eq hg]
  exact if_pos h

theorem State.driftTest_beyond (hg : (s.gap u).gap = some g)
    (h : (s.crusher u).deadband < (((s.station (crusherOf u)).standing.target : Int) - g).natAbs) :
    s.driftTest u = s.startMove u (((s.station (crusherOf u)).standing.target : Int) - g) := by
  unfold State.driftTest
  rw [State.gapError_eq hg]
  exact if_neg (by omega)

/-- A sample in DRIVING or DEAD_TIME outside the settle band is its steering and its timer. -/
theorem exec_sampleExpiry_steered {f : Nat → CrusherParams → Int → Positioner → Positioner} (hs : s.powered = true)
    (hdue : (s.positioner u).sampleTimer.length ≤ elapsed s.now (s.positioner u).sampleTimer.start)
    (haction : s.sampleAction u = s.judgeMove u f) (hg : (s.gap u).gap = some g)
    (h : (s.crusher u).deadband / 2 < (((s.station (crusherOf u)).standing.target : Int) - g).natAbs) :
    exec (.sampleExpiry u) s =
      .next (s.modPositioner u fun p =>
        { f s.now (s.crusher u) (((s.station (crusherOf u)).standing.target : Int) - g) p with
          sampleTimer := ⟨s.now, (s.crusher u).sampleInterval⟩ }) := by
  rw [exec_sampleExpiry_due hs hdue, haction, State.judgeMove_outside hg h, State.modPositioner_modPositioner]

end Sys2Proof.Machine
end

section
/-! PROOFS. The obligations on samples, drains and drive timers (R70 to R81, R88, R139). -/

namespace Sys2Proof.Machine

variable {a b s t : State} {u : Train} {e : Int} {g : Nat}

theorem State.modPositioner_congr {f h : Positioner → Positioner} (hf : f (s.positioner u) = h (s.positioner u)) :
    s.modPositioner u f = s.modPositioner u h := by
  rw [State.modPositioner, hf]
  rfl

theorem State.modGovernor_modPositioner (s : State) (u : Train) (f : Governor → Governor)
    (h : Positioner → Positioner) :
    (s.modPositioner u h).modGovernor u f = (s.modGovernor u f).modPositioner u h := rfl

/-- Settles O39: the steering of DRIVING and of DEAD_TIME, case by case. -/
theorem sampleSteersTheMove : Obligations.SampleSteersTheMove := by
  intro u g s hs hdue hg e p duty again
  have hdrive (hstate : (s.positioner u).state = .driving) :=
    exec_sampleExpiry_steered (f := Positioner.steer) hs hdue (State.sampleAction_driving hstate) hg
  have hpend (hstate : (s.positioner u).state = .deadTime) :=
    exec_sampleExpiry_steered (f := Positioner.steerPending) hs hdue (State.sampleAction_deadTime hstate) hg
  refine ⟨fun d hstate hd hout hway => ?_, fun d hstate hd hout hway hdead => ?_, fun d hstate hd hout hway => ?_,
    fun d hstate hd hoff hout hway => ⟨fun hmay => ?_, fun hne hwait => ?_⟩, fun h0 h1 h2 => ?_⟩
  · rw [hdrive hstate hout]
    refine congrArg _ (State.modPositioner_congr ?_)
    rw [Positioner.steer_same hd hway]
    rfl
  · rw [hdrive hstate hout]
    refine congrArg _ (State.modPositioner_congr ?_)
    rw [Positioner.steer_reversed hd hway hdead]
    rfl
  · rw [hpend hstate hout]
    refine congrArg _ (State.modPositioner_congr ?_)
    rw [Positioner.steerPending_same hd hway]
    rfl
  · rw [hpend hstate hout]
    refine congrArg _ (State.modPositioner_congr ?_)
    rw [Positioner.steerPending_reversed hd hway, Positioner.askMove_begins (by rw [moveDirection_other hway]; exact hmay),
      Positioner.driven, moveDirection_other hway]
    rfl
  · rw [hpend hstate hout]
    refine congrArg _ (State.modPositioner_congr ?_)
    rw [Positioner.steerPending_reversed hd hway,
      Positioner.askMove_waits hoff (by rw [moveDirection_other hway]; exact hne) hwait,
      Positioner.waiting, moveDirection_other hway, ← hstate]
    rfl
  · rw [exec_sampleExpiry_due hs hdue, State.sampleAction_still h0 h1 h2]

/-- What a move's start says of its drive, by the last drive end (R71, R75). -/
theorem Positioner.moving_drive (now : Nat) (q : CrusherParams) (e : Int) (p : Positioner) (hd : p.drive = none) :
    if p.lastEnd.direction = some (moveDirection e) ∨ q.deadTime ≤ elapsed now p.lastEnd.uptime then
      (p.moving now q e).state = .driving ∧ (p.moving now q e).drive = some ⟨moveDirection e, q.moveDuty e⟩
    else
      (p.moving now q e).state = .deadTime ∧ (p.moving now q e).drive = none ∧
        (p.moving now q e).pendingDrive =
          some ⟨moveDirection e, q.moveDuty e, ⟨p.lastEnd.uptime, q.deadTime⟩⟩ := by
  unfold Positioner.moving
  split
  · next h =>
    have hbegins := Positioner.askMove_begins (p := { p with moveTimer := some ⟨now, q.moveLimit * 1000⟩ }) h
    exact ⟨congrArg Positioner.state hbegins, congrArg Positioner.drive hbegins⟩
  · next h =>
    obtain ⟨hne, hwait⟩ := not_or.mp h
    have hwaits := Positioner.askMove_waits (p := { p with moveTimer := some ⟨now, q.moveLimit * 1000⟩ }) hd hne
      (Nat.lt_of_not_le hwait)
    exact ⟨congrArg Positioner.state hwaits, (congrArg Positioner.drive hwaits).trans hd,
      congrArg Positioner.pendingDrive hwaits⟩

theorem exec_drainExpiry_due {k : Timer} (hs : s.powered = true) (hstate : (s.positioner u).state = .draining)
    (hk : (s.positioner u).drainTimer = some k) (hdue : k.length ≤ elapsed s.now k.start)
    (hg : (s.gap u).gap = some g)
    (he : e = ((s.station (crusherOf u)).standing.target : Int) - g) :
    exec (.drainExpiry u) s =
      .next (if e.natAbs ≤ (s.crusher u).deadband / 2 then
          (s.modPositioner u fun p => { p with drainTimer := none }).endMove u
        else (s.modPositioner u fun p => { p with drainTimer := none }).driveMove u e) := by
  have hexpired : timerExpired (s.positioner u).drainTimer s.now = true := by
    rw [hk]
    exact decide_eq_true hdue
  have herror : (s.modPositioner u fun p => { p with drainTimer := none }).gapError u = some e := by
    subst he
    exact State.gapError_eq (s := s.modPositioner u _) hg
  rw [exec_drainExpiry, State.whenPowered_powered hs]
  refine congrArg _ ((if_pos (by simp [hstate, hexpired])).trans ?_)
  dsimp only
  rw [herror]
  rfl

/-- Settles O38: the drift test and the drain, by where the error lies. -/
theorem movesStartByDriftAndDrain : Obligations.MovesStartByDriftAndDrain := by
  refine ⟨?_, ?_⟩
  · intro u g s hs hstate hdue hg e p again
    have hsample := exec_sampleExpiry_due hs hdue
    rw [State.sampleAction_idle hstate] at hsample
    refine ⟨fun hwithin => ?_, fun hout hadjust hdrain => ?_, fun hout hnow => ?_⟩
    · rw [hsample, State.driftTest_within hg hwithin]
    · rw [hsample, State.driftTest_beyond hg hout, State.startMove_drains hadjust hdrain,
        State.modPositioner_modPositioner]
    · rw [State.driftTest_beyond hg hout, State.startMove_drives hnow] at hsample
      have hgov : ((s.governor u).moveHeld p.loadAdjust) =
          (if p.loadAdjust then (s.governor u).release .gapMove else (s.governor u).hold .gapMove) := rfl
      obtain ⟨hmove, htimer⟩ := Positioner.moving_move s.now p e
        { s.positioner u with move := some ⟨s.now, p.loadAdjust⟩ }
      set moved := Positioner.moving s.now p e { s.positioner u with move := some ⟨s.now, p.loadAdjust⟩ } with hmoved
      have hpositioner : ((((s.modPositioner u fun q => Positioner.moving s.now p e
          { q with move := some ⟨s.now, p.loadAdjust⟩ }).modGovernor u (Governor.moveHeld p.loadAdjust)).modPositioner u
            fun q => { q with sampleTimer := again }).positioner u) = { moved with sampleTimer := again } := by
        rw [State.positioner_modPositioner, State.modGovernor_positioner_read, State.positioner_modPositioner]
      have hgovernor : ((((s.modPositioner u fun q => Positioner.moving s.now p e
          { q with move := some ⟨s.now, p.loadAdjust⟩ }).modGovernor u (Governor.moveHeld p.loadAdjust)).modPositioner u
            fun q => { q with sampleTimer := again }).governor u) = (s.governor u).moveHeld p.loadAdjust := by
        rw [State.modPositioner_governor_read, State.governor_modGovernor]
        rfl
      refine ⟨_, hsample, rfl, ?_, hgovernor, ?_, ?_, ?_, ?_, fun hd => ?_⟩
      · exact ((s.othersKept_modPositioner u _).trans (State.othersKept_modGovernor _ u _)).trans
          (State.othersKept_modPositioner _ u _)
      · exact (congrArg (fun x => x.holds.gapMove) hgovernor).trans (Governor.moveHeld_gapMove ..)
      · exact (congrArg Positioner.move hpositioner).trans hmove
      · exact (congrArg Positioner.moveTimer hpositioner).trans htimer
      · exact congrArg Positioner.sampleTimer hpositioner
      · have hdrive := Positioner.moving_drive s.now p e { s.positioner u with move := some ⟨s.now, p.loadAdjust⟩ } hd
        rw [← hmoved] at hdrive
        rw [hpositioner]
        exact hdrive
  · intro u k m g s hs hstate hk hdue hoff hm hg e p way
    have hexec := exec_drainExpiry_due (e := e) hs hstate hk hdue hg rfl
    refine ⟨fun hout hmay => ?_, fun hout hne hwait => ?_, fun hwithin hrelief => ?_⟩
    · rw [hexec, if_neg (Nat.not_le.mpr hout), State.driveMove_eq, State.modPositioner_modPositioner]
      refine congrArg _ (State.modPositioner_congr ?_)
      exact Positioner.askMove_begins hmay
    · rw [hexec, if_neg (Nat.not_le.mpr hout), State.driveMove_eq, State.modPositioner_modPositioner]
      refine congrArg _ (State.modPositioner_congr ?_)
      exact Positioner.askMove_waits hoff hne hwait
    · rw [hexec, if_pos hwithin, State.endMove_eq (by simpa using hrelief), State.modPositioner_modPositioner]
      refine congrArg (fun x => Host.Outcome.next (State.removeHold x u .gapMove)) (State.modPositioner_congr ?_)
      rw [Positioner.ended_eq]
      dsimp only
      rw [Positioner.moveDuration_some (by exact hm), hoff]
      rfl

/-! ### The end of a move in RESTORING (R78, R139) -/

theorem State.arriveIdle_restoring (h : (s.supervisor u).relief = .restoring)
    (hsel : (s.station (crusherOf u)).lastAccepting = true ∨ s.board.waitingFor (crusherOf u) = 0) :
    s.arriveIdle u =
      (s.episodeEnded u).modStation (crusherOf u) fun r =>
        { r with lastAccepting := (s.episodeEnded u).accepting (crusherOf u) } := by
  refine (if_pos h).trans (State.evaluateWith_eq (s := s.episodeEnded u) (.inr ?_))
  exact hsel.imp_right fun hw => Board.waitingFor_eq_zero_iff.mp hw

theorem State.episodeEnded_supervisor (s : State) (u : Train) :
    (s.episodeEnded u).supervisor u = { s.supervisor u with relief := .normal } :=
  s.supervisor_modSupervisor u fun v => { v with relief := .normal }

theorem State.episodeEnded_governor (s : State) (u : Train) :
    (s.episodeEnded u).governor u = (s.governor u).release .relief :=
  s.governor_modGovernor u fun g => g.release .relief

/-- Settles O40: the end of a move, and in RESTORING the end of the relief episode. -/
theorem moveEndsWithinTheSettleBand : Obligations.MoveEndsWithinTheSettleBand := by
  have hact {u : Train} {s : State} (hstate : (s.positioner u).state = .driving ∨ (s.positioner u).state = .deadTime)
      (hwithin : ∀ g, (s.gap u).gap = some g →
        (((s.station (crusherOf u)).standing.target : Int) - g).natAbs ≤ (s.crusher u).deadband / 2) :
      s.sampleAction u = s.endMove u := by
    rcases hstate with h | h
    · rw [State.sampleAction_driving h, State.judgeMove_within hwithin]
    · rw [State.sampleAction_deadTime h, State.judgeMove_within hwithin]
  refine ⟨?_, ?_⟩
  · intro u m s hs hdue hstate hwithin hm hrelief
    rw [exec_sampleExpiry_due hs hdue, hact hstate hwithin, State.endMove_eq hrelief]
    refine congrArg Host.Outcome.next ?_
    rw [State.removeHold, ← State.modGovernor_modPositioner, State.modPositioner_modPositioner]
    refine congrArg (fun x => State.modGovernor x u fun g => g.release .gapMove) (State.modPositioner_congr ?_)
    rw [Positioner.ended_eq, Positioner.moveDuration_some hm] <;> rfl
  · intro u s hs hdue hstate hwithin hrelief hsel
    have hmoves : Moves u s (s.endMove u) := (Moves.refl s).endMove
    have hkept : ((s.modPositioner u (Positioner.ended s.now)).removeHold u .gapMove).supervisor u = s.supervisor u ∧
        ((s.modPositioner u (Positioner.ended s.now)).removeHold u .gapMove).station (crusherOf u) =
          s.station (crusherOf u) ∧
        ((s.modPositioner u (Positioner.ended s.now)).removeHold u .gapMove).board = s.board ∧
        ((s.modPositioner u (Positioner.ended s.now)).removeHold u .gapMove).conditions = s.conditions ∧
        ((s.modPositioner u (Positioner.ended s.now)).removeHold u .gapMove).positioner u = (s.positioner u).ended s.now ∧
        ((s.modPositioner u (Positioner.ended s.now)).removeHold u .gapMove).governor u =
          (s.governor u).release .gapMove := by
      simp [State.removeHold]
    have hend := MoveClosed.endMove_eq s u
    generalize (s.modPositioner u (Positioner.ended s.now)).removeHold u .gapMove = w at *
    obtain ⟨hsupervisor, hstation, hboard, hconditions, hpositioner, hgovernor⟩ := hkept
    rw [State.arriveIdle_restoring (by rw [hsupervisor]; exact hrelief) (by rw [hstation, hboard]; exact hsel)] at hend
    rw [exec_sampleExpiry_due hs hdue, hact hstate hwithin]
    refine ⟨_, rfl, hmoves.workOf.trans (State.workOf_modPositioner _ u _), ?_⟩
    rw [hend]
    refine ⟨?_, ?_, ?_, ?_, ?_, ?_, ?_, ?_⟩
    · rw [State.modPositioner_supervisor_read, State.modStation_supervisor_read, State.episodeEnded_supervisor]
    · rw [State.modPositioner_governor_read, State.modStation_governor_read, State.episodeEnded_governor]
      exact Governor.release_has _ .relief
    · rw [State.modPositioner_governor_read, State.modStation_governor_read, State.episodeEnded_governor, hgovernor]
      show ((((s.governor u).release .gapMove).release .relief).holds).has .gapMove = false
      rw [(Governor.release_keeps _ .relief).1, Governor.release_has]
      rfl
    · rw [← hconditions]
      rfl
    · exact hboard
    · rw [State.positioner_modPositioner, State.modStation_positioner_read]
      exact (congrArg Positioner.state hpositioner).trans rfl
    · rw [State.positioner_modPositioner, State.modStation_positioner_read]
      exact (congrArg Positioner.drive hpositioner).trans (congrArg Positioner.drive (Positioner.ended_eq ..))
    · rw [State.modPositioner_station_read, State.station_modStation]
      exact (congrArg StationRecord.standing hstation : (w.station (crusherOf u)).standing = _)
/-! ### The drive timers (R71, R76, R80, R88) -/

/-- The drive that was pending, begun (R76). -/
theorem Positioner.beginPending_eq {p : Positioner} {d : PendingDrive} (hd : p.pendingDrive = some d) :
    p.beginPending =
      { p with
        state := if p.state = .deadTime then .driving else p.state
        drive := some ⟨d.direction, d.duty⟩, pendingDrive := none, valve := ⟨d.duty, 0⟩ } := by
  simp only [Positioner.beginPending, hd]
  rfl

theorem exec_deadTimeExpiry_due {d : PendingDrive} (hs : s.powered = true) (hd : (s.positioner u).pendingDrive = some d)
    (hdue : d.deadTime.length ≤ elapsed s.now d.deadTime.start) :
    exec (.deadTimeExpiry u) s =
      .next (if (s.positioner u).state = .lent then (s.modPositioner u Positioner.beginPending).driveBegan
        else s.modPositioner u Positioner.beginPending) := by
  have h : s.deadTimeDue u = true := by
    rw [State.deadTimeDue, hd]
    exact decide_eq_true hdue
  rw [exec_deadTimeExpiry, State.whenPowered_powered hs]
  refine congrArg _ ((if_pos h).trans ?_)
  by_cases hl : (s.positioner u).state = .lent
  · rw [if_pos hl]
  · rw [if_neg hl]

theorem exec_moveTimerExpiry_due {k : Timer} (hs : s.powered = true)
    (hstate : (s.positioner u).state = .driving ∨ (s.positioner u).state = .deadTime)
    (hk : (s.positioner u).moveTimer = some k) (hdue : k.length ≤ elapsed s.now k.start) :
    exec (.moveTimerExpiry u) s =
      .next (((s.modPositioner u (Positioner.timeOut s.now)).modStation (crusherOf u) fun r =>
          { r with lastAccepting := false }).modConditions fun l =>
        (l.onset .moveTimeout (.crusher u) none s.stamp).causeEnded .moveTimeout (.crusher u)) := by
  have hexpired : timerExpired (s.positioner u).moveTimer s.now = true := by
    rw [hk]
    exact decide_eq_true hdue
  have hno : (s.modPositioner u (Positioner.timeOut s.now)).accepting (crusherOf u) = false := by
    simp [State.accepting, crusherOf, Positioner.timeOut]
  have heval := State.evaluate_eq (.inl hno)
  rw [hno] at heval
  rw [exec_moveTimerExpiry, State.whenPowered_powered hs]
  refine congrArg _ ((if_pos ?_).trans (congrArg (fun x => (State.onset x .moveTimeout (.crusher u) none).causeEnd .moveTimeout
    (.crusher u)) heval))
  simpa [hexpired] using hstate

/-- Settles O41: the dead time, the move timer and the jog time. -/
theorem driveTimersExpire : Obligations.DriveTimersExpire := by
  refine ⟨?_, ?_, ?_⟩
  · intro u d s hs hd begun
    have hbegin := Positioner.beginPending_eq hd
    refine ⟨fun hrun => ?_, fun hdue hstate => ?_, fun hdue hstate => ?_, fun hdue hstate => ?_⟩
    · have hno : ¬s.deadTimeDue u = true := by
        rw [State.deadTimeDue, hd]
        exact fun h => absurd (of_decide_eq_true h) (by omega)
      rw [exec_deadTimeExpiry, State.whenPowered_powered hs]
      exact congrArg _ (if_neg hno)
    · rw [exec_deadTimeExpiry_due hs hd hdue, if_neg (by simp [hstate])]
      refine congrArg _ (State.modPositioner_congr ?_)
      exact hbegin.trans (by rw [if_pos hstate])
    · rw [exec_deadTimeExpiry_due hs hd hdue, if_neg (by simp [hstate])]
      refine congrArg _ (State.modPositioner_congr ?_)
      exact hbegin.trans (by rw [if_neg (by simp [hstate])])
    · have hbegun : s.modPositioner u Positioner.beginPending = s.modPositioner u begun := by
        refine State.modPositioner_congr ?_
        exact hbegin.trans (by rw [if_neg (by simp [hstate])])
      rw [exec_deadTimeExpiry_due hs hd hdue, if_pos hstate, hbegun]
      refine congrArg Host.Outcome.next ?_
      rw [State.driveBegan]
      by_cases happroach : s.sequencer.state = .approach
      · exact (if_pos happroach).trans (by simp [happroach])
      · refine (if_neg happroach).trans ?_
        simp only [happroach, if_false]
        rfl
  · intro u k s hs hstate hk hdue
    rw [exec_moveTimerExpiry_due hs hstate hk hdue]
    refine congrArg (fun x => Host.Outcome.next ((State.modStation x (crusherOf u) _).modConditions _))
      (State.modPositioner_congr ?_)
    exact Positioner.timeOut_eq ..
  · intro u j s hs hstate hj
    refine ⟨fun hrun => ?_, fun hend hreasons => ?_⟩
    · have hno : ¬s.jogDue u = true := by
        simp [State.jogDue, hj, Nat.pos_iff_ne_zero.mp hrun]
      rw [exec_jogTimeEnd, State.whenPowered_powered hs]
      exact congrArg _ (if_neg hno)
    · have hyes : s.jogDue u = true := by
        simp [State.jogDue, hj, hend, hstate]
      rw [exec_jogTimeEnd, State.whenPowered_powered hs]
      exact congrArg _ ((if_pos hyes).trans (State.endJog_eq hreasons))

end Sys2Proof.Machine
end

section
/-! PROOFS. The checks of requests, each owner's own (R10, R18, R22, R31, R87, R97, R108, R153). -/

namespace Sys2Proof.Machine

variable {s t : State} {l : Link} {tag b : Byte} {k : Kind} {u : Train} {st : Station} {status : Status}

/-! ### A request answered by its owner -/

/-- A request whose owner refuses it changes nothing but the reply. -/
theorem State.takeRequest_refused {owner : State → Decision} (hs : s.takesOn l) (hk : k.allowed l = true)
    (h : owner (s.replyBegins l) = (s.replyBegins l).refuse status) :
    s.takeRequest l tag k true owner = s.answered l tag k.code (Answer.refuse status) :=
  State.takeRequest_answered (t := s) hs hk h

/-- A request whose owner leaves the links changes them by its reply alone. -/
theorem Decision.repliedBy {d : Decision} (h : d.state.links = (s.replyBegins l).links) :
    s.repliedBy (d.reply l tag k.code) l tag k d.answer := by
  show (d.state.modLink l _).links = ((s.modLink l _)).links
  have hlink : d.state.link l = (s.replyBegins l).link l := congrArg (PerLink.get · l) h
  rw [State.modLink, hlink]
  simp only [State.replyBegins, State.modLink, State.link, PerLink.get_set_self] at h ⊢
  rw [h, PerLink.set_set]
  rfl

/-! ### Stations named by a byte (R178) -/

theorem ofNumber_of (h : b.toNat = st.number) : Station.ofNumber b.toNat = some st := by
  rw [h]
  exact ofNumber_number st

theorem ofNumber_above {n : Nat} (h : 7 < n) : Station.ofNumber n = none := by
  match n, h with
  | n + 8, _ => rfl

theorem State.withPresent_present {f : Station → Decision} (hb : b.toNat = st.number)
    (hp : s.present st.train = true) : s.withPresent b f = f st := by
  unfold State.withPresent
  rw [ofNumber_of hb]
  exact if_pos hp

theorem State.withPresent_bad {f : Station → Decision}
    (h : 7 < b.toNat ∨ ∃ st : Station, b.toNat = st.number ∧ s.present st.train = false) :
    s.withPresent b f = s.refuse .badStation := by
  unfold State.withPresent
  rcases h with h | ⟨st, hb, hp⟩
  · rw [ofNumber_above h]
  · rw [ofNumber_of hb]
    exact if_neg (by simp [hp])

theorem State.withPresentCrusher_crusher {f : Train → Decision} (hb : b.toNat = (crusherOf u).number)
    (hp : s.present u = true) : s.withPresentCrusher b f = f u :=
  State.withPresent_present (st := crusherOf u) hb hp

theorem State.withPresentCrusher_feeder {f : Train → Decision} (hb : b.toNat = (feederOf u).number)
    (hp : s.present u = true) : s.withPresentCrusher b f = s.refuse .wrongKind :=
  State.withPresent_present (st := feederOf u) hb hp

theorem State.withPresentCrusher_bad {f : Train → Decision}
    (h : 7 < b.toNat ∨ ∃ st : Station, b.toNat = st.number ∧ s.present st.train = false) :
    s.withPresentCrusher b f = s.refuse .badStation := State.withPresent_bad h

theorem byteOf_number_toNat (st : Station) : (byteOf st.number).toNat = st.number := by
  obtain ⟨t, role⟩ := st
  cases t <;> cases role <;> rfl

/-! ### The refusals of the owners, before any effect -/

theorem State.ownSetting_bad {role : Role} {q : SettingRequest}
    (h : 7 < q.station.toNat ∨ ∃ st : Station, q.station.toNat = st.number ∧ s.present st.train = false) :
    s.ownSetting role q = s.refuse .badStation := State.withPresent_bad h

theorem State.ownSetting_role {role : Role} {q : SettingRequest} (hb : q.station.toNat = st.number)
    (hp : s.present st.train = true) (hrole : st.role ≠ role) : s.ownSetting role q = s.refuse .wrongKind :=
  (State.withPresent_present hb hp).trans (if_pos hrole)

section jog

variable {direction : Byte} {duty duration : Half}

theorem State.ownJog_busy (hb : b.toNat = (crusherOf u).number) (hp : s.present u = true)
    (hsub : s.isSubject u = true) : s.ownJog b direction duty duration = s.refuse .busy :=
  (State.withPresentCrusher_crusher hb hp).trans (if_pos hsub)

theorem State.ownJog_barred (hb : b.toNat = (crusherOf u).number) (hp : s.present u = true)
    (hsub : s.isSubject u = false)
    (h : (s.station (crusherOf u)).mode ≠ .maintenance ∨ (s.positioner u).state = .fault ∨
      (s.positioner u).reasons.estop = true ∨ (s.positioner u).reasons.relief = true) :
    s.ownJog b direction duty duration = s.refuse .wrongMode := by
  refine (State.withPresentCrusher_crusher hb hp).trans ((if_neg (by simp [hsub])).trans ?_)
  by_cases hmode : (s.station (crusherOf u)).mode = .maintenance
  · refine (if_neg (not_not.mpr hmode)).trans (if_pos ?_)
    rcases h.resolve_left (not_not.mpr hmode) with h | h | h <;> simp [State.jogBarred, h]
  · exact if_pos hmode

end jog

theorem State.ownStartZero_busy (hb : b.toNat = (crusherOf u).number) (hp : s.present u = true)
    (h : s.sequencer.state ≠ .idle) : s.ownStartZero b = s.refuse .busy :=
  (State.withPresentCrusher_crusher hb hp).trans (if_pos h)

theorem State.touchPossible_iff :
    s.touchPossible u = true ↔ (s.station (crusherOf u)).mode = .maintenance ∧ (s.positioner u).state ≠ .fault ∧
      s.estopAsserted = false ∧ (s.supervisor u).relief = .normal ∧ (s.gap u).validity = .valid ∧
      (s.inputs.running.get u).level = some true ∧
      ∃ a, s.inputs.power.get u = some a ∧ a.scaled ≤ (s.crusher u).emptyPower := by
  have hlevel : (s.inputs.running.get u).energized = true ↔ (s.inputs.running.get u).level = some true := by
    rw [Digital.energized]
    cases (s.inputs.running.get u).level <;> simp
  rw [State.touchPossible]
  simp only [Bool.and_eq_true, hlevel, Bool.not_eq_true', decide_eq_true_eq, and_assoc]
  cases s.inputs.power.get u <;> simp

theorem State.ownStartZero_impossible (hb : b.toNat = (crusherOf u).number) (hp : s.present u = true)
    (hidle : s.sequencer.state = .idle)
    (h : (s.station (crusherOf u)).mode ≠ .maintenance ∨ (s.positioner u).state = .fault ∨
      s.estopAsserted = true ∨ (s.supervisor u).relief ≠ .normal ∨ (s.gap u).validity ≠ .valid ∨
      (s.inputs.running.get u).level ≠ some true ∨
      ∀ a, s.inputs.power.get u = some a → (s.crusher u).emptyPower < a.scaled) :
    s.ownStartZero b = s.refuse .wrongMode := by
  have hno : ¬s.touchPossible u = true := by
    rw [State.touchPossible_iff]
    rintro ⟨h1, h2, h3, h4, h5, h6, a, h7, h8⟩
    rcases h with h | h | h | h | h | h | h
    · exact h h1
    · exact h2 h
    · simp [h3] at h
    · exact h h4
    · exact h h5
    · exact h h6
    · exact absurd (h a h7) (by omega)
  exact (State.withPresentCrusher_crusher hb hp).trans ((if_neg (not_not.mpr hidle)).trans (if_pos (by simpa using hno)))

theorem State.ownAbortZero_no_subject (hb : b.toNat = (crusherOf u).number) (hp : s.present u = true)
    (h : s.isSubject u = false) : s.ownAbortZero b = s.refuse .wrongMode :=
  (State.withPresentCrusher_crusher hb hp).trans (if_pos (by simp [h]))

/-! ### Acknowledgements (R153) -/

theorem Code.ofNumber_number (c : Code) : Code.ofNumber (byteOf c.number).toNat = some c := by cases c <;> rfl

theorem SubjectField.ofByte_station (h : b.toNat ≤ 63) : SubjectField.ofByte b = .station b.toNat := by
  unfold SubjectField.ofByte
  split <;> first | omega | rfl

theorem SubjectField.ofByte_link (h : 64 ≤ b.toNat) (h' : b.toNat ≤ 66) :
    ∃ l, SubjectField.ofByte b = .link l := by
  have hb : b.toNat = 64 ∨ b.toNat = 65 ∨ b.toNat = 66 := by omega
  unfold SubjectField.ofByte
  rcases hb with hb | hb | hb <;> rw [hb] <;> exact ⟨_, rfl⟩

theorem SubjectField.ofByte_section (h : 128 ≤ b.toNat) (h' : b.toNat ≤ 130) :
    ∃ sec, SubjectField.ofByte b = .storeSection sec := by
  have hb : b.toNat = 128 ∨ b.toNat = 129 ∨ b.toNat = 130 := by omega
  unfold SubjectField.ofByte
  rcases hb with hb | hb | hb <;> rw [hb] <;> exact ⟨_, rfl⟩

theorem SubjectField.ofByte_none (h : b.toNat = 255) : SubjectField.ofByte b = .none := by
  unfold SubjectField.ofByte
  rw [h]
  rfl

/-- The subject byte is read as a subject of this kind. -/
def SubjectField.IsOf (f : SubjectField) : SubjectKind → Prop
  | .none => f = .none
  | .crusher => ∃ n, f = .station n
  | .link => ∃ l, f = .link l
  | .storeSection => ∃ sec, f = .storeSection sec

/-- A subject byte of each kind names a subject, and is read as one of that kind (R178). -/
theorem SubjectField.isOf_ofByte {kind : SubjectKind}
    (h : kind = .none ∧ b.toNat = 255 ∨ kind = .crusher ∧ b.toNat ≤ 63 ∨ kind = .link ∧ 64 ≤ b.toNat ∧ b.toNat ≤ 66 ∨
      kind = .storeSection ∧ 128 ≤ b.toNat ∧ b.toNat ≤ 130) :
    subjectDefined b = true ∧ (SubjectField.ofByte b).IsOf kind := by
  rcases h with ⟨rfl, h⟩ | ⟨rfl, h⟩ | ⟨rfl, h, h'⟩ | ⟨rfl, h, h'⟩
  · exact ⟨by simp [subjectDefined, h], SubjectField.ofByte_none h⟩
  · exact ⟨by simp [subjectDefined, h], _, SubjectField.ofByte_station h⟩
  · exact ⟨by simp [subjectDefined, h, h'], SubjectField.ofByte_link h h'⟩
  · exact ⟨by simp [subjectDefined, h, h'], SubjectField.ofByte_section h h'⟩

theorem acknowledgedSubject_kind {code : Code} {f : SubjectField} {kind : SubjectKind} (h : f.IsOf kind)
    (hne : kind ≠ code.subjectKind) : acknowledgedSubject code f = .error .wrongKind := by
  unfold acknowledgedSubject
  cases hk : code.subjectKind <;> cases kind <;>
    first
      | exact absurd hk.symm hne
      | (obtain ⟨_, rfl⟩ := h; rfl)

theorem State.ownAcknowledge_refused {code : Code} {field : Byte}
    (h : acknowledgedSubject code (SubjectField.ofByte field) = .error status) :
    s.ownAcknowledge (byteOf code.number) field = s.refuse status := by
  unfold State.ownAcknowledge
  rw [Code.ofNumber_number]
  dsimp only
  rw [h]

theorem acknowledgeFieldsOk_of {code : Code} (h : subjectDefined b = true) :
    acknowledgeFieldsOk (byteOf code.number) b = true := by
  cases code <;> simp [acknowledgeFieldsOk, h, byteOf, Code.number]

theorem exec_acknowledge_refused {code : Code} {field : Byte} (hs : s.takesOn l) (hl : l ≠ .lc)
    (hdef : subjectDefined field = true)
    (h : acknowledgedSubject code (SubjectField.ofByte field) = .error status) :
    exec (.acknowledge l tag (byteOf code.number) field) s =
      .next (s.answered l tag Kind.acknowledge.code (Answer.refuse status)) := by
  have hallowed : Kind.acknowledge.allowed l = true := by cases l <;> first | rfl | contradiction
  rw [exec_acknowledge, State.whenPowered_powered hs.1.1, State.takeAcknowledge, acknowledgeFieldsOk_of hdef]
  exact congrArg _ (State.takeRequest_refused hs hallowed (State.ownAcknowledge_refused h))

/-! ### Parameters (R18, R22) -/

section param

variable {number : Byte} {f : Param → Decision} {set : ParamSet} {p : Param} {v : Nat}

theorem State.withParam_param (hset : ParamSet.ofByte b = some set) (hp : set.param number.toNat = some p) :
    s.withParam b number f = f p := by
  unfold State.withParam
  rw [hset]
  dsimp only
  rw [hp]

theorem State.withParam_bad (h : 7 < b.toNat) (h' : b.toNat < 255) :
    s.withParam b number f = s.refuse .badStation := by
  have hset : ParamSet.ofByte b = none := by
    rw [ParamSet.ofByte, if_neg (by omega), ofNumber_above h]
    rfl
  unfold State.withParam
  rw [hset]

theorem State.withParam_unnumbered (hset : ParamSet.ofByte b = some set) (hp : set.param number.toNat = none) :
    s.withParam b number f = s.refuse .wrongKind := by
  unfold State.withParam
  rw [hset]
  dsimp only
  rw [hp]

theorem ParamSet.ofByte_station (h : b.toNat = st.number) : ParamSet.ofByte b = some (.station st) := by
  have hn : st.number < 8 := by
    obtain ⟨t, role⟩ := st
    cases t <;> cases role <;> decide
  rw [ParamSet.ofByte, if_neg (by omega), ofNumber_of h]
  rfl

theorem ParamSet.ofByte_line (h : b.toNat = 255) : ParamSet.ofByte b = some .line := if_pos h

/-- A number that a set does not define names no parameter (R18). -/
theorem ParamSet.param_none {count : Nat} {n : Nat}
    (hset : set = .line ∧ count = 5 ∨ (∃ u, set = .station (feederOf u) ∧ count = 14) ∨
      (∃ u, set = .station (crusherOf u) ∧ count = 41)) (hn : n = 0 ∨ count < n) : set.param n = none := by
  have hcrusher (h : n = 0 ∨ 41 < n) : CrusherParam.ofNumber n = none := by
    unfold CrusherParam.ofNumber
    split
    · rfl
    · exact List.getElem?_eq_none (by have : CrusherParam.all.length = 41 := rfl; omega)
  have hfeeder (h : n = 0 ∨ 14 < n) : FeederParam.ofNumber n = none := by
    unfold FeederParam.ofNumber
    split
    · rfl
    · exact List.getElem?_eq_none (by have : FeederParam.all.length = 14 := rfl; omega)
  have hline (h : n = 0 ∨ 5 < n) : LineParam.ofNumber n = none := by
    unfold LineParam.ofNumber
    split
    · rfl
    · exact List.getElem?_eq_none (by have : LineParam.all.length = 5 := rfl; omega)
  rcases hset with ⟨rfl, rfl⟩ | ⟨u, rfl, rfl⟩ | ⟨u, rfl, rfl⟩
  · exact congrArg (Option.map _) (hline hn)
  · exact congrArg (Option.map _) (hfeeder hn)
  · exact congrArg (Option.map _) (hcrusher hn)

/-- The checks of a write, in their order (R18). -/
theorem State.writeParam_format (h : p.range.defined v = false) : s.writeParam p v = s.refuse .format :=
  if_pos (by simp [h])

theorem State.writeParam_wrongMode (hd : p.range.defined v = true) (h : s.paramModeOk p = false) :
    s.writeParam p v = s.refuse .wrongMode :=
  (if_neg (by simp [hd])).trans (if_pos (by simp [h]))

theorem State.writeParam_busy (hd : p.range.defined v = true) (hm : s.paramModeOk p = true)
    (h : s.paramBusy p v = true) : s.writeParam p v = s.refuse .busy :=
  (if_neg (by simp [hd])).trans ((if_neg (by simp [hm])).trans (if_pos h))

theorem State.anyInRun_iff :
    s.anyInRun = true ↔ ∃ st : Station, s.present st.train = true ∧ (s.station st).mode = .run := by
  have hall (st : Station) : st ∈ Station.all := by
    obtain ⟨t, role⟩ := st
    cases t <;> cases role <;> decide
  simp only [State.anyInRun, State.inRun, List.any_eq_true, Bool.and_eq_true, decide_eq_true_eq]
  exact ⟨fun ⟨st, _, h⟩ => ⟨st, h⟩, fun ⟨st, h⟩ => ⟨st, hall st, h⟩⟩

theorem ParamRange.defined_of {r : ParamRange} (h : ∀ k, r = .named k → v < k) : r.defined v = true := by
  cases r with
  | numeric => rfl
  | named k => exact decide_eq_true (h k rfl)

/-- A parameter of a station's set is of that station. -/
theorem ParamSet.param_station {n : Nat} (h : (ParamSet.station st).param n = some p) :
    st.role = .crusher ∧ (∃ q, p = .crusher st.train q) ∨ st.role = .feeder ∧ ∃ q, p = .feeder st.train q := by
  obtain ⟨t, role⟩ := st
  cases role with
  | crusher =>
    obtain ⟨q, -, rfl⟩ := Option.map_eq_some_iff.mp h
    exact .inl ⟨rfl, q, rfl⟩
  | feeder =>
    obtain ⟨q, -, rfl⟩ := Option.map_eq_some_iff.mp h
    exact .inr ⟨rfl, q, rfl⟩

theorem ParamSet.param_line {n : Nat} (h : ParamSet.line.param n = some p) : ∃ q, p = .line q := by
  obtain ⟨q, -, rfl⟩ := Option.map_eq_some_iff.mp h
  exact ⟨q, rfl⟩

end param

end Sys2Proof.Machine
end

section
/-! PROOFS. Refusals in their order (R10, R18, R22, R31, R48, R87, R97, R108, R110, R153). -/

namespace Sys2Proof.Machine

variable {s t : State} {l : Link} {tag b : Byte} {u : Train} {st : Station} {status : Status}

/-! ### One refusal for each request -/

section requests

variable {priority direction mode number set : Byte} {value keep wait duty duration : Half}

theorem exec_setGap_refused (hs : s.takesOn l) (hok : settingFieldsOk priority wait = true)
    (h : (s.replyBegins l).ownSetting .crusher ⟨l, tag, b, value, priority, keep, wait⟩ =
      (s.replyBegins l).refuse status) :
    exec (.setGap l tag b value priority keep wait) s =
      .next (s.answered l tag Kind.setGap.code (Answer.refuse status)) := by
  rw [exec_setGap, State.whenPowered_powered hs.1.1, State.takeSetGap, hok]
  exact congrArg _ (State.takeRequest_refused hs (by cases l <;> rfl) h)

theorem exec_setRate_refused (hs : s.takesOn l) (hok : settingFieldsOk priority wait = true)
    (h : (s.replyBegins l).ownSetting .feeder ⟨l, tag, b, value, priority, keep, wait⟩ =
      (s.replyBegins l).refuse status) :
    exec (.setRate l tag b value priority keep wait) s =
      .next (s.answered l tag Kind.setRate.code (Answer.refuse status)) := by
  rw [exec_setRate, State.whenPowered_powered hs.1.1, State.takeSetRate, hok]
  exact congrArg _ (State.takeRequest_refused hs (by cases l <;> rfl) h)

theorem exec_withdraw_refused (hs : s.takesOn l)
    (h : (s.replyBegins l).ownWithdraw l b = (s.replyBegins l).refuse status) :
    exec (.withdraw l tag b) s = .next (s.answered l tag Kind.withdraw.code (Answer.refuse status)) := by
  rw [exec_withdraw, State.whenPowered_powered hs.1.1]
  exact congrArg _ (State.takeRequest_refused hs (by cases l <;> rfl) h)

theorem exec_setMode_refused (hs : s.takesOn l) (hl : l ≠ .lc) (hok : mode.toNat ≤ 2)
    (h : (s.replyBegins l).ownSetMode b mode = (s.replyBegins l).refuse status) :
    exec (.setMode l tag b mode) s = .next (s.answered l tag Kind.setMode.code (Answer.refuse status)) := by
  have hallowed : Kind.setMode.allowed l = true := by cases l <;> first | rfl | contradiction
  rw [exec_setMode, State.whenPowered_powered hs.1.1, State.takeSetMode,
    show modeFieldOk mode = true from decide_eq_true hok]
  exact congrArg _ (State.takeRequest_refused hs hallowed h)

theorem exec_jog_refused (hs : s.takesOn .sv) (hok : jogFieldsOk direction duration = true)
    (h : (s.replyBegins .sv).ownJog b direction duty duration = (s.replyBegins .sv).refuse status) :
    exec (.jog .sv tag b direction duty duration) s =
      .next (s.answered .sv tag Kind.jog.code (Answer.refuse status)) := by
  rw [exec_jog, State.whenPowered_powered hs.1.1, State.takeJog, hok]
  exact congrArg _ (State.takeRequest_refused hs rfl h)

theorem exec_startZero_refused (hs : s.takesOn .sv)
    (h : (s.replyBegins .sv).ownStartZero b = (s.replyBegins .sv).refuse status) :
    exec (.startZero .sv tag b) s = .next (s.answered .sv tag Kind.startZero.code (Answer.refuse status)) := by
  rw [exec_startZero, State.whenPowered_powered hs.1.1]
  exact congrArg _ (State.takeRequest_refused hs rfl h)

theorem exec_abortZero_refused (hs : s.takesOn .sv)
    (h : (s.replyBegins .sv).ownAbortZero b = (s.replyBegins .sv).refuse status) :
    exec (.abortZero .sv tag b) s = .next (s.answered .sv tag Kind.abortZero.code (Answer.refuse status)) := by
  rw [exec_abortZero, State.whenPowered_powered hs.1.1]
  exact congrArg _ (State.takeRequest_refused hs rfl h)

theorem exec_readStation_refused (hs : s.takesOn l) (h : 7 < b.toNat) :
    exec (.readStation l tag b) s = .next (s.answered l tag Kind.readStation.code (Answer.refuse .badStation)) := by
  rw [exec_readStation, State.whenPowered_powered hs.1.1]
  refine congrArg _ (State.takeRequest_refused hs (Kind.allowed_of_isRead rfl l) ?_)
  unfold State.ownReadStation
  rw [ofNumber_above h]

theorem exec_readZeroRecord_refused (hs : s.takesOn l)
    (h : (s.replyBegins l).ownReadZeroRecord b = (s.replyBegins l).refuse status) :
    exec (.readZeroRecord l tag b) s =
      .next (s.answered l tag Kind.readZeroRecord.code (Answer.refuse status)) := by
  rw [exec_readZeroRecord, State.whenPowered_powered hs.1.1]
  exact congrArg _ (State.takeRequest_refused hs (Kind.allowed_of_isRead rfl l) h)

theorem exec_setParameter_refused (hs : s.takesOn .sv)
    (h : (s.replyBegins .sv).ownSetParameter set number value = (s.replyBegins .sv).refuse status) :
    exec (.setParameter .sv tag set number value) s =
      .next (s.answered .sv tag Kind.setParameter.code (Answer.refuse status)) := by
  rw [exec_setParameter, State.whenPowered_powered hs.1.1]
  exact congrArg _ (State.takeRequest_refused hs rfl h)

theorem exec_readParameter_refused (hs : s.takesOn l)
    (h : (s.replyBegins l).ownReadParameter set number = (s.replyBegins l).refuse status) :
    exec (.readParameter l tag set number) s =
      .next (s.answered l tag Kind.readParameter.code (Answer.refuse status)) := by
  rw [exec_readParameter, State.whenPowered_powered hs.1.1]
  exact congrArg _ (State.takeRequest_refused hs (Kind.allowed_of_isRead rfl l) h)

end requests

/-! ### The refusals of O50 -/

/-- Settles O50: each owner's checks in their order. -/
theorem stationAndParameterChecksRefuse : Obligations.StationAndParameterChecksRefuse := by
  refine ⟨?_, ?_⟩
  · intro l tag b priority direction value keep wait duty duration s hs hset hjog refused
    refine ⟨fun hbad => ?_, fun habove => ?_, fun u hb => ?_, fun u hb hp => ?_, fun hl code field => ?_⟩
    · have hbad' : 7 < b.toNat ∨ ∃ st : Station, b.toNat = st.number ∧ (s.replyBegins l).present st.train = false := hbad
      refine ⟨exec_setGap_refused hs hset (State.ownSetting_bad hbad'),
        exec_setRate_refused hs hset (State.ownSetting_bad hbad'),
        exec_withdraw_refused hs (State.withPresent_bad hbad'),
        fun hl mode hm => exec_setMode_refused hs hl hm (State.withPresent_bad hbad'), fun hl => ?_⟩
      subst hl
      exact ⟨exec_jog_refused hs hjog (State.withPresentCrusher_bad hbad'),
        exec_startZero_refused hs (State.withPresentCrusher_bad hbad'),
        exec_abortZero_refused hs (State.withPresentCrusher_bad hbad')⟩
    · refine ⟨exec_readStation_refused hs habove, exec_readZeroRecord_refused hs ?_⟩
      unfold State.ownReadZeroRecord
      rw [ofNumber_above habove]
    · refine ⟨exec_readZeroRecord_refused hs ?_, fun hp => ⟨?_, fun hl => ?_⟩⟩
      · unfold State.ownReadZeroRecord
        rw [ofNumber_of hb]
        rfl
      · exact exec_setGap_refused hs hset
          (State.ownSetting_role (s := s.replyBegins l) (st := feederOf u) hb hp Role.noConfusion)
      · subst hl
        exact ⟨exec_jog_refused hs hjog (State.withPresentCrusher_feeder (s := s.replyBegins .sv) hb hp),
          exec_startZero_refused hs (State.withPresentCrusher_feeder (s := s.replyBegins .sv) hb hp),
          exec_abortZero_refused hs (State.withPresentCrusher_feeder (s := s.replyBegins .sv) hb hp)⟩
    · refine ⟨exec_setRate_refused hs hset
        (State.ownSetting_role (s := s.replyBegins l) (st := crusherOf u) hb hp Role.noConfusion), fun hl => ?_⟩
      subst hl
      exact ⟨fun h => exec_jog_refused hs hjog (State.ownJog_busy (s := s.replyBegins .sv) hb hp h),
        fun h h' => exec_jog_refused hs hjog (State.ownJog_barred (s := s.replyBegins .sv) hb hp h h'),
        fun h => exec_startZero_refused hs (State.ownStartZero_busy (s := s.replyBegins .sv) hb hp h),
        fun h h' => exec_startZero_refused hs (State.ownStartZero_impossible (s := s.replyBegins .sv) hb hp h h'),
        fun h => exec_abortZero_refused hs (State.ownAbortZero_no_subject (s := s.replyBegins .sv) hb hp h)⟩
    · intro f ack
      refine ⟨fun kind hkind hne => ?_, fun hcrusher => ⟨fun h8 h63 => ?_, fun u hu => ?_⟩⟩
      · obtain ⟨hdef, hof⟩ := SubjectField.isOf_ofByte hkind
        exact exec_acknowledge_refused hs hl hdef (acknowledgedSubject_kind hof hne)
      · refine exec_acknowledge_refused hs hl (by simp [subjectDefined, show field.toNat ≤ 63 from h63]) ?_
        rw [SubjectField.ofByte_station h63]
        unfold acknowledgedSubject
        rw [hcrusher]
        dsimp only
        rw [ofNumber_above (by omega)]
      · have hle : field.toNat ≤ 63 := by
          have : (feederOf u).number ≤ 63 := by cases u <;> decide
          exact hu.le.trans this
        refine exec_acknowledge_refused hs hl (by simp [subjectDefined, hle]) ?_
        rw [SubjectField.ofByte_station hle]
        unfold acknowledgedSubject
        rw [hcrusher]
        dsimp only
        rw [ofNumber_of hu]
        rfl
  · intro tag b number value s hs refused unread
    set r := s.replyBegins .sv with hr
    refine ⟨fun h7 h255 => ⟨exec_setParameter_refused hs (State.withParam_bad h7 h255),
      exec_readParameter_refused hs (State.withParam_bad h7 h255)⟩, fun count hset hn => ?_, fun set p hset hp => ?_⟩
    · obtain ⟨set, hof, hnone⟩ : ∃ set, ParamSet.ofByte b = some set ∧ set.param number.toNat = none := by
        rcases hset with ⟨hb, hc⟩ | ⟨u, hb, hc⟩ | ⟨u, hb, hc⟩
        · exact ⟨_, ParamSet.ofByte_line hb, ParamSet.param_none (.inl ⟨rfl, hc⟩) hn⟩
        · exact ⟨_, ParamSet.ofByte_station hb, ParamSet.param_none (.inr (.inl ⟨u, rfl, hc⟩)) hn⟩
        · exact ⟨_, ParamSet.ofByte_station hb, ParamSet.param_none (.inr (.inr ⟨u, rfl, hc⟩)) hn⟩
      exact ⟨exec_setParameter_refused hs (State.withParam_unnumbered hof hnone),
        exec_readParameter_refused hs (State.withParam_unnumbered hof hnone)⟩
    · have hwrite {status : Status} (h : r.writeParam p value.toNat = r.refuse status) : refused status :=
        exec_setParameter_refused hs ((State.withParam_param hset hp).trans h)
      refine ⟨fun k hk hv => hwrite (State.writeParam_format ?_), fun hdef => ?_⟩
      · rw [hk]
        exact decide_eq_false (by omega)
      · have hdefined := ParamRange.defined_of hdef
        refine ⟨fun st hst hrun => ?_, fun st hst hpresent hrun => ?_, fun u hu hmode hsub => ?_, fun u hu hmodes hsub hout => ?_⟩
        · subst hst
          refine hwrite (State.writeParam_wrongMode hdefined ?_)
          obtain ⟨t, role⟩ := st
          rcases ParamSet.param_station hp with ⟨rfl, q, rfl⟩ | ⟨rfl, q, rfl⟩
          · exact (congrArg not (decide_eq_true hrun)).trans rfl
          · exact (congrArg not (decide_eq_true hrun)).trans rfl
        · subst hst
          refine hwrite (State.writeParam_wrongMode hdefined ?_)
          obtain ⟨q, rfl⟩ := ParamSet.param_line hp
          exact congrArg not (State.anyInRun_iff.mpr ⟨st, hpresent, hrun⟩)
        · subst hu
          rcases ParamSet.param_station hp with ⟨-, q, rfl⟩ | ⟨hno, -⟩
          · exact hwrite (State.writeParam_busy hdefined (congrArg not (decide_eq_false hmode)) hsub)
          · cases hno
        · subst hu
          have hruns : r.anyInRun = false := by
            rw [← Bool.not_eq_true, State.anyInRun_iff]
            exact fun ⟨st, hpresent, hrun⟩ => hmodes st hpresent hrun
          refine hwrite (State.writeParam_busy hdefined (by simp [State.paramModeOk, hruns]) ?_)
          · have hsubject : r.sequencer.subject = some u := hsub
            simp [State.paramBusy, State.leavesOutSubject, hsubject, hout]

end Sys2Proof.Machine
end

section
/-! PROOFS. JOG and START ZERO (R87 to R90, R97, R98). -/

namespace Sys2Proof.Machine

variable {a b s t : State} {u : Train} {p : Positioner} {now deadTime duty : Nat} {way : Direction}

/-! ### A drive asked for in jogging and lending (R71, R87) -/

theorem Positioner.askDrive_same {d : Drive} (hd : p.drive = some d) (h : d.direction = way) :
    p.askDrive now deadTime way duty = { p with drive := some ⟨way, duty⟩ } := by
  simp only [Positioner.askDrive, hd]
  exact if_pos h

theorem Positioner.ask_begins (h : p.lastEnd.direction = some way ∨ deadTime ≤ elapsed now p.lastEnd.uptime) :
    p.ask now deadTime way duty = { p with drive := some ⟨way, duty⟩, pendingDrive := none, valve := ⟨duty, 0⟩ } :=
  if_pos (Positioner.mayBegin_iff.mpr h)

/-- Asking for a drive changes the drive and the pending drive alone. -/
theorem Positioner.ask_keeps (p : Positioner) (now deadTime : Nat) (way : Direction) (duty : Nat) :
    (p.ask now deadTime way duty).state = p.state ∧ (p.ask now deadTime way duty).reasons = p.reasons ∧
      (p.ask now deadTime way duty).lastEnd = p.lastEnd ∧ (p.ask now deadTime way duty).jog = p.jog := by
  rw [Positioner.ask]
  split <;> exact ⟨rfl, rfl, rfl, rfl⟩

theorem Positioner.ask_waits (hne : p.lastEnd.direction ≠ some way) (h : elapsed now p.lastEnd.uptime < deadTime) :
    p.ask now deadTime way duty = { p with pendingDrive := some ⟨way, duty, ⟨p.lastEnd.uptime, deadTime⟩⟩ } := by
  refine if_neg ?_
  rw [Positioner.mayBegin_iff]
  exact fun h' => h'.elim hne (by omega)

theorem Positioner.askDrive_off (hd : p.drive = none) :
    p.askDrive now deadTime way duty = p.ask now deadTime way duty := by
  simp only [Positioner.askDrive, hd]

theorem Positioner.askDrive_other {d : Drive} (hd : p.drive = some d) (h : d.direction ≠ way) (hdead : 0 < deadTime) :
    p.askDrive now deadTime way duty =
      { p with
        drive := none, lastEnd := ⟨now, some d.direction⟩
        pendingDrive := some ⟨way, duty, ⟨now, deadTime⟩⟩, valve := ⟨0, 0⟩ } := by
  have hoff := Positioner.driveOff_some (now := now) hd
  simp only [Positioner.askDrive, hd]
  refine (if_neg h).trans ?_
  rw [Positioner.ask_waits]
  · rw [hoff]
  · rw [hoff]
    simpa using h
  · rw [hoff]
    simpa [elapsed_self] using hdead

/-! ### JOG (R87, R88) -/

/-- A Positioner in JOGGING with its record (R87). -/
def Positioner.inJog (way : Direction) (duty duration : Nat) (p : Positioner) : Positioner :=
  { p with state := .jogging, jog := some ⟨way, duty, duration⟩ }

theorem State.closeJogDone_iff {j : Jog} (hj : (s.positioner u).jog = some j) :
    s.closeJogDone u = true ↔ j.direction = .closing ∧ ∃ g, (s.gap u).gap = some g ∧ g ≤ (s.crusher u).gapMin := by
  rw [State.closeJogDone, hj]
  cases (s.gap u).gap <;> simp

theorem State.closeJogDone_inJog {duration : Nat} :
    (s.modPositioner u (Positioner.inJog way duty duration)).closeJogDone u = true ↔
      way = .closing ∧ ∃ g, (s.gap u).gap = some g ∧ g ≤ (s.crusher u).gapMin := by
  rw [State.closeJogDone_iff (j := ⟨way, duty, duration⟩) (by rw [State.positioner_modPositioner]; rfl)]
  simp

theorem State.startJog_goes {duration : Nat}
    (h : ¬(way = .closing ∧ ∃ g, (s.gap u).gap = some g ∧ g ≤ (s.crusher u).gapMin)) :
    s.startJog u way duty duration =
      s.modPositioner u fun p =>
        (p.inJog way duty duration).askDrive s.now (s.crusher u).deadTime way duty := by
  refine (if_neg (mt State.closeJogDone_inJog.mp h)).trans ?_
  exact State.modPositioner_modPositioner ..

theorem State.startJog_ends {duration : Nat}
    (h : way = .closing ∧ ∃ g, (s.gap u).gap = some g ∧ g ≤ (s.crusher u).gapMin)
    (hr : (s.positioner u).reasons.isEmpty = false) :
    s.startJog u way duty duration =
      s.modPositioner u fun p =>
        { (p.inJog way duty duration).dropJog s.now with state := .suspended } := by
  refine (if_pos (State.closeJogDone_inJog.mpr h)).trans ?_
  have hkept : ((s.modPositioner u (Positioner.inJog way duty duration)).positioner u).reasons.isEmpty = false := by
    rw [State.positioner_modPositioner]
    exact hr
  refine (State.endJog_eq hkept).trans ?_
  rw [State.modPositioner_modPositioner]
  simp only [Positioner.dropJog_eq]
  rfl

theorem directionOf_eq (direction : Byte) :
    directionOf direction = if direction = 1#8 then .opening else .closing := by
  have h : direction.toNat = 1 ↔ direction = 1#8 := by
    rw [← BitVec.toNat_inj]
    rfl
  simp only [directionOf, h]

theorem State.ownJog_taken {b direction : Byte} {duty duration : Half} (hb : b.toNat = (crusherOf u).number)
    (hp : s.present u = true) (hsub : s.isSubject u = false) (hmode : (s.station (crusherOf u)).mode = .maintenance)
    (hfault : (s.positioner u).state ≠ .fault) (hestop : (s.positioner u).reasons.estop = false)
    (hrelief : (s.positioner u).reasons.relief = false) :
    s.ownJog b direction duty duration =
      ⟨s.startJog u (directionOf direction) (min duty.toNat (s.crusher u).dutyMax) duration.toNat,
        ⟨.done, { ReplyFlags.none with clamped := min duty.toNat (s.crusher u).dutyMax ≠ duty.toNat },
          f2 (min duty.toNat (s.crusher u).dutyMax)⟩⟩ := by
  have hbarred : s.jogBarred u = false := by simp [State.jogBarred, hfault, hestop, hrelief]
  refine (State.withPresentCrusher_crusher hb hp).trans ((if_neg (by simp [hsub])).trans ?_)
  exact (if_neg (not_not.mpr hmode)).trans (if_neg (by simp [hbarred]))

/-- A JOG that passes its checks is what its Positioner becomes, and the answer. -/
theorem exec_jog_taken {tag direction : Byte} {duty duration : Half} {f : Positioner → Positioner}
    (hs : s.takesOn .sv) (hok : jogFieldsOk direction duration = true) (hp : s.present u = true)
    (hsub : s.isSubject u = false) (hmode : (s.station (crusherOf u)).mode = .maintenance)
    (hfault : (s.positioner u).state ≠ .fault) (hestop : (s.positioner u).reasons.estop = false)
    (hrelief : (s.positioner u).reasons.relief = false)
    (hjog : (s.replyBegins .sv).startJog u (if direction = 1#8 then .opening else .closing)
      (min duty.toNat (s.crusher u).dutyMax) duration.toNat = (s.modPositioner u f).replyBegins .sv) :
    exec (.jog .sv tag (byteOf (crusherOf u).number) direction duty duration) s =
      .next ((s.modPositioner u f).answered .sv tag 0x06#8
        ⟨.done, ⟨decide (min duty.toNat (s.crusher u).dutyMax ≠ duty.toNat), false, false, false, false⟩,
          halfBytes (BitVec.ofNat 16 (min duty.toNat (s.crusher u).dutyMax))⟩) := by
  have hown := State.ownJog_taken (s := s.replyBegins .sv) (u := u) (direction := direction) (duty := duty)
    (duration := duration) (byteOf_number_toNat _) hp hsub hmode hfault hestop hrelief
  rw [directionOf_eq] at hown
  rw [exec_jog, State.whenPowered_powered hs.1.1, State.takeJog, hok]
  exact congrArg _ (State.takeRequest_answered (k := .jog) hs rfl (hown.trans (congrArg (Decision.mk · _) hjog)))

/-- Settles O43: the drive asked for, a CLOSE jog that is over at once, and the jog at a position arrival. -/
theorem jogDrivesTheValve : Obligations.JogDrivesTheValve := by
  refine ⟨?_, ?_⟩
  · intro u tag direction duty duration s hs hok hp hsub hmode hfault hestop hrelief p way taken answer ends jogging
    have hexec {f : Positioner → Positioner} := exec_jog_taken (u := u) (tag := tag) (duty := duty) (f := f) hs hok hp hsub hmode
      hfault hestop hrelief
    have hgoes {f : Positioner → Positioner} (hno : ¬ends)
        (hf : ((s.positioner u).inJog way taken duration.toNat).askDrive s.now p.deadTime way taken = f (s.positioner u)) :
        exec (.jog .sv tag (byteOf (crusherOf u).number) direction duty duration) s =
          .next ((s.modPositioner u f).answered .sv tag 0x06#8 answer) := by
      have hjog := State.startJog_goes (s := s.replyBegins .sv) (u := u) (duty := taken) (duration := duration.toNat) hno
      have hsame := State.modPositioner_congr (s := s) (u := u)
        (f := fun q => (q.inJog way taken duration.toNat).askDrive s.now p.deadTime way taken) hf
      exact hexec (hjog.trans (congrArg (State.replyBegins · .sv) hsame))
    refine ⟨fun d hno hd hway => hgoes hno ?_, fun hno hd hmay => hgoes hno ?_, fun hno hd hne hwait => hgoes hno ?_,
      fun d hno hd hne hdead => hgoes hno ?_, fun hyes hreasons => ?_⟩
    · exact Positioner.askDrive_same (p := (s.positioner u).inJog way taken duration.toNat) hd hway
    · exact (Positioner.askDrive_off (p := (s.positioner u).inJog way taken duration.toNat) hd).trans
        (Positioner.ask_begins (p := (s.positioner u).inJog way taken duration.toNat) hmay)
    · exact (Positioner.askDrive_off (p := (s.positioner u).inJog way taken duration.toNat) hd).trans
        (Positioner.ask_waits (p := (s.positioner u).inJog way taken duration.toNat) hne hwait)
    · exact Positioner.askDrive_other (p := (s.positioner u).inJog way taken duration.toNat) hd hne hdead
    · have hjog := State.startJog_ends (s := s.replyBegins .sv) (u := u) (duty := taken) (duration := duration.toNat) hyes
        hreasons
      have hended := (s.positioner_modPositioner u fun q =>
        { (q.inJog way taken duration.toNat).dropJog s.now with state := .suspended }).trans
          (congrArg (fun q : Positioner => { q with state := .suspended }) (Positioner.dropJog_eq ..))
      exact ⟨_, hexec (f := fun q => { (q.inJog way taken duration.toNat).dropJog s.now with state := .suspended }) hjog,
        rfl, congrArg Positioner.state hended, congrArg Positioner.drive hended, congrArg Positioner.jog hended, rfl⟩
  · intro u r j s hs hp hv hlow hhigh hsub hstate hj gap measured
    have hinside : (s.keepPosition u r).positionInside u r.toNat = measured :=
      State.positionInside_valid (s := s.keepPosition u r) hv
    have hgap : (measured.gap u).gap = gap := congrArg GapMeasurement.gap (State.gap_modGap _ u _)
    have hdone := State.closeJogDone_iff (s := measured) (u := u) (j := j) hj
    rw [hgap] at hdone
    have hexec {b : State} (hb : measured.judgeJog u = b) (hbs : b.isSubject u = false) :
        exec (.positionArrival u (some r)) s = .next b := by
      rw [exec_positionArrival_inside hs hp hlow hhigh, hinside, hb, State.judgeBackoff_eq_self (.inl hbs)]
    refine ⟨fun hgo => hexec (State.judgeJog_eq_self (.inr ?_)) hsub, fun g hclose hg hle hreasons => ?_⟩
    · rw [← Bool.not_eq_true, hdone]
      rintro ⟨hclose, g, hg, hle⟩
      rcases hgo with hgo | hgo
      · simp [hclose] at hgo
      · exact absurd (hgo g hg) (Nat.not_lt.mpr hle)
    · refine hexec ?_ hsub
      have hyes : measured.closeJogDone u = true := hdone.mpr ⟨hclose, g, hg, hle⟩
      refine (if_pos ?_).trans (State.endJog_eq (s := measured) hreasons)
      rw [hyes, Bool.and_true]
      exact decide_eq_true hstate

/-! ### START ZERO (R90, R97, R98) -/

/-- A Positioner whose drive is lent, a running jog ended (R90). -/
def Positioner.lent (now : Nat) (p : Positioner) : Positioner :=
  { (if p.state = .jogging then p.dropJog now else p) with state := .lent }

/-- The lent drive is off, with its end written, where a jog ended or none was on. -/
theorem Positioner.lent_facts (h : p.state = .jogging ∨ p.state = .suspended ∧ p.drive = none) :
    (p.lent now).drive = none ∧ (p.lent now).reasons = p.reasons ∧
      (p.lent now).lastEnd = (match p.drive with | none => p.lastEnd | some d => ⟨now, some d.direction⟩) ∧
      (p.state = .jogging → (p.lent now).jog = none ∧ (p.lent now).pendingDrive = none) := by
  unfold Positioner.lent
  rcases h with h | ⟨h, hd⟩
  · rw [if_pos h, Positioner.dropJog_eq]
    exact ⟨rfl, rfl, rfl, fun _ => ⟨rfl, rfl⟩⟩
  · rw [if_neg (by simp [h])]
    refine ⟨hd, rfl, ?_, fun hj => by simp [h] at hj⟩
    rw [hd]

/-- The Sequencer at the start of a touch (R98). -/
def State.touching (s : State) (u : Train) (armed : Bool) : Sequencer :=
  { Sequencer.atStart with
    state := .approach, subject := some u, armed := armed
    limitTimer := some ⟨s.now, (s.crusher u).zeroTimeLimit * 1000⟩, start := some s.now }

/-- A lent drive that is off is asked for: it begins, and arms the contact of a touch in APPROACH, or waits (R98, R99). -/
theorem State.askLent_off (hd : (s.positioner u).drive = none) :
    s.askLent u way =
      if (s.positioner u).mayBegin s.now (s.crusher u).deadTime way then
        (s.modPositioner u fun p => p.ask s.now (s.crusher u).deadTime way (s.crusher u).creepDuty).driveBegan
      else s.modPositioner u fun p => p.ask s.now (s.crusher u).deadTime way (s.crusher u).creepDuty := by
  have hasked : (s.modPositioner u fun p => p.askDrive s.now (s.crusher u).deadTime way (s.crusher u).creepDuty) =
      s.modPositioner u fun p => p.ask s.now (s.crusher u).deadTime way (s.crusher u).creepDuty :=
    State.modPositioner_congr (Positioner.askDrive_off hd)
  simp only [State.askLent, hasked, State.positioner_modPositioner, Positioner.ask]
  cases hm : (s.positioner u).mayBegin s.now (s.crusher u).deadTime way
  · simp [hd]
  · simp [hd, Positioner.driveOn]

/-- A touch started: the drive lent and asked for, CALIBRATION held, contact armed with the drive (R98, R99). -/
def State.touchStarted (s : State) (u : Train) : State :=
  { s with
    positioners := s.positioners.set u
      (((s.positioner u).lent s.now).ask s.now (s.crusher u).deadTime .closing (s.crusher u).creepDuty)
    governors := s.governors.set u ((s.governor u).hold .calibration)
    sequencer := s.touching u (((s.positioner u).lent s.now).mayBegin s.now (s.crusher u).deadTime .closing) }

theorem State.startTouch_eq (hd : ((s.positioner u).lent s.now).drive = none) :
    s.startTouch u = s.touchStarted u := by
  have hset {α : Type} (x : Quad α) (y z : α) : (x.set u y).set u z = x.set u z := by cases u <;> rfl
  set w : State := { s with
    positioners := s.positioners.set u ((s.positioner u).lent s.now)
    governors := s.governors.set u ((s.governor u).hold .calibration)
    sequencer := s.touching u false } with hw
  have hpositioner : w.positioner u = (s.positioner u).lent s.now := Quad.get_set_self ..
  have hoff : (w.positioner u).drive = none := (congrArg Positioner.drive hpositioner).trans hd
  have hasked : (w.modPositioner u fun p => p.ask w.now (w.crusher u).deadTime .closing (w.crusher u).creepDuty) =
      { w with
        positioners := s.positioners.set u
          (((s.positioner u).lent s.now).ask s.now (s.crusher u).deadTime .closing (s.crusher u).creepDuty) } := by
    show { w with positioners := w.positioners.set u ((w.positioner u).ask s.now (s.crusher u).deadTime .closing
      (s.crusher u).creepDuty) } = _
    rw [hpositioner]
    exact congrArg (fun q => { w with positioners := q }) (hset ..)
  calc s.startTouch u
    _ = w.askLent u .closing := rfl
    _ = _ := by
      rw [State.askLent_off hoff, hasked, hpositioner, State.touchStarted]
      show (if ((s.positioner u).lent s.now).mayBegin s.now (s.crusher u).deadTime .closing then _ else _) = _
      cases ((s.positioner u).lent s.now).mayBegin s.now (s.crusher u).deadTime .closing
      · rfl
      · rfl

/-- A START ZERO that passes its checks starts the touch, and is answered DONE (R97). -/
theorem exec_startZero_taken {tag : Byte} (hs : s.takesOn .sv) (hp : s.present u = true)
    (hidle : s.sequencer.state = .idle) (hpossible : s.touchPossible u = true)
    (hd : ((s.positioner u).lent s.now).drive = none) :
    exec (.startZero .sv tag (byteOf (crusherOf u).number)) s =
      .next ((s.touchStarted u).answered .sv tag 0x07#8 (Answer.done [])) := by
  have hown : (s.replyBegins .sv).ownStartZero (byteOf (crusherOf u).number) =
      ⟨(s.touchStarted u).replyBegins .sv, Answer.done []⟩ := by
    refine (State.withPresentCrusher_crusher (s := s.replyBegins .sv) (byteOf_number_toNat _) hp).trans ?_
    refine (if_neg (not_not.mpr hidle)).trans ((if_neg (fun h => Bool.noConfusion (h.symm.trans (congrArg (!·) hpossible)))).trans ?_)
    rw [State.startTouch_eq (s := s.replyBegins .sv) hd]
    rfl
  rw [exec_startZero, State.whenPowered_powered hs.1.1, State.takeStartZero]
  exact congrArg _ (State.takeRequest_answered (k := .startZero) hs rfl hown)

/-- Settles O44: START ZERO, its drive begun at once or pending. -/
theorem startZeroStartsTheTouch : Obligations.StartZeroStartsTheTouch := by
  intro u a tag s hs hp hidle hmode hstate hestop hrelief hv hrunning hpower hempty ended
  have hcases : (s.positioner u).state = .jogging ∨ (s.positioner u).state = .suspended ∧ (s.positioner u).drive = none :=
    hstate
  obtain ⟨hdrive, hreasons, hend, hjog⟩ := Positioner.lent_facts (now := s.now) hcases
  have hfault : (s.positioner u).state ≠ .fault := by
    rcases hcases with h | ⟨h, -⟩ <;> simp [h]
  have hpossible : s.touchPossible u = true :=
    State.touchPossible_iff.mpr ⟨hmode, hfault, hestop, hrelief, hv, hrunning, a, hpower, hempty⟩
  have hpositioner : (s.touchStarted u).positioner u =
      ((s.positioner u).lent s.now).ask s.now (s.crusher u).deadTime .closing (s.crusher u).creepDuty :=
    Quad.get_set_self ..
  have hgovernor : (s.touchStarted u).governor u = (s.governor u).hold .calibration := Quad.get_set_self ..
  have hothers : s.othersKept (s.touchStarted u) u := fun v hv =>
    ⟨rfl, rfl, rfl, Quad.get_set_of_ne _ hv _, rfl, Quad.get_set_of_ne _ hv _, rfl⟩
  refine ⟨(s.touchStarted u).answered .sv tag 0x07#8 (Answer.done []),
    exec_startZero_taken hs hp hidle hpossible hdrive, rfl, rfl, hothers, hgovernor, ?_, rfl, rfl, rfl, rfl, rfl, rfl, rfl,
    ?_⟩
  · exact (congrArg (fun g : Governor => g.holds.calibration) hgovernor).trans ((s.governor u).hold_has .calibration)
  obtain ⟨hsame, hkept, hlast, hended⟩ :=
    Positioner.ask_keeps ((s.positioner u).lent s.now) s.now (s.crusher u).deadTime .closing (s.crusher u).creepDuty
  have hfinal {α : Type} (f : Positioner → α) :
      f (((s.touchStarted u).answered .sv tag 0x07#8 (Answer.done [])).positioner u) = _ := congrArg f hpositioner
  refine ⟨(hfinal Positioner.state).trans hsame, (hfinal Positioner.reasons).trans (hkept.trans hreasons),
    (hfinal Positioner.lastEnd).trans (hlast.trans hend), fun h => (hfinal Positioner.jog).trans (hended.trans (hjog h).1),
    fun hmay => ?_, fun hne hwait => ?_⟩
  · have hlent : ((s.positioner u).lent s.now).lastEnd.direction = some .closing ∨
        (s.crusher u).deadTime ≤ elapsed s.now ((s.positioner u).lent s.now).lastEnd.uptime := by rwa [hend]
    have hbegun := Positioner.ask_begins (duty := (s.crusher u).creepDuty) hlent
    exact ⟨(hfinal Positioner.drive).trans (congrArg Positioner.drive hbegun),
      (hfinal Positioner.pendingDrive).trans (congrArg Positioner.pendingDrive hbegun), Positioner.mayBegin_iff.mpr hlent⟩
  · have hlent : ¬(((s.positioner u).lent s.now).lastEnd.direction = some .closing ∨
        (s.crusher u).deadTime ≤ elapsed s.now ((s.positioner u).lent s.now).lastEnd.uptime) := by
      rw [hend]
      exact fun h => h.elim hne (Nat.not_le.mpr hwait)
    have hwaits := Positioner.ask_waits (duty := (s.crusher u).creepDuty) (fun h => hlent (.inl h))
      (Nat.lt_of_not_le fun h => hlent (.inr h))
    refine ⟨(hfinal Positioner.drive).trans ((congrArg Positioner.drive hwaits).trans hdrive),
      Bool.eq_false_iff.mpr fun h => hlent (Positioner.mayBegin_iff.mp h),
      (hfinal Positioner.pendingDrive).trans ((congrArg Positioner.pendingDrive hwaits).trans ?_)⟩
    exact congrArg (fun e : DriveEnd =>
      (some ⟨.closing, (s.crusher u).creepDuty, ⟨e.uptime, (s.crusher u).deadTime⟩⟩ : Option PendingDrive)) hend

end Sys2Proof.Machine
end

section
/-! PROOFS. The course of a touch: contact, backoff, commit and aborts (R100 to R108). -/

namespace Sys2Proof.Machine

variable {a b s t : State} {u : Train} {p : Nat}

/-! ### Contact and backoff (R100 to R102) -/

theorem State.isSubject_iff : s.isSubject u = true ↔ s.sequencer.subject = some u := by
  simp [State.isSubject]

theorem State.judgeContact_approach (hsub : s.isSubject u = true) (h : s.sequencer.state = .approach) :
    s.judgeContact u p =
      if s.sequencer.armed = true ∧ (s.crusher u).contactLevel ≤ p then
        s.modSequencer fun q => { q with state := .dwell, dwellTimer := some ⟨s.now, (s.crusher u).contactDwell⟩ }
      else s := by
  simp only [State.judgeContact, hsub, h, Bool.and_eq_true, decide_eq_true_eq]
  rfl

theorem State.judgeContact_dwell (hsub : s.isSubject u = true) (h : s.sequencer.state = .dwell) :
    s.judgeContact u p =
      if p < (s.crusher u).contactLevel then s.modSequencer fun q => { q with state := .approach, dwellTimer := none }
      else s := by
  simp only [State.judgeContact, hsub, h]
  rfl

/-- A lent drive that is on gives way to the other direction, which waits for the dead time (R71, R90). -/
theorem State.askLent_other {d : Drive} {way : Direction} (hd : (s.positioner u).drive = some d) (h : d.direction ≠ way)
    (hdead : 0 < (s.crusher u).deadTime) :
    s.askLent u way = s.modPositioner u fun q =>
      { q with
        drive := none, lastEnd := ⟨s.now, some d.direction⟩
        pendingDrive := some ⟨way, (s.crusher u).creepDuty, ⟨s.now, (s.crusher u).deadTime⟩⟩, valve := ⟨0, 0⟩ } := by
  have hasked : (s.modPositioner u fun q => q.askDrive s.now (s.crusher u).deadTime way (s.crusher u).creepDuty) =
      s.modPositioner u fun q =>
        { q with
          drive := none, lastEnd := ⟨s.now, some d.direction⟩
          pendingDrive := some ⟨way, (s.crusher u).creepDuty, ⟨s.now, (s.crusher u).deadTime⟩⟩, valve := ⟨0, 0⟩ } :=
    State.modPositioner_congr (Positioner.askDrive_other hd h hdead)
  simp only [State.askLent, hasked, State.positioner_modPositioner]
  rfl

/-- The backoff distance is the least that covers BACKOFF at the GAIN (R102). -/
theorem CrusherParams.backoffDistance_least (c : CrusherParams) (h : 0 < c.gain) :
    c.backoff * 1024 ≤ c.backoffDistance * c.gain ∧ ∀ less, c.backoff * 1024 ≤ less * c.gain → c.backoffDistance ≤ less := by
  have hle (less : Nat) : c.backoffDistance ≤ less ↔ c.backoff * 1024 ≤ less * c.gain := by
    rw [CrusherParams.backoffDistance, ceilDiv, ← Nat.ceilDiv_eq_add_pred_div, ceilDiv_le_iff_le_mul h, Nat.mul_comm less]
  exact ⟨(hle _).mp le_rfl, fun less => (hle less).mpr⟩

/-- Settles O45: the contact judged at a pressure arrival, and the dwell's expiry. -/
theorem touchFindsItsContact : Obligations.TouchFindsItsContact := by
  refine ⟨?_, ?_⟩
  · intro u loop s hs hp hsource hactive hsubject x kept hbelow
    have hsub : kept.isSubject u = true := State.isSubject_iff.mpr hsubject
    have hjudge : kept.judgePressure u x.scaled = kept := by
      refine (State.judgePressure_analog (s := kept) hsource _).trans (State.setDetector_same (s := kept) ?_)
      rw [detectorAnalog_eq]
      exact hactive.trans ((if_neg (show ¬(s.supervisor u).detectorActive = true by simp [hactive])).trans
        (decide_eq_false (Nat.not_le.mpr hbelow))).symm
    have hexec {b : State} (hb : kept.judgeContact u x.scaled = b) : exec (.pressureArrival u loop) s = .next b :=
      (exec_pressureArrival_present hs hp hjudge).trans (congrArg _ hb)
    refine ⟨fun h harmed hlevel => hexec ?_, fun h hno => hexec ?_, fun h hlevel => hexec ?_, fun h hlevel => hexec ?_⟩
    · exact (State.judgeContact_approach hsub h).trans (if_pos ⟨harmed, hlevel⟩)
    · refine (State.judgeContact_approach hsub h).trans (if_neg ?_)
      rintro ⟨harmed, hlevel⟩
      exact hno.elim (fun h => Bool.noConfusion (h.symm.trans harmed)) (Nat.not_lt.mpr hlevel)
    · exact (State.judgeContact_dwell hsub h).trans (if_pos hlevel)
    · exact (State.judgeContact_dwell hsub h).trans (if_neg (Nat.not_lt.mpr hlevel))
  · intro u p duty k s hs hsubject hstate hk hdue hp hd hdead hgain
    obtain ⟨hcovers, hleast⟩ := (s.crusher u).backoffDistance_least hgain
    refine ⟨(s.crusher u).backoffDistance, ?_, hcovers, hleast⟩
    have hexpired : timerExpired s.sequencer.dwellTimer s.now = true := by
      rw [hk]
      exact decide_eq_true hdue
    rw [exec_dwellExpiry, State.whenPowered_powered hs]
    refine congrArg _ ?_
    simp only [State.dwellExpiry, hsubject, hstate, hexpired, hp]
    exact State.askLent_other (s := s.modSequencer fun q =>
      { q with
        state := .backoff, dwellTimer := none, contact := some p, target := some (p + (s.crusher u).backoffDistance) })
      hd (by simp) hdead

/-! ### Aborts (R106 to R108) -/

/-- What an aborted touch leaves, whatever the event does besides (R103, R107). -/
structure TouchAborted (u : Train) (r : TouchResult) (a b : State) : Prop where
  zero : b.zero u = { a.zero u with outcome := some (a.abortOutcome u r), aborted := true }
  wear : (b.gap u).wear = (a.gap u).wear
  sequencer : b.sequencer = Sequencer.atStart
  state : (b.positioner u).state = .suspended
  drive : (b.positioner u).drive = none
  pending : (b.positioner u).pendingDrive = none
  hold : (b.governor u).holds.calibration = false
  marked : b.store.dirty.zero = true ∨ b.store.writing.map WriteJob.sec = some .zero

/-- What an event does before its abort leaves the records that the outcome takes. -/
structure OutcomeKept (u : Train) (a b : State) : Prop where
  zero : b.zero u = a.zero u
  wear : (b.gap u).wear = (a.gap u).wear
  sequencer : b.sequencer = a.sequencer
  time : b.time = a.time

theorem OutcomeKept.abortOutcome (h : OutcomeKept u a b) (r : TouchResult) : b.abortOutcome u r = a.abortOutcome u r := by
  have hnow : b.now = a.now := by rw [State.now, h.time]; rfl
  have hstamp : b.stamp = a.stamp := by rw [State.stamp, h.time]; rfl
  rw [State.abortOutcome, h.zero, h.wear, hstamp, State.touchDuration, h.sequencer, hnow]
  rfl

theorem TouchAborts.aborted {r : TouchResult} (h : TouchAborts u r a b) (hk : OutcomeKept u s a) : TouchAborted u r s b := by
  have hgap : b.gap u = a.gap u := by rw [h.rest]; rfl
  have hpositioner := h.positioner
  rw [Positioner.returned_eq] at hpositioner
  refine
    { zero := by rw [h.zero, hk.zero, hk.abortOutcome]
      wear := (congrArg GapMeasurement.wear hgap).trans hk.wear
      sequencer := by rw [h.rest]
      state := congrArg Positioner.state hpositioner
      drive := congrArg Positioner.drive hpositioner
      pending := congrArg Positioner.pendingDrive hpositioner
      hold := ?_
      marked := h.marked }
  rw [h.governor]
  exact (a.governor u).release_has .calibration

/-- What is left after the abort stays through what the event does next, where it leaves these records. -/
theorem TouchAborted.then {r : TouchResult} (h : TouchAborted u r s b) (hzero : t.zero u = b.zero u)
    (hgap : (t.gap u).wear = (b.gap u).wear) (hsequencer : t.sequencer = b.sequencer)
    (hpositioner : t.positioner u = b.positioner u) (hgovernor : t.governor u = b.governor u) (hstore : t.store = b.store) :
    TouchAborted u r s t where
  zero := hzero.trans h.zero
  wear := hgap.trans h.wear
  sequencer := hsequencer.trans h.sequencer
  state := (congrArg Positioner.state hpositioner).trans h.state
  drive := (congrArg Positioner.drive hpositioner).trans h.drive
  pending := (congrArg Positioner.pendingDrive hpositioner).trans h.pending
  hold := (congrArg (fun g : Governor => g.holds.calibration) hgovernor).trans h.hold
  marked := by rw [hstore]; exact h.marked

theorem OutcomeKept.refl (a : State) (u : Train) : OutcomeKept u a a := ⟨rfl, rfl, rfl, rfl⟩

/-- What the judgings of a Supervisor change. -/
structure Judged (a b : State) : Prop where
  rest : b = { a with governors := b.governors, supervisors := b.supervisors, conditions := b.conditions }

theorem Judged.refl (s : State) : Judged s s := ⟨rfl⟩

theorem Judged.trans {c : State} (h : Judged a b) (k : Judged b c) : Judged a c :=
  ⟨by rw [k.rest, h.rest]⟩

theorem Judged.ite {p : Prop} [Decidable p] (h : Judged s a) (k : Judged s b) : Judged s (if p then a else b) := by
  split
  · exact h
  · exact k

theorem Judged.outcomeKept (h : Judged a b) : OutcomeKept u a b := by
  refine ⟨?_, ?_, ?_, ?_⟩ <;> rw [h.rest] <;> rfl

theorem State.modSupervisor_judged (s : State) (u : Train) (f : Supervisor → Supervisor) : Judged s (s.modSupervisor u f) :=
  ⟨rfl⟩

theorem State.judgePowerTrip_judged (s : State) (u : Train) (power : Nat) : Judged s (s.judgePowerTrip u power) := by
  have hbegins : Judged s ((s.modSupervisor u fun v => { v with tripCause := true }).setLatch u .powerTrip
      (some (.power power))) :=
    (s.modSupervisor_judged u _).trans ⟨(State.setLatch_sets _ u .powerTrip _).rest⟩
  have hends (a : State) : Judged a (a.endTripCause u) :=
    (a.modSupervisor_judged u _).trans ⟨(State.endLatchCause_ends _ u .powerTrip).rest⟩
  have hbegun := Judged.ite (p := (!(s.supervisor u).tripCause && (s.crusher u).tripLevel ≤ power) = true) hbegins (.refl s)
  exact Judged.ite (hbegun.trans (hends _)) hbegun

/-- The reports of an abort, on the List as it stands before them (R107). -/
def State.abortTold (s : State) (u : Train) (r : TouchResult) (l : ConditionList) : ConditionList :=
  (l.onset .zeroAborted (.crusher u) (some (.result r)) s.stamp).causeEnded .zeroAborted (.crusher u)

/-- The time limit aborts the touch (R106). -/
theorem exec_timeLimitExpiry_aborts {k : Timer} (hs : s.powered = true) (hsubject : s.sequencer.subject = some u)
    (hk : s.sequencer.limitTimer = some k) (hdue : k.length ≤ elapsed s.now k.start) :
    ∃ t, exec .timeLimitExpiry s = .next t ∧ TouchAborted u .abortedTimeout s t ∧
      t.conditions = s.abortTold u .abortedTimeout s.conditions := by
  have hab := s.abortTouch_aborts u .abortedTimeout
  refine ⟨s.abortTouch u .abortedTimeout, ?_, hab.aborted (.refl s u), hab.conditions⟩
  have hexpired : timerExpired s.sequencer.limitTimer s.now = true := by
    rw [hk]
    exact decide_eq_true hdue
  rw [exec_timeLimitExpiry, State.whenPowered_powered hs]
  simp only [State.timeLimitExpiry, hsubject, hexpired, if_true]

/-- A crusher that stops aborts its touch (R106). -/
theorem exec_digitalChange_aborts (hs : s.powered = true) (hp : s.present u = true) (hsub : s.isSubject u = true)
    (hdue : (s.inputs.running.get u).due = true) (hraw : (s.inputs.running.get u).raw = false) :
    ∃ t, exec (.digitalChange (.running u)) s = .next t ∧ TouchAborted u .abortedStopped s t ∧
      t.conditions = s.abortTold u .abortedStopped s.conditions := by
  have hab := ((s.withInputs (s.inputs.putDigital (.running u) ⟨false, some false, 0, false⟩)).addHold u
    .crusherStopped).abortTouch_aborts u .abortedStopped
  refine ⟨_, (exec_digitalChange_due (i := .running u) hs hdue hraw).trans (congrArg _ ?_),
    hab.aborted ⟨rfl, rfl, rfl, rfl⟩, hab.conditions⟩
  exact (if_neg (not_not_present hp)).trans (if_pos hsub)

/-- An ABORT ZERO of the subject aborts the touch, and is answered DONE (R108). -/
theorem exec_abortZero_taken {tag : Byte} (hs : s.takesOn .sv) (hp : s.present u = true)
    (hsubject : s.sequencer.subject = some u) :
    exec (.abortZero .sv tag (byteOf (crusherOf u).number)) s =
      .next ((⟨(s.replyBegins .sv).abortTouch u .abortedRequest, Answer.done []⟩ : Decision).reply .sv tag
        Kind.abortZero.code) := by
  have hown : (s.replyBegins .sv).ownAbortZero (byteOf (crusherOf u).number) =
      ⟨(s.replyBegins .sv).abortTouch u .abortedRequest, Answer.done []⟩ := by
    refine (State.withPresentCrusher_crusher (s := s.replyBegins .sv) (byteOf_number_toNat _) hp).trans ?_
    have hsub : (s.replyBegins .sv).isSubject u = true := State.isSubject_iff.mpr hsubject
    exact if_neg (by simp [hsub])
  rw [exec_abortZero, State.whenPowered_powered hs.1.1, State.takeAbortZero,
    State.takeRequest_owned (k := .abortZero) hs rfl, hown]

/-- The abort of a touch by an ABORT ZERO, and what its reply leaves. -/
theorem exec_abortZero_aborts {tag : Byte} (hs : s.takesOn .sv) (hp : s.present u = true)
    (hsubject : s.sequencer.subject = some u) :
    ∃ t, exec (.abortZero .sv tag (byteOf (crusherOf u).number)) s = .next t ∧ TouchAborted u .abortedRequest s t ∧
      t.conditions = s.abortTold u .abortedRequest s.conditions ∧
      s.repliedBy t .sv tag .abortZero (Answer.done []) ∧ s.othersKept t u ∧
      t = { s with
        positioners := t.positioners, sequencer := t.sequencer, zeros := t.zeros, governors := t.governors,
        conditions := t.conditions, store := t.store, links := t.links } := by
  have hab := (s.replyBegins .sv).abortTouch_aborts u .abortedRequest
  rw [exec_abortZero_taken hs hp hsubject]
  generalize (s.replyBegins .sv).abortTouch u .abortedRequest = b at *
  refine ⟨_, rfl, (hab.aborted (s := s) ⟨rfl, rfl, rfl, rfl⟩).then rfl rfl rfl rfl rfl rfl, hab.conditions,
    Decision.repliedBy (d := ⟨b, Answer.done []⟩) (k := .abortZero) ?_, hab.others, ?_⟩
  · rw [hab.rest]
  · have hrest : b = { s with
        positioners := b.positioners, sequencer := b.sequencer, zeros := b.zeros, governors := b.governors,
        conditions := b.conditions, store := b.store, links := b.links } := by
      rw [hab.rest]
      rfl
    exact congrArg (fun c : State => { c with links := (b.modLink .sv fun i =>
      { i with reply := replyFrame tag Kind.abortZero.code (Answer.done []) }).links }) hrest

/-- A relief onset aborts the touch, between the reports of the repeated relief and of RELIEF (R135, R136). -/
theorem exec_pressureArrival_aborts {loop : LoopReading} (hs : s.powered = true) (hp : s.present u = true)
    (hsub : s.isSubject u = true) (hsource : (s.crusher u).reliefSource = .analog)
    (hactive : (s.supervisor u).detectorActive = false)
    (habove : (s.crusher u).reliefLevel ≤ (analogOf loop (s.crusher u).pressureSpan).scaled) :
    ∃ t, exec (.pressureArrival u loop) s = .next t ∧ TouchAborted u .abortedRelief s t ∧
      (s.reliefTrips u → t.conditions =
        (s.abortTold u .abortedRelief (s.conditions.onset .repeatedRelief (.crusher u) none s.stamp)).onset .relief
          (.crusher u) none s.stamp) ∧
      (¬s.reliefTrips u → t.conditions =
        (s.abortTold u .abortedRelief s.conditions).onset .relief (.crusher u) none s.stamp) := by
  set x := analogOf loop (s.crusher u).pressureSpan with hx
  have hon : detectorAnalog (s.crusher u) (s.supervisor u).detectorActive x.scaled = true := by
    rw [detectorAnalog_eq, hactive]
    exact decide_eq_true habove
  have hstop := (s.keepPressure u x).reliefStopped_stops u
  have hjudge : (s.keepPressure u x).judgePressure u x.scaled =
      (((s.keepPressure u x).reliefStopped u).abortIfSubject u .abortedRelief).onset .relief (.crusher u) none :=
    (State.judgePressure_analog (s := s.keepPressure u x) hsource _).trans
      ((congrArg (State.setDetector _ u) hon).trans (State.setDetector_onset (s := s.keepPressure u x) hactive))
  have htrips : (s.keepPressure u x).reliefTrips u ↔ s.reliefTrips u := Iff.rfl
  generalize (s.keepPressure u x).reliefStopped u = a at *
  have hrest := hstop.rest
  have hab := a.abortTouch_aborts u .abortedRelief
  have hasub : a.isSubject u = true := by
    rw [hrest]
    exact hsub
  have hkept : OutcomeKept u s a := by
    refine ⟨?_, ?_, ?_, ?_⟩ <;> rw [hrest] <;> rfl
  rw [State.abortIfSubject, if_pos hasub] at hjudge
  generalize a.abortTouch u .abortedRelief = b at *
  have hastamp : a.stamp = s.stamp := by rw [hrest]; rfl
  have hbstamp : b.stamp = s.stamp := by rw [hab.rest]; exact hastamp
  have hlist : (b.onset .relief (.crusher u) none).conditions =
      (s.abortTold u .abortedRelief a.conditions).onset .relief (.crusher u) none s.stamp := by
    show b.conditions.onset .relief (.crusher u) none b.stamp = _
    rw [hbstamp, hab.conditions, hastamp]
    rfl
  refine ⟨b.onset .relief (.crusher u) none, exec_pressureArrival_judged hs hp hjudge ?_,
    (hab.aborted hkept).then rfl rfl rfl rfl rfl rfl, fun ht => ?_, fun ht => ?_⟩
  · rw [hab.rest]
    rfl
  · rw [hlist, (hstop.trips (htrips.mpr ht)).2.2]
    rfl
  · rw [hlist, (hstop.untripped (mt htrips.mp ht)).2.2]
    rfl

/-- Load in APPROACH aborts the touch, after the judgings for overload and trip (R100). -/
theorem exec_powerArrival_aborts {loop : LoopReading} (hs : s.powered = true) (hp : s.present u = true)
    (hsub : s.isSubject u = true) (hstate : s.sequencer.state = .approach)
    (hload : (s.crusher u).emptyPower < (analogOf loop (s.crusher u).powerSpan).scaled) :
    ∃ t, exec (.powerArrival u loop) s = .next t ∧ TouchAborted u .abortedLoaded s t ∧
      ((s.supervisor u).overload = false → (s.supervisor u).tripCause = false →
        (analogOf loop (s.crusher u).powerSpan).scaled < (s.crusher u).tripLevel →
        t.conditions = s.abortTold u .abortedLoaded s.conditions) := by
  set x := analogOf loop (s.crusher u).powerSpan with hx
  have hj : Judged (s.withPower u x) ((s.withPower u x).judgeOverload u x.scaled) :=
    ⟨((s.withPower u x).judgeOverload_rest u x.scaled).1⟩
  have hquiet := State.governor_judgeOverload_of (s := s.withPower u x) (u := u) (power := x.scaled)
  have hcause := ((s.withPower u x).judgeOverload_keeps u x.scaled).2.2.2.1
  have hexec := exec_powerArrival_present (loop := loop) hs hp hx.symm
  generalize (s.withPower u x).judgeOverload u x.scaled = j at *
  have hk := hj.trans (j.judgePowerTrip_judged u x.scaled)
  have hsame := State.judgePowerTrip_eq_self (s := j) (t := u) (power := x.scaled)
  generalize j.judgePowerTrip u x.scaled = k at *
  have hab := k.abortTouch_aborts u .abortedLoaded
  have hseq : k.sequencer = s.sequencer := by rw [hk.rest]; rfl
  have hcrusher (k : State) (hk : Judged (s.withPower u x) k) : k.crusher u = s.crusher u := by rw [hk.rest]; rfl
  have hjudged : k.judgeLoad u x.scaled = k.abortTouch u .abortedLoaded := by
    refine if_pos ?_
    rw [State.isSubject, hseq, hcrusher k hk, hstate]
    simpa [State.isSubject, hload] using hsub
  refine ⟨_, hexec.trans (congrArg _ hjudged), hab.aborted ⟨?_, ?_, hseq, ?_⟩, fun hover htrip hlevel => ?_⟩
  · rw [hk.rest]; rfl
  · rw [hk.rest]; rfl
  · rw [hk.rest]; rfl
  · have hstamp : k.stamp = s.stamp := by rw [hk.rest]; rfl
    have hkj : k = j := hsame (hcause.trans htrip) (by rw [hcrusher j hj]; exact hlevel)
    rw [hab.conditions, hstamp, hkj, (hquiet hover).2.1]
    rfl

/-- A lost position aborts the touch, before POSITION_FAULT is reported (R57; log 24). -/
theorem exec_positionArrival_aborts {reading : Option (BitVec 16)} (hs : s.powered = true) (hp : s.present u = true)
    (hsub : s.isSubject u = true) (hv : (s.gap u).validity = .valid) (hfirst : (s.gap u).firstReadingDue = false)
    (hout : ∀ r, reading = some r → r.toNat < (s.crusher u).posLow ∨ (s.crusher u).posHigh < r.toNat) :
    ∃ t, exec (.positionArrival u reading) s = .next t ∧ TouchAborted u .abortedPosition s t ∧
      t.conditions = if (s.gap u).faultStanding then s.abortTold u .abortedPosition s.conditions
        else (s.abortTold u .abortedPosition s.conditions).onset .positionFault (.crusher u) none s.stamp := by
  have hkeep := s.keepReading_rest u reading
  have hexec (t : State) := exec_positionArrival_outside (t := t) hs hp hout
  generalize s.keepReading u reading = w at *
  have htaken : (w.modGap u GapMeasurement.lost).takeFirstReading u = w.modGap u GapMeasurement.lost :=
    State.takeFirstReading_eq_self (by rw [State.gap_lost, hkeep]; exact hfirst)
  have hgap : w.gap u = s.gap u := by rw [hkeep]; rfl
  have hsteps := w.positionOutside_steps u
  rw [htaken, State.evaluate_addReason_lost, hgap] at hsteps
  dsimp only at hsteps
  rw [if_pos hv, State.abortIfSubject] at hsteps
  have hlost := w.positionLost_gap u
  have hrest : w.positionLost u = { s with
    inputs := w.inputs, crushers := (w.positionLost u).crushers, gaps := (w.positionLost u).gaps
    positioners := (w.positionLost u).positioners } := by rw [hkeep]; rfl
  generalize w.positionLost u = a at *
  have hab := a.abortTouch_aborts u .abortedPosition
  have hkept : OutcomeKept u s a := by
    refine ⟨?_, ?_, ?_, ?_⟩
    · rw [hrest]; rfl
    · rw [hlost, hgap]; rfl
    · rw [hrest]
    · rw [hrest]
  have hasub : a.isSubject u = true := by rw [hrest]; exact hsub
  rw [if_pos hasub] at hsteps
  generalize a.abortTouch u .abortedPosition = b at *
  have haborted := hab.aborted hkept
  have hastamp : a.stamp = s.stamp := by rw [hrest]; rfl
  have hbstamp : b.stamp = s.stamp := by rw [hab.rest]; exact hastamp
  have hlist : b.conditions = s.abortTold u .abortedPosition s.conditions := by
    rw [hab.conditions, hastamp, hrest]
    rfl
  have hbsub : b.isSubject u = false := by rw [hab.rest]; rfl
  have hbstate : (b.positioner u).state ≠ .jogging := by simp [haborted.state]
  cases hstood : (s.gap u).faultStanding
  · rw [hstood] at hsteps
    refine ⟨_, hexec _ hsteps hbstate (.inl hbsub), haborted.then rfl rfl rfl rfl rfl rfl, ?_⟩
    show b.conditions.onset _ _ _ b.stamp = _
    rw [hbstamp, hlist]
    rfl
  · rw [hstood] at hsteps
    exact ⟨b, hexec _ hsteps hbstate (.inl hbsub), haborted, hlist⟩

/-- Settles O47: each event as the abort it brings. -/
theorem eventsAbortTheTouch : Obligations.EventsAbortTheTouch := by
  refine ⟨?_, ?_⟩
  · intro u s hs hp hsubject hrunning hlent hv hfirst told aborts
    have hon : s.powered = true := hs.1.1
    have hsub : s.isSubject u = true := State.isSubject_iff.mpr hsubject
    have habort {c : Instr} {r : TouchResult} {lists : ConditionList → Prop} {t : State} (hexec : exec c s = .next t)
        (h : TouchAborted u r s t) (hl : lists t.conditions) : aborts c r lists :=
      ⟨t, s.abortOutcome u r, hexec, by rw [h.zero], rfl, rfl, fun k hk => by
        simp only [State.abortOutcome, State.touchDuration, hk], hl, rfl, rfl, rfl, rfl, by rw [h.zero], by rw [h.zero],
        by rw [h.zero], h.wear, h.sequencer, h.state, h.drive, h.pending, h.hold, h.marked⟩
    clear_value aborts
    refine ⟨fun k hk hdue => ?_, fun tag => ?_, fun loop hsource hactive habove => ?_, fun hdue hraw => ?_,
      fun loop hstate hload => ?_, fun reading hout => ?_⟩
    · obtain ⟨t, hexec, ht, hl⟩ := exec_timeLimitExpiry_aborts hon hsubject hk hdue
      exact habort hexec ht hl
    · obtain ⟨t, hexec, ht, hl, -⟩ := exec_abortZero_aborts (tag := tag) hs hp hsubject
      exact habort hexec ht hl
    · obtain ⟨t, hexec, ht, hyes, hno⟩ := exec_pressureArrival_aborts hon hp hsub hsource hactive habove
      intro entered within
      refine habort hexec ht ?_
      split
      · next h => exact hyes (State.reliefTrips_iff.mpr h)
      · next h => exact hno fun k => h (State.reliefTrips_iff.mp k)
    · obtain ⟨t, hexec, ht, hl⟩ := exec_digitalChange_aborts hon hp hsub hdue hraw
      exact habort hexec ht hl
    · obtain ⟨t, hexec, ht, hl⟩ := exec_powerArrival_aborts hon hp hsub hstate hload
      exact habort hexec ht hl
    · obtain ⟨t, hexec, ht, hl⟩ := exec_positionArrival_aborts hon hp hsub hv hfirst hout
      exact habort hexec ht hl
  · intro u tag s hs hp hsubject
    obtain ⟨t, hexec, -, hl, hreplied, hothers, hrest⟩ := exec_abortZero_aborts (tag := tag) hs hp hsubject
    exact ⟨t, hexec, hreplied, hothers, hrest, hl⟩

end Sys2Proof.Machine
end

section
/-! PROOFS. The commit of a touch (R103 to R105). -/

namespace Sys2Proof.Machine

variable {a b s t : State} {u : Train} {contact : Nat}

/-- The wear found, from the shift (R103). -/
theorem wearFoundOf_eq (gain z contact : Nat) :
    wearFoundOf gain z contact =
      if contact ≤ z then ((min (shiftOf z contact * gain / 1024) 3000 : Nat) : Int)
      else -((min (shiftOf z contact * gain / 1024) 3000 : Nat) : Int) := by
  unfold wearFoundOf shiftOf
  split
  · push_cast
    rfl
  · omega

/-- A mark starts no write while one runs, or once a RESTART has been taken (R166, R170). -/
theorem State.mark_of_busy {sec : StoreSection} (h : s.store.writing ≠ none ∨ s.restart ≠ .notTaken) :
    s.mark sec = s.withStore { s.store with dirty := s.store.dirty.put sec true } := by
  rcases h with h | h
  · exact State.mark_writing h
  · exact if_pos (by simp [h])

/-- ZERO and then WEAR marked: WEAR is dirty, and ZERO is dirty or being written (R166). -/
theorem State.mark_zero_wear (s : State) :
    ((s.mark .zero).mark .wear).store.dirty.wear = true ∧
      (((s.mark .zero).mark .wear).store.dirty.zero = true ∨
        ((s.mark .zero).mark .wear).store.writing.map WriteJob.sec = some .zero) := by
  have hbusy : (s.mark .zero).store.writing ≠ none ∨ (s.mark .zero).restart ≠ .notTaken := by
    by_cases hr : s.restart = .notTaken
    · by_cases hw : s.store.writing = none
      · refine .inl ?_
        rw [State.mark_idle hr hw (sec := .zero) (by simp [DirtySet.first, DirtySet.put])]
        exact Option.some_ne_none _
      · refine .inl ?_
        rw [State.mark_writing hw]
        exact hw
    · refine .inr ?_
      rw [State.mark_eq_withStore]
      exact hr
  rw [State.mark_of_busy hbusy]
  have hzero : (s.mark .zero).store.dirty.zero = true ∨ (s.mark .zero).store.writing.map WriteJob.sec = some .zero :=
    (s.mark_marks .zero).imp_left DirtySet.zero_of_put
  exact ⟨rfl, hzero⟩

/-- The outcome of an accepted touch (R104). -/
def State.acceptOutcome (s : State) (u : Train) (contact : Nat) : TouchOutcome :=
  ⟨.accepted, (s.zero u).zeroNow, some contact,
    if (s.zero u).valid then some (wearFoundOf (s.crusher u).gain (s.zero u).z contact) else none,
    (s.gap u).wear, s.touchDuration, s.stamp⟩

/-- The records of an accepted touch before the touch ends and WEAR_LIMIT is judged, the store apart (R104). -/
def State.accepted (s : State) (u : Train) (contact : Nat) : State :=
  { s with
    zeros := s.zeros.set u { s.zero u with outcome := some (s.acceptOutcome u contact), z := contact, valid := true }
    gaps := s.gaps.set u { s.gap u with wear := 0, gap := none }
    positioners := s.positioners.set u { s.positioner u with reasons := (s.positioner u).reasons.put .noZero false }
    crushers := s.crushers.set u { s.station (crusherOf u) with lastAccepting := false }
    conditions := if (s.zero u).valid then s.conditions else s.conditions.causeEnded .zeroUnset (.crusher u) }

theorem State.acceptTouch_eq (hstate : (s.positioner u).state ≠ .suspended)
    (hmode : (s.station (crusherOf u)).mode ≠ .run) :
    ∃ store : Store, (store.dirty.wear = true ∧ (store.dirty.zero = true ∨ store.writing.map WriteJob.sec = some .zero)) ∧
      s.acceptTouch u contact = ((s.accepted u contact).withStore store).judgeWearLimit u (s.wearLimitStands u) := by
  set w : State := { s with
    zeros := s.zeros.set u { s.zero u with outcome := some (s.acceptOutcome u contact), z := contact, valid := true }
    gaps := s.gaps.set u { s.gap u with wear := 0, gap := none } } with hw
  have hmarks := w.mark_zero_wear
  have hstore : (w.mark .zero).mark .wear = w.withStore ((w.mark .zero).mark .wear).store :=
    ((w.mark .zero).mark_eq_withStore .wear).trans
      (congrArg (State.withStore · ((w.mark .zero).mark .wear).store) (w.mark_eq_withStore .zero) :)
  have haccept : s.acceptTouch u contact =
      let a := (((w.mark .zero).mark .wear).removeReason u .noZero).evaluate (crusherOf u)
      (if (s.zero u).valid then a else a.causeEnd .zeroUnset (.crusher u)).judgeWearLimit u (s.wearLimitStands u) := rfl
  rw [haccept]
  generalize ((w.mark .zero).mark .wear).store = store at *
  refine ⟨store, hmarks, ?_⟩
  have hreason := State.removeReason_eq (s := w.withStore store) (u := u) (r := .noZero) (.inl hstate)
  have hno : ((w.withStore store).modPositioner u fun p => { p with reasons := p.reasons.put .noZero false }).accepting
      (crusherOf u) = false := State.accepting_of_mode hmode
  rw [hstore, hreason]
  dsimp only
  rw [State.evaluate_eq (.inl hno), hno]
  refine congrArg (State.judgeWearLimit · u _) ?_
  rw [State.accepted]
  cases (s.zero u).valid <;> rfl

/-- What a commit does, whichever way it goes: the reasons, the zero record, the gap and the List it leaves (R103). -/
structure TouchCommitted (u : Train) (reasons : Reasons) (z : ZeroRecord) (g : GapMeasurement) (l : ConditionList)
    (a b : State) : Prop where
  rest : b = { a with
    crushers := b.crushers, gaps := b.gaps, positioners := b.positioners, sequencer := Sequencer.atStart
    zeros := b.zeros, governors := b.governors, conditions := l, store := b.store }
  others : a.othersKept b u
  station : b.station (crusherOf u) =
    { a.station (crusherOf u) with lastAccepting := (b.station (crusherOf u)).lastAccepting }
  positioner : b.positioner u = { (a.positioner u).returned a.now with reasons := reasons }
  zero : b.zero u = z
  gap : b.gap u = g
  governor : b.governor u = (a.governor u).release .calibration
  marked : b.store.dirty.zero = true ∨ b.store.writing.map WriteJob.sec = some .zero

/-- The return of the drive does not speak of the reasons. -/
theorem Positioner.returned_with_reasons (now : Nat) (r : Reasons) (p : Positioner) :
    ({ p with reasons := r } : Positioner).returned now = { p.returned now with reasons := r } := by
  rw [Positioner.returned_eq, Positioner.returned_eq]

/-- The outcome of a rejected touch (R105). -/
def State.rejectOutcome (s : State) (u : Train) (contact : Nat) : TouchOutcome :=
  ⟨.rejectedShift, some (s.zero u).z, some (s.zero u).z, some (wearFoundOf (s.crusher u).gain (s.zero u).z contact),
    (s.gap u).wear, s.touchDuration, s.stamp⟩

/-- The records of a rejected touch before it ends (R105). -/
theorem State.rejectTouch_eq (s : State) (u : Train) (contact : Nat) :
    s.rejectTouch u contact = { s with
      zeros := s.zeros.set u { s.zero u with outcome := some (s.rejectOutcome u contact), rejected := true }
      conditions := (s.conditions.onset .zeroRejected (.crusher u) none s.stamp).causeEnded .zeroRejected (.crusher u) } :=
  rfl

theorem State.rejectTouch_committed (s : State) (u : Train) (contact : Nat) :
    TouchCommitted u (s.positioner u).reasons
      { s.zero u with outcome := some (s.rejectOutcome u contact), rejected := true } (s.gap u)
      ((s.conditions.onset .zeroRejected (.crusher u) none s.stamp).causeEnded .zeroRejected (.crusher u)) s
      (((s.rejectTouch u contact).endTouch u).mark .zero) := by
  have hmarks := ((s.rejectTouch u contact).endTouch u).mark_marks .zero
  rw [State.mark_eq_withStore] at hmarks ⊢
  generalize (((s.rejectTouch u contact).endTouch u).mark .zero).store = store at *
  rw [State.endTouch_eq, State.rejectTouch_eq] at hmarks ⊢
  exact {
    rest := rfl
    others := fun v hv => ⟨rfl, rfl, rfl, Quad.get_set_of_ne _ hv _, Quad.get_set_of_ne _ hv _,
      Quad.get_set_of_ne _ hv _, rfl⟩
    station := rfl
    positioner := (Quad.get_set_self ..).trans (Positioner.returned_with_reasons s.now _ (s.positioner u))
    zero := Quad.get_set_self ..
    gap := rfl
    governor := Quad.get_set_self ..
    marked := hmarks.imp_left DirtySet.zero_of_put }

theorem State.acceptTouch_committed (hstate : (s.positioner u).state = .lent)
    (hmode : (s.station (crusherOf u)).mode = .maintenance) :
    TouchCommitted u ((s.positioner u).reasons.put .noZero false)
      { s.zero u with outcome := some (s.acceptOutcome u contact), z := contact, valid := true }
      { s.gap u with wear := 0, gap := none }
      (let set := if (s.zero u).valid then s.conditions else s.conditions.causeEnded .zeroUnset (.crusher u)
       if 0 < (s.crusher u).wearLimit ∧ (s.crusher u).wearLimit * 100 ≤ (s.gap u).wear then
         set.causeEnded .wearLimit (.crusher u) else set) s ((s.acceptTouch u contact).endTouch u) ∧
      ((s.acceptTouch u contact).endTouch u).store.dirty.wear = true := by
  obtain ⟨store, ⟨hwear, hzero⟩, haccept⟩ := State.acceptTouch_eq (s := s) (u := u) (contact := contact) (by simp [hstate])
    (by simp [hmode])
  have hstands : ((s.accepted u contact).withStore store).wearLimitStands u = decide ((s.crusher u).wearLimit * 100 ≤ 0) :=
    congrArg (fun g : GapMeasurement => decide ((s.crusher u).wearLimit * 100 ≤ g.wear)) (Quad.get_set_self ..)
  have hlist := ((s.accepted u contact).withStore store).judgeWearLimit_conditions u (s.wearLimitStands u)
  rw [hstands, State.wearLimitStands] at hlist
  have hends : (((s.accepted u contact).withStore store).judgeWearLimit u (s.wearLimitStands u)).conditions =
      (let set := if (s.zero u).valid then s.conditions else s.conditions.causeEnded .zeroUnset (.crusher u)
       if 0 < (s.crusher u).wearLimit ∧ (s.crusher u).wearLimit * 100 ≤ (s.gap u).wear then
         set.causeEnded .wearLimit (.crusher u) else set) := by
    refine hlist.trans ?_
    show (if _ then _ else if _ then ConditionList.causeEnded _ .wearLimit _ else _) = _
    rcases Nat.eq_zero_or_pos (s.crusher u).wearLimit with hzero | hpos
    · simp [hzero]
      rfl
    · have hno : ¬(s.crusher u).wearLimit * 100 ≤ 0 := by omega
      simp [hno, hpos]
      rfl
  rw [haccept, State.judgeWearLimit_rest, hends, State.endTouch_eq]
  refine ⟨{
    rest := rfl
    others := fun v hv => ⟨rfl, Quad.get_set_of_ne _ hv _, Quad.get_set_of_ne _ hv _, ?_, Quad.get_set_of_ne _ hv _,
      Quad.get_set_of_ne _ hv _, rfl⟩
    station := ?_
    positioner := ?_
    zero := Quad.get_set_self ..
    gap := Quad.get_set_self ..
    governor := Quad.get_set_self ..
    marked := hzero }, hwear⟩
  · exact (Quad.get_set_of_ne _ hv _).trans (Quad.get_set_of_ne _ hv _)
  · have hstation : (s.crushers.set u { s.station (crusherOf u) with lastAccepting := false }).get u =
        { s.station (crusherOf u) with lastAccepting := false } := Quad.get_set_self ..
    exact hstation.trans (congrArg (fun r : StationRecord =>
      { s.station (crusherOf u) with lastAccepting := r.lastAccepting }) hstation.symm)
  · have hreasons : (s.positioners.set u { s.positioner u with reasons := (s.positioner u).reasons.put .noZero false }).get u =
        { s.positioner u with reasons := (s.positioner u).reasons.put .noZero false } := Quad.get_set_self ..
    refine (Quad.get_set_self ..).trans ((congrArg (Positioner.returned s.now) hreasons).trans ?_)
    exact Positioner.returned_with_reasons ..

/-- A reading that reaches the backoff target commits the touch (R102). -/
theorem State.judgeBackoff_reached {p target : Nat} (hsub : s.isSubject u = true) (hstate : s.sequencer.state = .backoff)
    (hcontact : s.sequencer.contact = some contact) (htarget : s.sequencer.target = some target) (hreached : target ≤ p) :
    s.judgeBackoff u p = s.commitTouch u contact := by
  simp only [State.judgeBackoff, hsub, hstate, hcontact, htarget, hreached]
  rfl

/-- The state in which a commit is judged: the reading kept, its gap measured, the Sequencer in COMMIT. -/
def State.committing (s : State) (u : Train) (r : BitVec 16) : State :=
  ((s.keepPosition u r).modGap u fun g => { g with gap := (s.keepPosition u r).gapOf u r.toNat }).modSequencer fun q =>
    { q with state := .commit }

theorem exec_positionArrival_commits {r : BitVec 16} {target : Nat} (hs : s.powered = true) (hp : s.present u = true)
    (hsubject : s.sequencer.subject = some u) (hstate : s.sequencer.state = .backoff)
    (hcontact : s.sequencer.contact = some contact) (htarget : s.sequencer.target = some target)
    (hreached : target ≤ r.toNat) (hv : (s.gap u).validity = .valid) (hlow : (s.crusher u).posLow ≤ r.toNat)
    (hhigh : r.toNat ≤ (s.crusher u).posHigh) (hlent : (s.positioner u).state = .lent) :
    exec (.positionArrival u (some r)) s =
      .next (if (s.zero u).valid && (s.crusher u).zeroShiftMax < shiftOf (s.zero u).z contact then
        (((s.committing u r).rejectTouch u contact).endTouch u).mark .zero
      else ((s.committing u r).acceptTouch u contact).endTouch u) := by
  have hjog : (((s.keepPosition u r).modGap u fun g =>
      { g with gap := (s.keepPosition u r).gapOf u r.toNat }).positioner u).state ≠ .jogging := fun h =>
    PositionerState.noConfusion (hlent.symm.trans h)
  rw [exec_positionArrival_inside hs hp hlow hhigh, State.positionInside_valid (s := s.keepPosition u r) hv,
    State.judgeJog_eq_self (.inl hjog)]
  exact congrArg _ (State.judgeBackoff_reached (s := (s.keepPosition u r).modGap u fun g =>
    { g with gap := (s.keepPosition u r).gapOf u r.toNat }) (State.isSubject_iff.mpr hsubject) hstate hcontact htarget hreached)

/-- The two ways a commit goes, with what each leaves (R103 to R105). -/
inductive CommitGoes (u : Train) (contact : Nat) (a b : State) : TouchOutcome → Prop
  | rejects (hvalid : (a.zero u).valid = true) (hshift : (a.crusher u).zeroShiftMax < shiftOf (a.zero u).z contact)
      (h : TouchCommitted u (a.positioner u).reasons
        { a.zero u with outcome := some (a.rejectOutcome u contact), rejected := true } (a.gap u)
        ((a.conditions.onset .zeroRejected (.crusher u) none a.stamp).causeEnded .zeroRejected (.crusher u)) a b) :
      CommitGoes u contact a b (a.rejectOutcome u contact)
  | accepts (hno : ¬((a.zero u).valid = true ∧ (a.crusher u).zeroShiftMax < shiftOf (a.zero u).z contact))
      (h : TouchCommitted u ((a.positioner u).reasons.put .noZero false)
        { a.zero u with outcome := some (a.acceptOutcome u contact), z := contact, valid := true }
        { a.gap u with wear := 0, gap := none }
        (let set := if (a.zero u).valid then a.conditions else a.conditions.causeEnded .zeroUnset (.crusher u)
         if 0 < (a.crusher u).wearLimit ∧ (a.crusher u).wearLimit * 100 ≤ (a.gap u).wear then
           set.causeEnded .wearLimit (.crusher u) else set) a b)
      (hwear : b.store.dirty.wear = true) : CommitGoes u contact a b (a.acceptOutcome u contact)

theorem State.commit_goes (hstate : (s.positioner u).state = .lent)
    (hmode : (s.station (crusherOf u)).mode = .maintenance) :
    ∃ b o, (if (s.zero u).valid && (s.crusher u).zeroShiftMax < shiftOf (s.zero u).z contact then
        ((s.rejectTouch u contact).endTouch u).mark .zero else (s.acceptTouch u contact).endTouch u) = b ∧
      CommitGoes u contact s b o := by
  by_cases h : (s.zero u).valid = true ∧ (s.crusher u).zeroShiftMax < shiftOf (s.zero u).z contact
  · exact ⟨_, _, if_pos (by simpa using h), .rejects h.1 h.2 (s.rejectTouch_committed u contact)⟩
  · obtain ⟨haccept, hwear⟩ := State.acceptTouch_committed (s := s) (u := u) (contact := contact) hstate hmode
    exact ⟨_, _, if_neg (by simpa using h), .accepts h haccept hwear⟩

/-- What both ways leave (R103). -/
structure CommitLeaves (u : Train) (contact : Nat) (o : TouchOutcome) (a b : State) : Prop where
  outcome : (b.zero u).outcome = some o
  aborted : (b.zero u).aborted = (a.zero u).aborted
  wear : o.wear = (a.gap u).wear
  stamp : o.stamp = a.stamp
  duration : o.duration = a.touchDuration
  wearFound : o.wearFound =
    if (a.zero u).valid then some (wearFoundOf (a.crusher u).gain (a.zero u).z contact) else none
  rest : b = { a with
    crushers := b.crushers, gaps := b.gaps, positioners := b.positioners, sequencer := Sequencer.atStart
    zeros := b.zeros, governors := b.governors, conditions := b.conditions, store := b.store }
  others : a.othersKept b u
  station : b.station (crusherOf u) =
    { a.station (crusherOf u) with lastAccepting := (b.station (crusherOf u)).lastAccepting }
  positioner : b.positioner u = { (a.positioner u).returned a.now with reasons := (b.positioner u).reasons }
  governor : b.governor u = (a.governor u).release .calibration
  marked : b.store.dirty.zero = true ∨ b.store.writing.map WriteJob.sec = some .zero

theorem CommitGoes.leaves {o : TouchOutcome} (h : CommitGoes u contact a b o) : CommitLeaves u contact o a b := by
  have hcommon {reasons : Reasons} {z : ZeroRecord} {g : GapMeasurement} {l : ConditionList}
      (h : TouchCommitted u reasons z g l a b) (ho : z.outcome = some o) (hz : z.aborted = (a.zero u).aborted)
      (hwear : o.wear = (a.gap u).wear) (hstamp : o.stamp = a.stamp) (hduration : o.duration = a.touchDuration)
      (hfound : o.wearFound =
        if (a.zero u).valid then some (wearFoundOf (a.crusher u).gain (a.zero u).z contact) else none) :
      CommitLeaves u contact o a b :=
    ⟨by rw [h.zero, ho], by rw [h.zero, hz], hwear, hstamp, hduration, hfound, by rw [h.rest], h.others, h.station,
      by rw [h.positioner], h.governor, h.marked⟩
  cases h with
  | rejects hvalid hshift h => exact hcommon h rfl rfl rfl rfl rfl (by rw [hvalid]; rfl)
  | accepts hno h hwear => exact hcommon h rfl rfl rfl rfl rfl rfl

/-- Settles O46: the contact rejected or accepted, and the touch ended. -/
theorem touchCommitsAtTheBackoffTarget : Obligations.TouchCommitsAtTheBackoffTarget := by
  intro u r contact target s hs hp hsubject hstate hcontact htarget hreached hv hlow hhigh hlent hmode zero shift rejected
  have hexec := exec_positionArrival_commits hs hp hsubject hstate hcontact htarget hreached hv hlow hhigh hlent
  have hgap : (s.committing u r).gap u = { s.gap u with gap := (s.keepPosition u r).gapOf u r.toNat } :=
    Quad.get_set_self ..
  have hother : s.othersKept (s.committing u r) u := s.othersKept_modGap u fun g =>
    { g with gap := (s.keepPosition u r).gapOf u r.toNat }
  obtain ⟨b, o, hb, hgoes⟩ := State.commit_goes (s := s.committing u r) (u := u) (contact := contact) hlent hmode
  have hrest : s.committing u r = { s with
    inputs := (s.committing u r).inputs, gaps := (s.committing u r).gaps
    sequencer := { s.sequencer with state := .commit } } := rfl
  rw [show (if (s.zero u).valid && (s.crusher u).zeroShiftMax < shiftOf (s.zero u).z contact then _ else _) = b from hb]
    at hexec
  generalize s.committing u r = m at *
  have hleaves := hgoes.leaves
  have hwear : (m.gap u).wear = (s.gap u).wear := by rw [hgap]
  have hzero : m.zero u = zero := by rw [hrest]; rfl
  have hcrusher : m.crusher u = s.crusher u := by rw [hrest]; rfl
  have hstamp : m.stamp = s.stamp := by rw [hrest]; rfl
  have hduration {k : Nat} (hk : s.sequencer.start = some k) : m.touchDuration = elapsed s.now k := by
    rw [State.touchDuration, hrest]
    simp only [hk]
    rfl
  have hpositioner := hleaves.positioner
  rw [Positioner.returned_eq] at hpositioner
  have hmp : m.positioner u = s.positioner u := by rw [hrest]; rfl
  have hmg : m.governor u = s.governor u := by rw [hrest]; rfl
  have hcalibration : (b.governor u).holds.calibration = false := by
    rw [hleaves.governor]
    exact (m.governor u).release_has .calibration
  have hmove : (b.positioner u).move = (s.positioner u).move :=
    (congrArg Positioner.move hpositioner).trans (show (m.positioner u).move = _ by rw [hmp])
  have hothers : s.othersKept b u := hother.trans hleaves.others
  refine ⟨b, o, hexec, hleaves.outcome, ?_, hleaves.wear.trans hwear, hleaves.stamp.trans hstamp, ?_, ?_,
    congrArg Positioner.state hpositioner, congrArg Positioner.drive hpositioner,
    congrArg Positioner.pendingDrive hpositioner, hmove,
    fun d hd => ?_, hcalibration, hleaves.governor.trans (congrArg (Governor.release · .calibration) hmg), hleaves.marked,
    fun k hk => hleaves.duration.trans (hduration hk), hleaves.aborted.trans (congrArg _ hzero), ?_, ?_, ?_, ?_, fun hr => ?_,
    fun hr => ?_⟩
  · refine ⟨?_, ?_, ?_, ?_, ?_, ?_, rfl, ?_, ?_, hothers⟩ <;> rw [hleaves.rest, hrest]
  · rw [hleaves.wearFound, hzero, hcrusher, wearFoundOf_eq]
    rfl
  · rw [hleaves.rest]
    rfl
  · refine (congrArg Positioner.lastEnd hpositioner).trans ?_
    rw [hmp, hd, State.now, hrest]
    rfl
  · rw [hleaves.rest, hrest]
  · rw [hleaves.rest, hrest]
  · rw [hleaves.rest, hrest]
    rfl
  · rw [hleaves.station, show m.station (crusherOf u) = s.station (crusherOf u) by rw [hrest]; rfl]
  · cases hgoes with
    | rejects hvalid hshift h =>
      refine ⟨rfl, congrArg (fun z : ZeroRecord => some z.z) hzero, congrArg (fun z : ZeroRecord => some z.z) hzero, ?_, ?_, ?_,
        ?_, ?_, ?_⟩
      · rw [h.zero, hzero]
      · rw [h.zero]
        exact hvalid
      · rw [h.zero]
      · rw [h.gap, hwear]
      · rw [h.positioner, hmp]
      · rw [h.rest, hstamp, hrest]
    | accepts hno h hmarked => exact absurd (by rw [hzero, hcrusher]; exact hr) hno
  · cases hgoes with
    | rejects hvalid hshift h =>
      rw [hzero] at hvalid hshift
      rw [hcrusher] at hshift
      exact absurd ⟨hvalid, hshift⟩ hr
    | accepts hno h hmarked =>
      refine ⟨rfl, congrArg ZeroRecord.zeroNow hzero, rfl, ?_, ?_, ?_, ?_, ?_, hmarked, ?_⟩
      · rw [h.zero]
      · rw [h.zero]
      · rw [h.zero, hzero]
      · rw [h.gap, hgap]
      · rw [h.positioner, hmp]
        rfl
      · rw [h.rest, hzero, hcrusher, hwear, hrest]

end Sys2Proof.Machine
end

section
/-! PROOFS. Setting requests and WITHDRAW on the Request Board (R31 to R36, R44, R45). -/

namespace Sys2Proof.Machine

variable {a b s t : State} {u : Train} {st : Station} {r : Slot}

/-! ### A target reported to a crusher that was accepting selects nothing (R8) -/

/-- The board, a crusher's setting and its last-applied record are as before. -/
structure SettingKept (u : Train) (a b : State) : Prop where
  board : b.board = a.board
  standing : (b.station (crusherOf u)).standing = (a.station (crusherOf u)).standing
  lastApplied : (b.station (crusherOf u)).lastApplied = (a.station (crusherOf u)).lastApplied

theorem SettingKept.refl (a : State) (u : Train) : SettingKept u a a := ⟨rfl, rfl, rfl⟩

theorem State.arriveIdle_keepsSetting (h : (s.station (crusherOf u)).lastAccepting = true) :
    SettingKept u s (s.arriveIdle u) := by
  unfold State.arriveIdle
  split
  · have heval : s.endEpisode u = (s.episodeEnded u).modStation (crusherOf u) fun r =>
        { r with lastAccepting := (s.episodeEnded u).accepting (crusherOf u) } :=
      State.evaluateWith_eq (.inr (.inl h))
    rw [heval]
    refine ⟨State.modStation_board .., ?_, ?_⟩ <;> rw [State.station_modStation] <;> rfl
  · exact .refl s u

theorem State.startMove_keepsSetting (s : State) (u : Train) (e : Int) : SettingKept u s (s.startMove u e) := by
  unfold State.startMove
  dsimp only
  split
  · exact ⟨rfl, rfl, rfl⟩
  · split <;> exact ⟨rfl, rfl, rfl⟩

theorem State.retargetIdle_keepsSetting (s : State) (u : Train) : SettingKept u s (s.retargetIdle u) := by
  unfold State.retargetIdle State.startMoveOr
  split
  · split
    · exact .refl s u
    · split
      · exact .refl s u
      · exact s.startMove_keepsSetting u _
  · exact .refl s u

theorem State.judgeMove_keepsSetting {f : Nat → CrusherParams → Int → Positioner → Positioner}
    (h : (s.station (crusherOf u)).lastAccepting = true) : SettingKept u s (s.judgeMove u f) := by
  have hend : SettingKept u s (s.endMove u) := by
    rw [MoveClosed.endMove_eq]
    obtain ⟨hboard, hstanding, happlied⟩ :=
      State.arriveIdle_keepsSetting (s := (s.modPositioner u (Positioner.ended s.now)).removeHold u .gapMove) h
    exact ⟨hboard, hstanding, happlied⟩
  unfold State.judgeMove
  split
  · exact hend
  · split
    · exact hend
    · exact ⟨rfl, rfl, rfl⟩

/-- The setting of a crusher stays while its Positioner takes a new target, where the crusher was accepting (R79). -/
theorem State.retarget_keepsSetting (h : (s.station (crusherOf u)).lastAccepting = true) :
    SettingKept u s (s.retarget u) := by
  have hjudge (f : Nat → CrusherParams → Int → Positioner → Positioner) :
      SettingKept u s ((s.restartMoveTimer u).judgeMove u f) := by
    obtain ⟨hboard, hstanding, happlied⟩ := State.judgeMove_keepsSetting (s := s.restartMoveTimer u) (f := f) h
    exact ⟨hboard, hstanding, happlied⟩
  unfold State.retarget
  split
  · exact s.retargetIdle_keepsSetting u
  · exact hjudge _
  · exact hjudge _
  all_goals exact .refl s u

/-! ### A request applied (R36) -/

/-- The setting and the last-applied record written, before a new target is reported. -/
def State.given (s : State) (r : Slot) : State :=
  (s.modStation r.station fun rec => { rec with lastApplied := some ⟨r.source, r.tag⟩ }).modStation r.station fun rec =>
    { rec with standing := ⟨s.limited r.station r.value, r.priority, .request r.source r.tag r.sequence, r.keep⟩ }

/-- What a request applied to a station leaves, where no selection follows. -/
structure RequestApplied (st : Station) (r : Slot) (a b : State) : Prop where
  rest : b = { a with
    feeders := b.feeders, crushers := b.crushers, positioners := b.positioners, governors := b.governors
    supervisors := b.supervisors, conditions := b.conditions }
  others : a.othersKept b st.train
  standing : (b.station st).standing = ⟨a.limited st r.value, r.priority, .request r.source r.tag r.sequence, r.keep⟩
  lastApplied : (b.station st).lastApplied = some ⟨r.source, r.tag⟩
  mode : (b.station st).mode = (a.station st).mode
  standings : ∀ x, x ≠ st → (b.station x).standing = (a.station x).standing

theorem State.given_applied (s : State) (r : Slot) : RequestApplied r.station r s (s.given r) := by
  refine ⟨?_, ?_, ?_, ?_, ?_, fun x hx => ?_⟩
  · obtain ⟨⟨u, role⟩, _, _, _, _, _, _, _⟩ := r
    cases role <;> rfl
  · exact (s.othersKept_modStation r.station _).trans (State.othersKept_modStation _ r.station _)
  · rw [State.given, State.station_modStation]
  · rw [State.given, State.station_modStation, State.station_modStation]
  · rw [State.given, State.station_modStation, State.station_modStation]
  · rw [State.given, State.station_modStation_of_ne _ hx, State.station_modStation_of_ne _ hx]

theorem RequestApplied.modGovernor (h : RequestApplied st r a b) (f : Governor → Governor) :
    RequestApplied st r a (b.modGovernor st.train f) where
  rest := by
    rw [h.rest]
    rfl
  others := h.others.trans (b.othersKept_modGovernor st.train f)
  standing := h.standing
  lastApplied := h.lastApplied
  mode := h.mode
  standings := h.standings

theorem RequestApplied.moves {c : State} (h : RequestApplied (crusherOf u) r a b) (hm : Moves u b c)
    (hk : SettingKept u b c) : RequestApplied (crusherOf u) r a c where
  rest := by
    have hboard := hk.board
    rw [h.rest] at hboard
    calc c
      _ = { b with
          crushers := c.crushers, board := a.board, positioners := c.positioners, governors := c.governors
          supervisors := c.supervisors, conditions := c.conditions } := by
        rw [← hboard]
        exact hm.rest
      _ = _ := by
        rw [h.rest, hm.rest]
  others := h.others.trans hm.workOf.2.2.2.2.2.2.2.2.2
  standing := hk.standing.trans h.standing
  lastApplied := hk.lastApplied.trans h.lastApplied
  mode := hm.mode.trans h.mode
  standings := fun x hx => by
    refine Eq.trans ?_ (h.standings x hx)
    obtain ⟨v, role⟩ := x
    cases role with
    | feeder =>
      have hfeeders : c.feeders = b.feeders := by rw [hm.rest]
      exact congrArg (fun q : Quad StationRecord => (q.get v).standing) hfeeders
    | crusher => exact congrArg StationRecord.standing (hm.others v fun hv => hx (congrArg crusherOf hv)).1

/-- A request applied is given its setting, and a changed target is reported (R2, R36). -/
theorem State.apply_eq (s : State) (r : Slot) :
    s.apply r = if s.limited r.station r.value = (s.station r.station).standing.target then s.given r
      else match r.station.role with
        | .feeder => (s.given r).modGovernor r.station.train fun g => g.setBase (s.limited r.station r.value)
        | .crusher => (s.given r).retarget r.station.train := by
  have hold : ((s.modStation r.station fun rec => { rec with lastApplied := some ⟨r.source, r.tag⟩ }).station
      r.station).standing.target = (s.station r.station).standing.target := by rw [State.station_modStation]
  rw [State.apply, State.applyWith, State.writeStandingWith, hold]
  rfl

/-- The request applied to a station, a crusher having been accepting when last evaluated. -/
theorem State.apply_applied (hst : r.station = st)
    (hlast : st.role = .crusher → (s.station st).lastAccepting = true) : RequestApplied st r s (s.apply r) := by
  subst hst
  have hgiven := s.given_applied r
  rw [State.apply_eq]
  split
  · exact hgiven
  · cases hrole : r.station.role with
    | feeder => exact hgiven.modGovernor _
    | crusher =>
      have hst : r.station = crusherOf r.station.train := congrArg (Station.mk r.station.train) hrole
      have hkept : ((s.given r).station (crusherOf r.station.train)).lastAccepting = true := by
        rw [← hst, State.given, State.station_modStation, State.station_modStation]
        exact hlast hrole
      rw [hst] at hgiven
      have := hgiven.moves (Moves.refl (s.given r)).retarget (State.retarget_keepsSetting hkept)
      rwa [← hst] at this

/-! ### A setting request decided (R31 to R35) -/

theorem Board.freeWhere_eq (b : Board) (gone : Slot → Bool) :
    b.freeWhere gone = ⟨b.slots.map fun o => if o.any gone then none else o, b.counter⟩ := by
  refine congrArg (Board.mk · b.counter) (List.map_congr_left fun o _ => ?_)
  cases o with
  | none => rfl
  | some r => rfl

theorem Board.anyWaiting_eq (b : Board) (p : Slot → Bool) : b.anyWaiting p = b.slots.any fun o => o.any p := by
  refine congrArg (List.any b.slots) (funext fun o => ?_)
  cases o <;> rfl

/-- The first free slot is the lowest free (R26). -/
theorem Board.lowestFree_of {b : Board} {i : Nat} (hi : b.slots[i]? = some none)
    (hfirst : ∀ j, j < i → b.slots[j]? ≠ some none) : b.lowestFree = some i := by
  obtain ⟨hlt, hnone⟩ := List.getElem?_eq_some_iff.mp hi
  refine List.findIdx?_eq_some_iff_getElem.mpr ⟨hlt, by rw [hnone]; rfl, fun j hj hn => ?_⟩
  refine hfirst j hj (List.getElem?_eq_some_iff.mpr ⟨hj.trans hlt, ?_⟩)
  exact Option.isNone_iff_eq_none.mp hn

/-- The request of a SET GAP or SET RATE, as its instruction. -/
def SettingRequest.instr (q : SettingRequest) : Role → Instr
  | .crusher => .setGap q.link q.tag q.station q.value q.priority q.keep q.wait
  | .feeder => .setRate q.link q.tag q.station q.value q.priority q.keep q.wait

/-- The kind of a setting request of a role. -/
def settingKind : Role → Kind
  | .crusher => .setGap
  | .feeder => .setRate

theorem SettingRequest.priorityTaken_eq (q : SettingRequest) :
    q.priorityTaken = if q.link = .lc then min q.priority.toNat 7 else q.priority.toNat := by
  unfold SettingRequest.priorityTaken
  cases q.link <;> rfl

/-- The state in which a request is decided: numbered, and its link's slot for the station freed (R33). -/
def State.numbered (s : State) (r : Slot) : State :=
  s.withBoard ⟨s.board.slots.map fun o => if o.any (Slot.isOf r.source r.station) then none else o,
    if s.board.counter = 4294967295 then s.board.counter else s.board.counter + 1⟩

theorem State.numberAndSupersede_eq (s : State) (r : Slot) : s.numberAndSupersede r = s.numbered r := by
  rw [State.numberAndSupersede, Board.freeWhere_eq]
  rfl

theorem State.decideSetting_placed {q : SettingRequest} {p : Placement}
    (hp : (s.numbered (s.slotOf st q)).placement (s.slotOf st q) = p) :
    s.decideSetting st q =
      ⟨((s.numbered (s.slotOf st q)).place (s.slotOf st q) p).renumberAfter s.board.counter,
        ⟨p.status, s.settingFlags q (s.slotOf st q), settingBody (s.slotOf st q) p⟩⟩ := by
  subst hp
  rw [State.decideSetting, State.numberAndSupersede_eq]
  rfl

/-- What the exec of a setting request that passes its checks comes to. -/
structure SettingTaken (q : SettingRequest) (st : Station) (s : State) : Prop where
  takes : s.takesOn q.link
  priority : q.priority.toNat ≤ 15
  wait : q.wait.toNat ≤ 3600
  station : q.station.toNat = st.number
  present : s.present st.train = true
  authority : (s.authority st).has q.link = true
  keep : (s.station st).standing.keep ≠ some 0

namespace SettingTaken

variable {q : SettingRequest} (h : SettingTaken q st s)
include h

theorem own : (s.replyBegins q.link).ownSetting st.role q = (s.replyBegins q.link).decideSetting st q := by
  have hlapse : (s.replyBegins q.link).keepLapse st = s.replyBegins q.link := by
    refine if_neg ?_
    rw [State.lapseDue, decide_eq_true_eq]
    exact h.keep
  have hauthority : ((s.replyBegins q.link).authority st).has q.link = true := h.authority
  refine (State.withPresent_present (s := s.replyBegins q.link) h.station h.present).trans ?_
  refine (if_neg (not_not.mpr rfl)).trans ((if_neg (by simp [hauthority])).trans ?_)
  rw [hlapse]

theorem exec_eq : exec (q.instr st.role) s =
    .next (((s.replyBegins q.link).decideSetting st q).reply q.link q.tag (settingKind st.role).code) := by
  have hok : settingFieldsOk q.priority q.wait = true := by simp [settingFieldsOk, h.priority, h.wait]
  have hown := h.own
  cases hrole : st.role with
  | crusher =>
    rw [hrole] at hown
    rw [SettingRequest.instr, exec_setGap, State.whenPowered_powered h.takes.1.1, State.takeSetGap, hok,
      State.takeRequest_owned h.takes rfl, hown]
    rfl
  | feeder =>
    rw [hrole] at hown
    rw [SettingRequest.instr, exec_setRate, State.whenPowered_powered h.takes.1.1, State.takeSetRate, hok,
      State.takeRequest_owned h.takes rfl, hown]
    rfl

/-- A request that is not applied leaves the board alone, and is answered. -/
theorem unapplied {p : Placement} (hp : (s.numbered (s.slotOf st q)).placement (s.slotOf st q) = p) (hne : p ≠ .applied) :
    exec (q.instr st.role) s =
      .next ((((s.numbered (s.slotOf st q)).place (s.slotOf st q) p).renumberAfter s.board.counter).answered q.link q.tag
        (settingKind st.role).code ⟨p.status, s.settingFlags q (s.slotOf st q), settingBody (s.slotOf st q) p⟩) := by
  have hcommutes : ((((s.numbered (s.slotOf st q)).replyBegins q.link).place (s.slotOf st q) p).renumberAfter
      s.board.counter) = (((s.numbered (s.slotOf st q)).place (s.slotOf st q) p).renumberAfter s.board.counter).replyBegins
        q.link := by
    unfold State.renumberAfter
    cases p with
    | applied => exact absurd rfl hne
    | waiting i => split <;> rfl
    | outranked => split <;> rfl
    | notAccepting => split <;> rfl
    | boardFull => split <;> rfl
  rw [h.exec_eq, State.decideSetting_placed (s := s.replyBegins q.link) (p := p) hp, ← Decision.reply_replyBegins, ← hcommutes]
  rfl

/-- A request that is applied: the application to the numbered board, with the link's reply pending. -/
theorem applied (hp : (s.numbered (s.slotOf st q)).placement (s.slotOf st q) = .applied) :
    exec (q.instr st.role) s =
      .next ((⟨(((s.numbered (s.slotOf st q)).replyBegins q.link).apply (s.slotOf st q)).renumberAfter s.board.counter,
        ⟨.applied, s.settingFlags q (s.slotOf st q), settingBody (s.slotOf st q) .applied⟩⟩ : Decision).reply q.link q.tag
          (settingKind st.role).code) := by
  rw [h.exec_eq, State.decideSetting_placed (s := s.replyBegins q.link) (p := .applied) hp]
  rfl

end SettingTaken

/-- How a request is placed, by its station and its wait (R34). -/
theorem State.placement_applied (hacc : s.accepting r.station = true)
    (ho : outranks r.priority r.sequence (s.station r.station).standing = true) : s.placement r = .applied :=
  if_pos (by simp [hacc, ho])

theorem State.placement_refused (hno : s.accepting r.station = false ∨
      outranks r.priority r.sequence (s.station r.station).standing = false) (hw : r.wait = 0) :
    s.placement r = if s.accepting r.station then .outranked else .notAccepting :=
  (if_neg (by rcases hno with h | h <;> simp [h])).trans (if_pos hw)

theorem State.placement_waiting {i : Nat} (hno : s.accepting r.station = false ∨
      outranks r.priority r.sequence (s.station r.station).standing = false) (hw : 0 < r.wait)
    (hi : s.board.slots[i]? = some none) (hfirst : ∀ j, j < i → s.board.slots[j]? ≠ some none) :
    s.placement r = .waiting i := by
  refine (if_neg (by rcases hno with h | h <;> simp [h])).trans ((if_neg (by omega)).trans ?_)
  rw [Board.lowestFree_of hi hfirst]

theorem State.limited_eq (s : State) (st : Station) (v : Nat) :
    s.limited st v = match st.role with
      | .crusher => min (max v (s.crusher st.train).gapMin) (s.crusher st.train).gapMax
      | .feeder => if v = 0 then 0 else min (max v (s.feeder st.train).rateMin) (s.feeder st.train).rateMax := rfl

theorem State.limited_limited (s : State) (st : Station) (v : Nat) : s.limited st (s.limited st v) = s.limited st v := by
  obtain ⟨u, role⟩ := st
  cases role with
  | crusher =>
    simp only [State.limited, clamp]
    omega
  | feeder =>
    simp only [State.limited, clamp]
    split <;> split <;> omega

/-- Settles O51: the request applied, refused or placed. -/
theorem settingRequestIsDecided : Obligations.SettingRequestIsDecided := by
  intro l tag b priority value keep wait st s hs hpriority hwait hb hp hauth hkeep hcounter p f c kind bounded taken kept
    number mine freed board answer outranks
  set q : SettingRequest := ⟨l, tag, b, value, priority, keep, wait⟩ with hq
  have htaken : SettingTaken q st s := ⟨hs, hpriority, hwait, hb, hp, hauth, hkeep⟩
  have hc : c = q.instr st.role := by
    show (match st.role with | .crusher => _ | .feeder => _) = _
    cases st.role <;> rfl
  have hkind : kind = settingKind st.role := by
    show (match st.role with | .crusher => _ | .feeder => _) = _
    cases st.role <;> rfl
  have hbounded : s.limited st value.toNat = bounded := s.limited_eq st value.toNat
  have hslot : s.slotOf st q = ⟨st, bounded, taken, l, tag, number, kept, wait.toNat⟩ := by
    rw [State.slotOf, hbounded, SettingRequest.priorityTaken_eq]
  have hflags : s.settingFlags q (s.slotOf st q) =
      ⟨decide (bounded ≠ value.toNat), decide (taken ≠ priority.toNat), s.board.slots.any mine, false, false⟩ := by
    rw [hslot, State.settingFlags, Board.anyWaiting_eq]
    rfl
  have hnumbered : s.numbered (s.slotOf st q) = s.withBoard board := by
    rw [hslot, State.numbered, if_neg (by omega)]
    rfl
  have hout : outranks ↔ Machine.outranks taken number (s.station st).standing = true := outranks_iff.symm
  have hafter (t : State) : t.renumberAfter s.board.counter = t := if_neg (by show ¬s.board.counter = 4294967295; omega)
  set slot : Slot := ⟨st, bounded, taken, l, tag, number, kept, wait.toNat⟩ with hs'
  have hun {x : Placement} (hx : (s.withBoard board).placement slot = x) (hne : x ≠ .applied) :
      exec c s = .next (((s.withBoard board).place slot x).answered l tag kind.code
        ⟨x.status, ⟨decide (bounded ≠ value.toNat), decide (taken ≠ priority.toNat), s.board.slots.any mine, false, false⟩,
          settingBody slot x⟩) := by
    have := htaken.unapplied (p := x) (by rw [hnumbered, hslot]; exact hx) hne
    rwa [hnumbered, hflags, hslot, hafter, ← hc, ← hkind] at this
  refine ⟨fun hacc hlast ho => ?_, fun hacc ho hw => ?_, fun hacc hw => ?_, fun i hno hw hi hfirst => ?_⟩
  · have hplaced : (s.withBoard board).placement slot = .applied := State.placement_applied hacc (hout.mp ho)
    have hexec := htaken.applied (by rw [hnumbered, hslot]; exact hplaced)
    rw [hnumbered, hflags, hslot, hafter, ← hc, ← hkind] at hexec
    have happlied := State.apply_applied (s := (s.withBoard board).replyBegins l) (r := slot) (st := st) rfl fun _ => hlast
    have hrest := happlied.rest
    generalize State.apply ((s.withBoard board).replyBegins l) slot = d at *
    have hstanding : (d.station st).standing = ⟨bounded, taken, .request l tag number, kept⟩ := by
      rw [happlied.standing]
      have hlimited : ((s.withBoard board).replyBegins l).limited st slot.value = bounded := by
        show s.limited st bounded = bounded
        rw [← hbounded, State.limited_limited]
      rw [hlimited]
    exact ⟨_, hexec, Decision.repliedBy (d := ⟨d, _⟩) (k := kind) (congrArg State.links hrest :), (congrArg State.board hrest :),
      hstanding, happlied.lastApplied, happlied.mode, (congrArg State.store hrest :), (congrArg State.zeros hrest :),
      (congrArg State.gaps hrest :), (congrArg State.sequencer hrest :), (congrArg State.powered hrest :), (congrArg State.restart hrest :),
      (congrArg State.time hrest :), (congrArg State.line hrest :), (congrArg State.crusherParams hrest :),
      (congrArg State.feederParams hrest :), (congrArg State.inputs hrest :), rfl, (congrArg State.pending hrest :), happlied.others⟩
  · have hplaced : (s.withBoard board).placement slot = .outranked :=
      (State.placement_refused (.inr (Bool.eq_false_iff.mpr (mt hout.mpr ho))) hw).trans (if_pos hacc)
    exact hun hplaced (by simp)
  · have hplaced : (s.withBoard board).placement slot = .notAccepting :=
      (State.placement_refused (.inl hacc) hw).trans (if_neg (by simp [show (s.withBoard board).accepting slot.station = false from hacc]))
    exact hun hplaced (by simp)
  · have hplaced : (s.withBoard board).placement slot = .waiting i :=
      State.placement_waiting (hno.imp id fun h => Bool.eq_false_iff.mpr (mt hout.mpr h)) hw hi hfirst
    exact hun hplaced (by simp)

/-! ### Renumbering (R28) -/

theorem rankIn_eq (live : List Nat) (n : Nat) : rankIn live n = live.countP (fun m => decide (m < n)) + 1 := by
  rw [rankIn, List.countP_eq_length_filter]

/-- A renumbering changes the numbers of the slots and of the standing settings, and the counter. -/
theorem State.station_renumber (s : State) (st : Station) :
    s.renumber.station st = { s.station st with standing := (s.station st).standing.renumbered s.liveNumbers } := by
  obtain ⟨u, role⟩ := st
  cases role <;> exact Quad.get_map ..

theorem Standing.renumbered_eq (live : List Nat) (x : Standing) :
    x.renumbered live =
      { x with
        origin := match x.origin with
          | .start => .start
          | .request k g n => .request k g (live.countP (fun m => decide (m < n)) + 1) } := by
  obtain ⟨target, priority, origin, keep⟩ := x
  cases origin with
  | start => rfl
  | request k g n => exact congrArg (fun m => (⟨target, priority, .request k g m, keep⟩ : Standing)) (rankIn_eq live n)

theorem State.renumber_board (s : State) :
    s.renumber.board =
      ⟨s.board.slots.map (fun o => o.map fun r =>
        { r with sequence := s.liveNumbers.countP (fun m => decide (m < r.sequence)) + 1 }), s.liveNumbers.length + 1⟩ := by
  refine congrArg (Board.mk · (s.liveNumbers.length + 1)) (List.map_congr_left fun o _ => ?_)
  cases o with
  | none => rfl
  | some r => exact congrArg (fun n => some { r with sequence := n }) (rankIn_eq ..)

/-- Settles O52. -/
theorem largestNumberRenumbers : Obligations.LargestNumberRenumbers := by
  intro l tag b priority value keep wait st s hs hpriority hwait hb hp hauth hkeep hcounter c kind bounded taken kept mine
    freed answer outranks renumbered others as
  set q : SettingRequest := ⟨l, tag, b, value, priority, keep, wait⟩ with hq
  have htaken : SettingTaken q st s := ⟨hs, hpriority, hwait, hb, hp, hauth, hkeep⟩
  have hc : c = q.instr st.role := by
    show (match st.role with | .crusher => _ | .feeder => _) = _
    cases st.role <;> rfl
  have hkind : kind = settingKind st.role := by
    show (match st.role with | .crusher => _ | .feeder => _) = _
    cases st.role <;> rfl
  have hslot : s.slotOf st q = ⟨st, bounded, taken, l, tag, 4294967295, kept, wait.toNat⟩ := by
    rw [State.slotOf, SettingRequest.priorityTaken_eq, hcounter]
  have hflags : s.settingFlags q (s.slotOf st q) =
      ⟨decide (bounded ≠ value.toNat), decide (taken ≠ priority.toNat), s.board.slots.any mine, false, false⟩ := by
    rw [hslot, State.settingFlags, Board.anyWaiting_eq]
    rfl
  have hnumbered : s.numbered (s.slotOf st q) = s.withBoard ⟨freed, 4294967295⟩ := by
    rw [hslot, State.numbered, if_pos hcounter, hcounter]
    rfl
  have hout : outranks ↔ Machine.outranks taken 4294967295 (s.station st).standing = true := outranks_iff.symm
  have hafter (t : State) : t.renumberAfter s.board.counter = t.renumber := if_pos hcounter
  set slot : Slot := ⟨st, bounded, taken, l, tag, 4294967295, kept, wait.toNat⟩ with hs'
  have hun {x : Placement} (hx : (s.withBoard ⟨freed, 4294967295⟩).placement slot = x) (hne : x ≠ .applied) :
      exec c s = .next (((s.withBoard ⟨freed, 4294967295⟩).place slot x).renumber.answered l tag kind.code
        ⟨x.status, ⟨decide (bounded ≠ value.toNat), decide (taken ≠ priority.toNat), s.board.slots.any mine, false, false⟩,
          settingBody slot x⟩) := by
    have := htaken.unapplied (p := x) (by rw [hnumbered, hslot]; exact hx) hne
    rwa [hnumbered, hflags, hslot, hafter, ← hc, ← hkind] at this
  have hrenumbered {m t : State} {slots : List (Option Slot)} {standing : Station → Standing}
      (hslots : m.board.slots = slots) (hstanding : ∀ x, (m.station x).standing = standing x)
      (hboard : t.board = m.renumber.board) (hstations : ∀ x, (t.station x).standing = (m.renumber.station x).standing) :
      renumbered slots standing t := by
    obtain rfl : (fun x => (m.station x).standing) = standing := funext hstanding
    subst hslots
    exact ⟨hboard.trans m.renumber_board, fun x => (hstations x).trans
      ((congrArg StationRecord.standing (m.station_renumber x)).trans (Standing.renumbered_eq ..))⟩
  have hothers (slots : List (Option Slot)) (a : Answer) :
      others ((s.withBoard ⟨slots, 4294967295⟩).renumber.answered l tag kind.code a) := by
    refine ⟨rfl, fun x => ?_⟩
    have hstation := (s.withBoard ⟨slots, 4294967295⟩).station_renumber x
    have hstanding := congrArg StationRecord.standing hstation
    exact hstation.trans (congrArg (fun y => { s.station x with standing := y }) hstanding.symm)
  have hno' (h : s.accepting st = false ∨ ¬outranks) : (s.withBoard ⟨freed, 4294967295⟩).accepting slot.station = false ∨
      Machine.outranks slot.priority slot.sequence ((s.withBoard ⟨freed, 4294967295⟩).station slot.station).standing = false :=
    h.imp id fun h => Bool.eq_false_iff.mpr (mt hout.mpr h)
  refine ⟨fun hno hw => ?_, fun i hno hw hi hfirst => ?_, fun hacc hlast ho => ?_⟩
  · have hexec := hun (State.placement_refused (hno' hno) hw) (by split <;> simp)
    have hacc : (s.withBoard ⟨freed, 4294967295⟩).accepting slot.station = s.accepting st := rfl
    rw [hacc] at hexec
    cases hb : s.accepting st <;> rw [hb] at hexec
    · exact ⟨_, hexec, hothers _ _, hrenumbered (m := s.withBoard ⟨freed, 4294967295⟩) rfl (fun _ => rfl) rfl
        (fun _ => rfl), rfl⟩
    · exact ⟨_, hexec, hothers _ _, hrenumbered (m := s.withBoard ⟨freed, 4294967295⟩) rfl (fun _ => rfl) rfl
        (fun _ => rfl), rfl⟩
  · have hexec := hun (State.placement_waiting (hno' hno) hw hi hfirst) (by simp)
    exact ⟨_, hexec, hothers _ _, hrenumbered (m := (s.withBoard ⟨freed, 4294967295⟩).place slot (.waiting i)) rfl
      (fun _ => rfl) rfl (fun _ => rfl), rfl⟩
  · have hplaced : (s.withBoard ⟨freed, 4294967295⟩).placement slot = .applied := State.placement_applied hacc (hout.mp ho)
    have hexec := htaken.applied (by rw [hnumbered, hslot]; exact hplaced)
    rw [hnumbered, hflags, hslot, hafter, ← hc, ← hkind] at hexec
    have happlied := State.apply_applied (s := (s.withBoard ⟨freed, 4294967295⟩).replyBegins l) (r := slot) (st := st) rfl
      fun _ => hlast
    have hrest := happlied.rest
    generalize State.apply ((s.withBoard ⟨freed, 4294967295⟩).replyBegins l) slot = d at *
    have hstanding : (d.station st).standing = ⟨bounded, taken, .request l tag 4294967295, kept⟩ := by
      rw [happlied.standing]
      have hlimited : ((s.withBoard ⟨freed, 4294967295⟩).replyBegins l).limited st slot.value = bounded := by
        show s.limited st bounded = bounded
        exact s.limited_limited st value.toNat
      rw [hlimited]
    have hlastApplied : (d.renumber.station st).lastApplied = some ⟨l, tag⟩ :=
      (congrArg StationRecord.lastApplied (d.station_renumber st)).trans happlied.lastApplied
    refine ⟨_, hexec, hrenumbered (m := d) (congrArg (fun m : State => m.board.slots) hrest :) (fun x => ?_) rfl (fun _ => rfl),
      hlastApplied, (congrArg State.store hrest :), (congrArg State.zeros hrest :), (congrArg State.gaps hrest :),
      (congrArg State.inputs hrest :), Decision.repliedBy (d := ⟨d.renumber, _⟩) (k := kind) (congrArg State.links hrest :)⟩
    split
    · next hx => rw [hx, hstanding]
    · next hx => exact happlied.standings x hx

/-! ### WITHDRAW (R44, R45) -/

theorem Standing.isFrom_iff {l : Link} {x : Standing} : x.isFrom l = true ↔ ∃ g n, x.origin = .request l g n := by
  unfold Standing.isFrom
  cases x.origin with
  | start => simp
  | request k g n =>
    rw [decide_eq_true_eq]
    exact ⟨fun h => ⟨g, n, by rw [h]⟩, fun ⟨_, _, h⟩ => (Origin.request.inj h).1⟩

/-- A WITHDRAW takes its link's slot, and the standing setting that is its link's. -/
theorem exec_withdraw_taken {l : Link} {tag b : Byte} (hs : s.takesOn l) (hb : b.toNat = st.number)
    (hp : s.present st.train = true) :
    exec (.withdraw l tag b) s =
      .next ((⟨if (s.station st).standing.isFrom l then
          ((s.withBoard (s.board.freeWhere (Slot.isOf l st))).replyBegins l).releaseStanding st
        else (s.withBoard (s.board.freeWhere (Slot.isOf l st))).replyBegins l,
        ⟨.done, ⟨false, false, false, s.board.anyWaiting (Slot.isOf l st), (s.station st).standing.isFrom l⟩, []⟩⟩ : Decision).reply
          l tag Kind.withdraw.code) := by
  rw [exec_withdraw, State.whenPowered_powered hs.1.1, State.takeWithdraw,
    State.takeRequest_owned (k := .withdraw) hs rfl, State.ownWithdraw,
    State.withPresent_present (s := s.replyBegins l) hb hp]
  rfl

/-- Settles O53: the slot freed, and the standing setting released, with the selection that follows. -/
theorem withdrawFreesAndReleases : Obligations.WithdrawFreesAndReleases := by
  intro l tag b st s hs hb hp mine freed released answer
  have hexec := exec_withdraw_taken (tag := tag) hs hb hp
  have hfreed : s.withBoard (s.board.freeWhere (Slot.isOf l st)) = freed := congrArg s.withBoard (Board.freeWhere_eq ..)
  have hanswer : s.board.anyWaiting (Slot.isOf l st) = s.board.slots.any mine := Board.anyWaiting_eq ..
  rw [hfreed, hanswer] at hexec
  refine ⟨fun hno => ?_, fun g n horigin hquiet => ?_, fun g n i r horigin hacc hlast hi hst hbest ho => ?_⟩
  · have hfrom : (s.station st).standing.isFrom l = false :=
      Bool.eq_false_iff.mpr fun h => (Standing.isFrom_iff.mp h).elim fun g ⟨n, h⟩ => hno g n h
    rw [hfrom] at hexec
    exact hexec.trans (congrArg _ (Decision.reply_replyBegins ..))
  · rw [Standing.isFrom_iff.mpr ⟨g, n, horigin⟩] at hexec
    have hreleased : (freed.replyBegins l).releaseStanding st = released.replyBegins l := by
      refine Eq.trans ?_ (show (freed.replyBegins l).modStation st (fun r => { r with standing := r.standing.released }) =
        released.replyBegins l by obtain ⟨u, role⟩ := st; cases role <;> rfl)
      by_cases hacc : s.accepting st = true
      · refine (State.releaseStanding_accepting (s := freed.replyBegins l) hacc).trans (State.selectWith_none ?_)
        rw [State.modStation_board]
        exact hquiet.resolve_left (by simp [hacc])
      · exact State.releaseStanding_not (s := freed.replyBegins l) (Bool.eq_false_iff.mpr hacc)
    rw [if_pos rfl, hreleased, Decision.reply_replyBegins] at hexec
    exact hexec
  · rw [Standing.isFrom_iff.mpr ⟨g, n, horigin⟩, if_pos rfl] at hexec
    obtain ⟨-, hyes⟩ := State.releaseStanding_best (s := freed.replyBegins l) hacc hi hst hbest
    obtain ⟨work, board, standing, lastApplied, -, -⟩ := hyes (ho.imp_right fun h k g' n' horigin' => by
      obtain ⟨-, -, rfl⟩ := Origin.request.inj (horigin.symm.trans horigin')
      exact h)
    generalize (freed.replyBegins l).releaseStanding st = d at *
    obtain ⟨h1, h2, h3, h4, h5, h6, h7, h8, h9, h10⟩ := work
    exact ⟨_, hexec, Decision.repliedBy (d := ⟨d, _⟩) (k := .withdraw) h8, ⟨h1, h2, h3, h4, h5, h6, h7, rfl, h9, h10⟩,
      board, standing, lastApplied⟩

end Sys2Proof.Machine
end

section
/-! PROOFS. SET MODE (R9 to R12). -/

namespace Sys2Proof.Machine

variable {a b c s t : State} {u : Train} {st : Station} {mode : Mode}

/-! ### Selections that cannot be -/

/-- While a crusher is out of RUN its moving selects nothing. -/
def Unselected (u : Train) (a b : State) : Prop :=
  (a.station (crusherOf u)).mode ≠ .run →
    (b.station (crusherOf u)).mode ≠ .run ∧ b.board = a.board ∧
      (b.station (crusherOf u)).standing = (a.station (crusherOf u)).standing ∧
      (b.station (crusherOf u)).lastApplied = (a.station (crusherOf u)).lastApplied

theorem unselected_moveClosed (u : Train) : MoveClosed u (Unselected u) where
  refl := fun _ h => ⟨h, rfl, rfl, rfl⟩
  trans := fun h k ha => by
    obtain ⟨h0, h1, h2, h3⟩ := h ha
    obtain ⟨k0, k1, k2, k3⟩ := k h0
    exact ⟨k0, k1.trans h1, k2.trans h2, k3.trans h3⟩
  positioner := fun _ _ _ h => ⟨h, rfl, rfl, rfl⟩
  addGapMove := fun _ h => ⟨h, rfl, rfl, rfl⟩
  removeGapMove := fun _ h => ⟨h, rfl, rfl, rfl⟩
  episode := fun _ _ h => ⟨h, rfl, rfl, rfl⟩
  judged := fun a _ h => ⟨by simpa [State.evaluated] using h, State.modStation_board .., by simp [State.evaluated],
    by simp [State.evaluated]⟩
  selected := fun a i r hacc _ _ _ h => by
    rw [State.accepting_of_mode h] at hacc
    cases hacc

/-! ### The evaluation of a feeder's predicate (R8) -/

/-- What an evaluation of a feeder's predicate changes, whatever it selects. -/
structure FeederEvaluates (u : Train) (a b : State) : Prop where
  rest : b = { a with feeders := b.feeders, board := b.board, governors := b.governors }
  others : a.othersKept b u
  mode : (b.station (feederOf u)).mode = (a.station (feederOf u)).mode
  holds : (b.governor u).holds = (a.governor u).holds

theorem FeederEvaluates.trans (h : FeederEvaluates u a b) (k : FeederEvaluates u b c) : FeederEvaluates u a c :=
  ⟨by rw [k.rest, h.rest], h.others.trans k.others, k.mode.trans h.mode, k.holds.trans h.holds⟩

theorem State.modStation_feederEvaluates (s : State) (u : Train) (f : StationRecord → StationRecord)
    (hf : ∀ r, (f r).mode = r.mode) : FeederEvaluates u s (s.modStation (feederOf u) f) :=
  ⟨rfl, s.othersKept_modStation (feederOf u) f, by rw [State.station_modStation, hf], rfl⟩

theorem State.evaluate_feederEvaluates (s : State) (u : Train) : FeederEvaluates u s (s.evaluate (feederOf u)) := by
  have hjudged := s.modStation_feederEvaluates u (fun r => { r with lastAccepting := s.accepting (feederOf u) }) fun _ => rfl
  have heval : s.evaluate (feederOf u) =
      if s.accepting (feederOf u) && !(s.station (feederOf u)).lastAccepting then
        (s.modStation (feederOf u) fun r => { r with lastAccepting := s.accepting (feederOf u) }).selectWith State.retarget
          (feederOf u)
      else s.modStation (feederOf u) fun r => { r with lastAccepting := s.accepting (feederOf u) } := rfl
  rw [heval]
  generalize s.modStation (feederOf u) (fun r => { r with lastAccepting := s.accepting (feederOf u) }) = w at *
  split
  · unfold State.selectWith
    split
    · exact hjudged
    · next i r hb =>
      split
      · refine hjudged.trans ?_
        obtain ⟨⟨-, -, -, -, -, -, -, -, -, hothers⟩, -, -, -, hmode⟩ := w.fed_slotApplied u i r
        have hfed : FeederEvaluates u w (w.fed u i r) := ⟨rfl, hothers, hmode, rfl⟩
        unfold State.applyWith State.writeStandingWith
        rw [bestSlot_station hb]
        dsimp only
        split
        · exact hfed
        · refine hfed.trans ⟨rfl, State.othersKept_modGovernor _ u _, rfl, ?_⟩
          exact (congrArg Governor.holds (State.governor_modGovernor ..)).trans (Governor.rejudged_keeps ..).1
      · exact hjudged
  · exact hjudged

/-! ### A mode taken (R9, R11) -/

/-- The other station of a train. -/
def partnerOf (st : Station) : Station :=
  match st.role with
  | .feeder => crusherOf st.train
  | .crusher => feederOf st.train

/-- What a mode taken by a station comes to, its slots apart. -/
structure ModeTaken (st : Station) (mode : Mode) (a b : State) : Prop where
  work : a.workOf b st.train
  store : b.store = a.store
  zeros : b.zeros = a.zeros
  gaps : b.gaps = a.gaps
  sequencer : b.sequencer = a.sequencer
  taken : (b.station st).mode = mode
  partnerMode : (b.station (partnerOf st)).mode = (a.station (partnerOf st)).mode
  partnerStanding : (b.station (partnerOf st)).standing = (a.station (partnerOf st)).standing
  hold : (b.governor st.train).holds.mode = !(decide (mode = .run) && decide ((a.station (partnerOf st)).mode = .run))
  barred : mode ≠ .run → b.board = a.board ∧ (b.station st).standing = (a.station st).standing ∧
    (b.station st).lastApplied = (a.station st).lastApplied
  quiet : mode = .run → (∀ r, some r ∈ a.board.slots → r.station ≠ st) →
    b.board = a.board ∧ (b.station st).standing = (a.station st).standing

theorem State.judgeModeHold_eq (s : State) (u : Train) :
    s.judgeModeHold u = s.modGovernor u fun g => if s.trainRuns u then g.release .mode else g.hold .mode := by
  unfold State.judgeModeHold
  cases s.trainRuns u <;> rfl

theorem Governor.modeJudged_holds (g : Governor) (runs : Bool) :
    (if runs then g.release .mode else g.hold .mode).holds.mode = !runs := by
  cases runs
  · exact g.hold_has .mode
  · exact g.release_has .mode

/-- The mode written and the hold judged, before the predicate is evaluated (R9). -/
theorem State.modeHeld_eq (s : State) (u : Train) :
    s.judgeModeHold u = { s with
      governors := s.governors.set u (if s.trainRuns u then (s.governor u).release .mode else (s.governor u).hold .mode) } := by
  rw [State.judgeModeHold_eq]
  rfl

theorem State.trainRuns_written (s : State) (st : Station) (mode : Mode) :
    (s.modStation st fun r => { r with mode := mode }).trainRuns st.train =
      (decide (mode = .run) && decide ((s.station (partnerOf st)).mode = .run)) := by
  obtain ⟨u, role⟩ := st
  cases role with
  | feeder =>
    have h1 : ((s.modStation ⟨u, .feeder⟩ fun r => { r with mode := mode }).station (feederOf u)).mode = mode := by
      rw [show feederOf u = ⟨u, .feeder⟩ from rfl, State.station_modStation]
    rw [State.trainRuns, h1]
    rfl
  | crusher =>
    have h1 : ((s.modStation ⟨u, .crusher⟩ fun r => { r with mode := mode }).station (crusherOf u)).mode = mode := by
      rw [show crusherOf u = ⟨u, .crusher⟩ from rfl, State.station_modStation]
    rw [State.trainRuns, h1, Bool.and_comm]
    rfl

/-- A state in which a station has taken a mode and the hold is judged, before the predicate is evaluated (R9). -/
structure ModeWritten (st : Station) (mode : Mode) (a b : State) : Prop where
  rest : b = { a with feeders := b.feeders, crushers := b.crushers, governors := b.governors }
  others : a.othersKept b st.train
  station : b.station st = { a.station st with mode := mode }
  partner : b.station (partnerOf st) = a.station (partnerOf st)
  governor : b.governor st.train =
    if decide (mode = .run) && decide ((a.station (partnerOf st)).mode = .run) then (a.governor st.train).release .mode
    else (a.governor st.train).hold .mode

theorem State.feederMode_written (s : State) (u : Train) (mode : Mode) :
    ModeWritten (feederOf u) mode s ((s.modStation (feederOf u) fun r => { r with mode := mode }).judgeModeHold u) := by
  have hruns := s.trainRuns_written (feederOf u) mode
  change (s.modStation (feederOf u) fun r => { r with mode := mode }).trainRuns u = _ at hruns
  rw [State.judgeModeHold_eq, hruns]
  exact {
    rest := rfl
    others := (s.othersKept_modStation (feederOf u) _).trans (State.othersKept_modGovernor _ u _)
    station := (State.station_modStation s (feederOf u) fun r => { r with mode := mode } :)
    partner := rfl
    governor := State.governor_modGovernor .. }

theorem State.feederMode_taken (h : ModeWritten (feederOf u) mode s t) :
    ModeTaken (feederOf u) mode s (t.evaluate (feederOf u)) ∧ (t.evaluate (feederOf u)).positioners = s.positioners := by
  have heval := t.evaluate_feederEvaluates u
  have hstill := fun h => State.evaluate_eq (s := t) (st := feederOf u) h
  have hmode : (t.station (feederOf u)).mode = mode := by rw [h.station]
  have hboard : t.board = s.board := by rw [h.rest]
  have hpartner : (t.evaluate (feederOf u)).station (crusherOf u) = s.station (crusherOf u) := by
    rw [heval.rest]
    exact h.partner
  refine ⟨
    { work := State.workOf_of_othersKept (h.others.trans heval.others) (by rw [heval.rest, h.rest])
      store := by rw [heval.rest, h.rest]
      zeros := by rw [heval.rest, h.rest]
      gaps := by rw [heval.rest, h.rest]
      sequencer := by rw [heval.rest, h.rest]
      taken := heval.mode.trans hmode
      partnerMode := congrArg StationRecord.mode hpartner
      partnerStanding := congrArg StationRecord.standing hpartner
      hold := ?_
      barred := fun hno => ?_
      quiet := fun _ hnone => ?_ }, by rw [heval.rest, h.rest]⟩
  · refine (congrArg Holds.mode heval.holds).trans ((congrArg (fun g : Governor => g.holds.mode) h.governor).trans ?_)
    exact Governor.modeJudged_holds _ _
  · rw [hstill (.inl (State.accepting_of_mode (by rw [hmode]; exact hno))), State.modStation_board, State.station_modStation,
      h.station]
    exact ⟨hboard, rfl, rfl⟩
  · rw [hstill (.inr (.inr (by rw [hboard]; exact hnone))), State.modStation_board, State.station_modStation, h.station]
    exact ⟨hboard, rfl⟩

/-! ### A crusher's mode -/

/-- What the moving of a crusher and its reasons change, with what selections it can make. -/
structure Shifts (u : Train) (a b : State) : Prop where
  rest : b = { a with
    crushers := b.crushers, board := b.board, positioners := b.positioners, governors := b.governors
    supervisors := b.supervisors, conditions := b.conditions }
  others : a.othersKept b u
  mode : (b.station (crusherOf u)).mode = (a.station (crusherOf u)).mode
  hold : (b.governor u).holds.mode = (a.governor u).holds.mode
  unselected : Unselected u a b
  stills : Stills u a b

theorem Shifts.trans (h : Shifts u a b) (k : Shifts u b c) : Shifts u a c :=
  ⟨by rw [k.rest, h.rest], h.others.trans k.others, k.mode.trans h.mode, k.hold.trans h.hold,
    (unselected_moveClosed u).trans h.unselected k.unselected, (stills_moveClosed u).trans h.stills k.stills⟩

theorem Shifts.of_moves (h : Moves u a b) (hu : Unselected u a b) (hs : Stills u a b) : Shifts u a b :=
  ⟨h.rest, h.workOf.2.2.2.2.2.2.2.2.2, h.mode, h.holds .mode (by decide) (by decide), hu, hs⟩

theorem State.modPositioner_shifts (s : State) (u : Train) (f : Positioner → Positioner) :
    Shifts u s (s.modPositioner u f) :=
  ⟨rfl, s.othersKept_modPositioner u f, rfl, rfl, fun h => ⟨h, rfl, rfl, rfl⟩, fun _ => ⟨rfl, rfl⟩⟩

theorem State.endRunningJog_shifts (s : State) (u : Train) : Shifts u s (s.endRunningJog u) :=
  .of_moves (Moves.refl s).endRunningJog
    ((unselected_moveClosed u).endRunningJog ((unselected_moveClosed u).refl s))
    ((stills_moveClosed u).endRunningJog ((stills_moveClosed u).refl s))

theorem State.evaluate_shifts (s : State) (u : Train) : Shifts u s (s.evaluate (crusherOf u)) :=
  .of_moves (Moves.refl s).evaluate ((unselected_moveClosed u).evaluate ((unselected_moveClosed u).refl s))
    ((stills_moveClosed u).evaluate ((stills_moveClosed u).refl s))

/-- The reason MODE follows the mode (R9). -/
theorem State.judgeModeReason_shifts (s : State) (u : Train) :
    Shifts u s (s.judgeModeReason u) ∧
      ((s.judgeModeReason u).positioner u).reasons.mode = !decide ((s.station (crusherOf u)).mode = .run) := by
  unfold State.judgeModeReason
  split
  · next hrun =>
    have hgone := s.modPositioner_shifts u fun p => { p with reasons := p.reasons.put .mode false }
    have hmoves := s.removeReason_moves u .mode
    refine ⟨⟨hmoves.rest, (hgone.others).trans hmoves.workOf.2.2.2.2.2.2.2.2.2, hmoves.mode, ?_, ?_, ?_⟩, ?_⟩
    · exact hmoves.holds .mode (by decide) (by decide)
    · exact (unselected_moveClosed u).removeReason ((unselected_moveClosed u).refl s) .mode
    · exact (stills_moveClosed u).removeReason ((stills_moveClosed u).refl s) .mode
    · rw [hmoves.reasons, State.positioner_modPositioner, hrun]
      rfl
  · next hrun =>
    rw [State.addReason_eq (.inr rfl), State.positioner_modPositioner]
    refine ⟨s.modPositioner_shifts u _, ?_⟩
    rw [decide_eq_false hrun]
    exact Positioner.under_has (r := .mode)

/-- A crusher's mode written, a jog ended by it and its reason judged. -/
def State.crusherModed (s : State) (u : Train) (mode : Mode) : State :=
  ((s.modStation (crusherOf u) fun r => { r with mode := mode }).endRunningJog u).judgeModeReason u

theorem State.crusherMode_taken (s : State) (u : Train) (mode : Mode) :
    let e := ((s.crusherModed u mode).judgeModeHold u).evaluate (crusherOf u)
    ModeTaken (crusherOf u) mode s e ∧ (e.positioner u).reasons.mode = decide (mode ≠ .run) := by
  have hj := State.endRunningJog_shifts (s.modStation (crusherOf u) fun r => { r with mode := mode }) u
  obtain ⟨hk, hreason⟩ := State.judgeModeReason_shifts
    ((s.modStation (crusherOf u) fun r => { r with mode := mode }).endRunningJog u) u
  have hmode : ((s.modStation (crusherOf u) fun r => { r with mode := mode }).station (crusherOf u)).mode = mode := by
    rw [State.station_modStation]
  have hmoded := hj.trans hk
  rw [hj.mode, hmode] at hreason
  change ((s.crusherModed u mode).positioner u).reasons.mode = _ at hreason
  change Shifts u _ (s.crusherModed u mode) at hmoded
  intro e
  have hwother : s.othersKept (s.modStation (crusherOf u) fun r => { r with mode := mode }) u :=
    s.othersKept_modStation (crusherOf u) fun r => { r with mode := mode }
  have hwstation := s.station_modStation (crusherOf u) fun r => { r with mode := mode }
  have hwrest : (s.modStation (crusherOf u) fun r => { r with mode := mode }) =
    { s with crushers := (s.modStation (crusherOf u) fun r => { r with mode := mode }).crushers } := rfl
  have he : Shifts u ((s.crusherModed u mode).judgeModeHold u) e := State.evaluate_shifts _ u
  have hereasons : (e.positioner u).reasons = (((s.crusherModed u mode).judgeModeHold u).positioner u).reasons :=
    (Moves.refl ((s.crusherModed u mode).judgeModeHold u)).evaluate.reasons
  clear_value e
  generalize s.crusherModed u mode = k at *
  generalize (s.modStation (crusherOf u) fun r => { r with mode := mode }) = w at *
  have hkmode : (k.station (crusherOf u)).mode = mode := hmoded.mode.trans hmode
  have hkfeeders : k.feeders = s.feeders := by rw [hmoded.rest, hwrest]
  have hkruns : k.trainRuns u = (decide (mode = .run) && decide ((s.station (feederOf u)).mode = .run)) := by
    rw [State.trainRuns, hkmode, Bool.and_comm, show k.station (feederOf u) = s.station (feederOf u) from
      congrArg (Quad.get · u) hkfeeders]
  have hheld := k.modeHeld_eq u
  rw [hkruns] at hheld
  have htgovernor : ((k.judgeModeHold u).governor u).holds.mode =
      !(decide (mode = .run) && decide ((s.station (feederOf u)).mode = .run)) := by
    rw [hheld]
    exact (congrArg (fun g : Governor => g.holds.mode) (Quad.get_set_self ..)).trans (Governor.modeJudged_holds _ _)
  have htother : k.othersKept (k.judgeModeHold u) u := by
    rw [State.judgeModeHold_eq]
    exact k.othersKept_modGovernor u _
  generalize k.judgeModeHold u = t at *
  have htrest : t = { k with governors := t.governors } := by rw [hheld]
  have hefeeders : e.feeders = s.feeders := by rw [he.rest, htrest, hkfeeders]
  have hpartner : e.station (feederOf u) = s.station (feederOf u) := congrArg (Quad.get · u) hefeeders
  have htmode : (t.station (crusherOf u)).mode = mode := by rw [htrest]; exact hkmode
  refine ⟨
    { work := State.workOf_of_othersKept (((hwother.trans hmoded.others).trans htother).trans he.others)
        (by rw [he.rest, htrest, hmoded.rest, hwrest])
      store := by rw [he.rest, htrest, hmoded.rest, hwrest]
      zeros := by rw [he.rest, htrest, hmoded.rest, hwrest]
      gaps := by rw [he.rest, htrest, hmoded.rest, hwrest]
      sequencer := by rw [he.rest, htrest, hmoded.rest, hwrest]
      taken := he.mode.trans htmode
      partnerMode := congrArg StationRecord.mode hpartner
      partnerStanding := congrArg StationRecord.standing hpartner
      hold := he.hold.trans htgovernor
      barred := fun hno => ?_
      quiet := fun _ hnone => ?_ }, ?_⟩
  · obtain ⟨-, k1, k2, k3⟩ := hmoded.unselected (by rw [hmode]; exact hno)
    obtain ⟨-, e1, e2, e3⟩ := he.unselected (by rw [htmode]; exact hno)
    rw [e1, e2, e3, htrest]
    refine ⟨k1.trans (by rw [hwrest]), k2.trans ?_, k3.trans ?_⟩ <;> rw [hwstation]
  · have hwboard : w.board = s.board := by rw [hwrest]
    have hnone' : w.board.waitingFor (crusherOf u) = 0 := by
      rw [hwboard]
      exact Board.waitingFor_eq_zero_iff.mpr hnone
    obtain ⟨k1, k2⟩ := hmoded.stills hnone'
    have htboard : t.board = w.board := by rw [htrest]; exact k1
    obtain ⟨e1, e2⟩ := he.stills (by rw [htboard]; exact hnone')
    rw [e1, e2, htboard, htrest]
    exact ⟨hwboard, k2.trans (by rw [hwstation])⟩
  · rw [hereasons, htrest]
    exact hreason.trans (by simp)

/-- A Positioner in SUSPENDED takes no part in the evaluation of its crusher's predicate. -/
theorem State.evaluate_positioners (h : (s.positioner u).state = .suspended) :
    (s.evaluate (crusherOf u)).positioners = s.positioners := by
  have hretarget (a : State) (ha : a.positioners = s.positioners) : (a.retarget u).positioners = s.positioners := by
    unfold State.retarget
    rw [show (a.positioner u).state = .suspended by rw [State.positioner, ha]; exact h]
    exact ha
  have happly (a : State) (i : Nat) (r : Slot) (hr : r.station = crusherOf u) (ha : a.positioners = s.positioners) :
      ((a.freeSlot i).applyWith State.retarget r).positioners = s.positioners := by
    unfold State.applyWith State.writeStandingWith
    rw [hr]
    dsimp only
    split
    · exact ha
    · exact hretarget _ ha
  unfold State.evaluate State.evaluateWith
  dsimp only
  split
  · unfold State.selectWith
    split
    · rfl
    · next i r hb =>
      split
      · exact happly _ i r (bestSlot_station hb) rfl
      · rfl
  · rfl

theorem Positioner.suspend_draining {now : Nat} {p : Positioner} (h : p.state = .draining) :
    p.suspend now = { p with state := .suspended, drainTimer := none } := by
  simp only [Positioner.suspend, h]

theorem Positioner.suspend_deadTime {now : Nat} {p : Positioner} (h : p.state = .deadTime) :
    p.suspend now = { p with state := .suspended, pendingDrive := none, moveTimer := none } := by
  simp only [Positioner.suspend, h, Positioner.discardPending]

/-- A reason that suspends nothing is added alone: another is held, or the state is none that it suspends. -/
theorem Positioner.under_kept {now : Nat} {r : Reason} {p : Positioner}
    (h : p.reasons.isEmpty = false ∨ p.state = .suspended ∨ p.state = .fault ∨ p.state = .lent) :
    p.under now r = { p with reasons := p.reasons.put r true } := by
  have hsame : (if p.reasons.isEmpty then p.suspend now else p) = p := by
    rcases h with h | h | h | h
    · simp [h]
    all_goals simp [Positioner.suspend, h]
  rw [Positioner.under, hsame]
  split
  · next hr =>
    have hput := Reasons.put_has p.reasons r
    rw [hr] at hput
    rw [hput]
  · rfl

/-- A crusher not jogging, taken out of RUN: the reason and the hold, and nothing else of the train (R9). -/
theorem State.crusherMode_barred (hno : mode ≠ .run) (hjog : (s.positioner u).state ≠ .jogging) :
    let e := ((s.crusherModed u mode).judgeModeHold u).evaluate (crusherOf u)
    e.positioner u = (s.positioner u).under s.now .mode ∧ e.governor u = (s.governor u).hold .mode ∧
      e.conditions = s.conditions := by
  have hwmode : ((s.modStation (crusherOf u) fun r => { r with mode := mode }).station (crusherOf u)).mode = mode := by
    rw [State.station_modStation]
  have hk : s.crusherModed u mode = (s.modStation (crusherOf u) fun r => { r with mode := mode }).modPositioner u
      (Positioner.under s.now .mode) := by
    have hended : (s.modStation (crusherOf u) fun r => { r with mode := mode }).endRunningJog u =
        s.modStation (crusherOf u) fun r => { r with mode := mode } := if_neg hjog
    rw [State.crusherModed, hended, State.judgeModeReason, if_neg (by rw [hwmode]; exact hno), State.addReason_eq (.inr rfl)]
    rfl
  have hruns : (s.crusherModed u mode).trainRuns u = false := by
    rw [hk, State.trainRuns, Bool.and_eq_false_iff]
    exact .inr (decide_eq_false (by rw [State.modPositioner_station_read, hwmode]; exact hno))
  have ht := (s.crusherModed u mode).modeHeld_eq u
  rw [hruns] at ht
  have hacc : ((s.crusherModed u mode).judgeModeHold u).accepting (crusherOf u) = false := by
    refine State.accepting_of_mode ?_
    rw [ht, hk]
    exact fun h => hno (hwmode.symm.trans h)
  intro e
  have he : e = ((s.crusherModed u mode).judgeModeHold u).modStation (crusherOf u) fun r => { r with lastAccepting := false } := by
    rw [← hacc]
    exact State.evaluate_eq (.inl hacc)
  rw [he, ht, hk]
  exact ⟨Quad.get_set_self .., Quad.get_set_self .., rfl⟩

/-- A Positioner whose jog has ended, SUSPENDED (R89). -/
def Positioner.jogEnded (now : Nat) (p : Positioner) : Positioner :=
  { p with
    state := .suspended
    drive := none
    pendingDrive := none
    lastEnd := match p.drive with | none => p.lastEnd | some d => ⟨now, some d.direction⟩
    valve := match p.drive with | none => p.valve | some _ => ⟨0, 0⟩
    jog := none }

/-- A jog that ends with a change of mode, under a reason that is held (R11, R89). -/
theorem State.crusherMode_jogging (hjog : (s.positioner u).state = .jogging) (hreason : (s.positioner u).reasons.mode = true)
    (hheld : mode ≠ .run ∨ ((s.positioner u).reasons.put .mode false).isEmpty = false) :
    (((s.crusherModed u mode).judgeModeHold u).evaluate (crusherOf u)).positioner u =
      { (s.positioner u).jogEnded s.now with reasons := (s.positioner u).reasons.put .mode (decide (mode ≠ .run)) } := by
  have hwmode : ((s.modStation (crusherOf u) fun r => { r with mode := mode }).station (crusherOf u)).mode = mode := by
    rw [State.station_modStation]
  have hnonempty : (s.positioner u).reasons.isEmpty = false := by
    rw [← Bool.not_eq_true, Reasons.isEmpty_iff]
    exact fun h => Bool.noConfusion (hreason.symm.trans (h .mode))
  have hended : (s.modStation (crusherOf u) fun r => { r with mode := mode }).endRunningJog u =
      (s.modStation (crusherOf u) fun r => { r with mode := mode }).endJog u := if_pos hjog
  have hj := State.endJog_eq (s := s.modStation (crusherOf u) fun r => { r with mode := mode }) (u := u) hnonempty
  rw [← hended] at hj
  have hjmode : ((((s.modStation (crusherOf u) fun r => { r with mode := mode }).endRunningJog u)).station
      (crusherOf u)).mode = mode := by rw [hj]; exact hwmode
  have hjp : ((s.modStation (crusherOf u) fun r => { r with mode := mode }).endRunningJog u).positioner u =
      (s.positioner u).jogEnded s.now := by
    rw [hj, State.positioner_modPositioner]
    rfl
  have hk : (s.crusherModed u mode).positioner u =
      { (s.positioner u).jogEnded s.now with reasons := (s.positioner u).reasons.put .mode (decide (mode ≠ .run)) } := by
    rw [State.crusherModed, State.judgeModeReason, hjmode]
    generalize (s.modStation (crusherOf u) fun r => { r with mode := mode }).endRunningJog u = x at *
    have hxr : (x.positioner u).reasons = (s.positioner u).reasons := by rw [hjp]; rfl
    split
    · next hrun =>
      rw [State.removeReason_eq (.inr (by rw [hxr]; exact hheld.resolve_left (not_not.mpr hrun))),
        State.positioner_modPositioner, hrun, hxr, hjp]
      rfl
    · next hrun =>
      rw [State.addReason_eq (.inr rfl), State.positioner_modPositioner, Positioner.under,
        if_pos (show (x.positioner u).reasons.has .mode = true by rw [hxr]; exact hreason), hjp, decide_eq_true hrun]
      have hput := Reasons.put_has (s.positioner u).reasons .mode
      rw [show (s.positioner u).reasons.has .mode = true from hreason] at hput
      rw [hput]
      rfl
  have ht : ((s.crusherModed u mode).judgeModeHold u).positioners = (s.crusherModed u mode).positioners := by
    rw [State.modeHeld_eq]
  have hstate : (((s.crusherModed u mode).judgeModeHold u).positioner u).state = .suspended := by
    rw [State.positioner, ht]
    exact congrArg Positioner.state hk
  exact (congrArg (Quad.get · u) ((State.evaluate_positioners hstate).trans ht)).trans hk

/-! ### SET MODE (R10) -/

/-- A station with another mode taken, before its slots are removed (R9, R11). -/
def State.modeTaken (s : State) (st : Station) (mode : Mode) : State :=
  match st.role with
  | .feeder => ((s.modStation st fun r => { r with mode := mode }).judgeModeHold st.train).evaluate st
  | .crusher => ((s.crusherModed st.train mode).judgeModeHold st.train).evaluate st

theorem State.modeTaken_taken (s : State) (st : Station) (mode : Mode) : ModeTaken st mode s (s.modeTaken st mode) := by
  obtain ⟨u, role⟩ := st
  cases role with
  | feeder => exact (State.feederMode_taken (s.feederMode_written u mode)).1
  | crusher => exact (s.crusherMode_taken u mode).1

theorem State.enterMode_changed (h : (s.station st).mode ≠ mode) :
    s.enterMode st mode =
      if mode = .outOfService then (s.modeTaken st mode).removeSlots st else s.modeTaken st mode := by
  have hchanged : (!decide ((s.station st).mode ≠ mode)) = false := by simp [h]
  obtain ⟨u, role⟩ := st
  rw [State.enterMode]
  dsimp only
  rw [hchanged]
  cases role <;> rfl

theorem State.enterMode_same (h : (s.station st).mode = mode) :
    s.enterMode st mode = if mode = .outOfService then s.removeSlots st else s := by
  have hchanged : (!decide ((s.station st).mode ≠ mode)) = true := by simp [h]
  have hsame : (s.modStation st fun r => { r with mode := mode }) = s := by
    subst h
    obtain ⟨u, role⟩ := st
    cases role
    · exact congrArg (fun q => { s with feeders := q }) (s.feeders.set_get u)
    · exact congrArg (fun q => { s with crushers := q }) (s.crushers.set_get u)
  rw [State.enterMode]
  dsimp only
  rw [hchanged, hsame]
  rfl

theorem State.removeSlots_eq (s : State) (st : Station) :
    s.removeSlots st = s.withBoard { s.board with slots := s.board.slots.map fun o =>
      if (o.any fun r => r.station = st) then none else o } := by
  rw [State.removeSlots, Board.freeWhere_eq]
  rfl

theorem State.modeTaken_feeder (h : st.role = .feeder) : (s.modeTaken st mode).positioners = s.positioners := by
  obtain ⟨u, role⟩ := st
  cases h
  exact (State.feederMode_taken (s.feederMode_written u mode)).2

theorem State.modeTaken_crusher (h : st.role = .crusher) :
    ((s.modeTaken st mode).positioner st.train).reasons.mode = decide (mode ≠ .run) := by
  obtain ⟨u, role⟩ := st
  cases h
  exact (s.crusherMode_taken u mode).2

theorem State.modeTaken_barred (h : st.role = .crusher) (hno : mode ≠ .run)
    (hjog : (s.positioner st.train).state ≠ .jogging) :
    (s.modeTaken st mode).positioner st.train = (s.positioner st.train).under s.now .mode ∧
      (s.modeTaken st mode).governor st.train = (s.governor st.train).hold .mode ∧
      (s.modeTaken st mode).conditions = s.conditions := by
  obtain ⟨u, role⟩ := st
  cases h
  exact State.crusherMode_barred hno hjog

theorem State.modeTaken_jogging (h : st.role = .crusher) (hjog : (s.positioner st.train).state = .jogging)
    (hreason : (s.positioner st.train).reasons.mode = true)
    (hheld : mode ≠ .run ∨ ((s.positioner st.train).reasons.put .mode false).isEmpty = false) :
    (s.modeTaken st mode).positioner st.train =
      { (s.positioner st.train).jogEnded s.now with
        reasons := (s.positioner st.train).reasons.put .mode (decide (mode ≠ .run)) } := by
  obtain ⟨u, role⟩ := st
  cases h
  exact State.crusherMode_jogging hjog hreason hheld

/-- A predicate that rises applies the best of the requests that wait, where it outranks (R8, R42). -/
theorem State.evaluate_selects {i : Nat} {r : Slot} (hacc : s.accepting st = true)
    (hlast : (s.station st).lastAccepting = false) (hi : s.board.slots[i]? = some (some r)) (hst : r.station = st)
    (hbest : ∀ j q, s.board.slots[j]? = some (some q) → q.station = st → j ≠ i →
      q.priority < r.priority ∨ q.priority = r.priority ∧ q.sequence < r.sequence)
    (ho : outranks r.priority r.sequence (s.station st).standing = true) :
    SlotApplied st i r (s.modStation st fun x => { x with lastAccepting := true }) (s.evaluate st) := by
  have hboard : (s.modStation st fun x => { x with lastAccepting := true }).board = s.board := State.modStation_board ..
  have hselect := State.selectWith_of_best (s := s.modStation st fun x => { x with lastAccepting := true })
    (report := State.retarget) (by rw [hboard]; exact hi) hst (by rw [hboard]; exact hbest)
  rw [if_pos (by rw [State.station_modStation]; exact ho)] at hselect
  have heval : s.evaluate st = (s.modStation st fun x => { x with lastAccepting := true }).selectWith State.retarget st := by
    rw [State.evaluate, State.evaluateWith, hlast, hacc]
    rfl
  rw [heval, hselect]
  exact State.freeSlot_apply hst (by rw [hboard]; exact hbest)

/-- A feeder back in RUN takes the best of the requests that wait for it (R8, R42). -/
theorem State.modeTaken_selects {i : Nat} {r : Slot} (hrun : mode = .run) (h : st.role = .feeder) (hp : s.present st.train = true)
    (hlast : (s.station st).lastAccepting = false) (hi : s.board.slots[i]? = some (some r)) (hst : r.station = st)
    (hbest : ∀ j q, s.board.slots[j]? = some (some q) → q.station = st → j ≠ i →
      q.priority < r.priority ∨ q.priority = r.priority ∧ q.sequence < r.sequence)
    (ho : outranks r.priority r.sequence (s.station st).standing = true) :
    (s.modeTaken st mode).board = { s.board with slots := s.board.slots.set i none } ∧
      ((s.modeTaken st mode).station st).standing =
        ⟨s.limited st r.value, r.priority, .request r.source r.tag r.sequence, r.keep⟩ := by
  obtain ⟨u, role⟩ := st
  cases h
  subst hrun
  have hw := s.feederMode_written u .run
  show (((s.modStation (feederOf u) fun r => { r with mode := .run }).judgeModeHold u).evaluate (feederOf u)).board = _ ∧
    ((((s.modStation (feederOf u) fun r => { r with mode := .run }).judgeModeHold u).evaluate (feederOf u)).station
      (feederOf u)).standing = _
  generalize (s.modStation (feederOf u) fun r => { r with mode := .run }).judgeModeHold u = t at *
  have hboard : t.board = s.board := by rw [hw.rest]
  have hpresent : t.present u = true := by rw [hw.rest]; exact hp
  have hacc : t.accepting (feederOf u) = true := by
    rw [State.accepting, hw.station]
    simp [feederOf, hpresent]
  have hlimited : (t.modStation (feederOf u) fun x => { x with lastAccepting := true }).limited (feederOf u) r.value =
      s.limited (feederOf u) r.value := by
    rw [hw.rest]
    rfl
  obtain ⟨-, board, standing, -, -, -⟩ := State.evaluate_selects hacc (by rw [hw.station]; exact hlast)
    (by rw [hboard]; exact hi) hst (by rw [hboard]; exact hbest) (by rw [hw.station]; exact ho)
  refine ⟨board.trans ?_, standing.trans ?_⟩
  · rw [State.modStation_board, hboard]
  · rw [hlimited]
    rfl

section request

variable {l : Link} {tag b m : Byte}

theorem exec_setMode_owned (hs : s.takesOn l) (hl : l ≠ .lc) (hb : b.toNat = st.number) (hp : s.present st.train = true)
    (hm : m.toNat = (match mode with | .run => 0 | .maintenance => 1 | .outOfService => 2)) :
    exec (.setMode l tag b m) s = .next (Decision.reply
      (if (s.replyBegins l).isBusy st then (s.replyBegins l).refuse .busy
        else if (s.station st).mode = .outOfService && mode = .run then (s.replyBegins l).refuse .wrongMode
        else ((s.replyBegins l).enterMode st mode).done []) l tag Kind.setMode.code) := by
  have hok : modeFieldOk m = true := by
    rw [modeFieldOk, decide_eq_true_eq, hm]
    cases mode <;> decide
  have hmode : modeOf m = mode := by
    rw [modeOf, hm]
    cases mode <;> rfl
  have hallowed : Kind.setMode.allowed l = true := by
    cases l
    all_goals first | rfl | exact absurd rfl hl
  rw [exec_setMode, State.whenPowered_powered hs.1.1, State.takeSetMode, hok, State.takeRequest_owned hs hallowed,
    State.ownSetMode, State.withPresent_present (s := s.replyBegins l) hb hp, hmode]
  rfl

end request

/-- Settles O54: the refusals, and the mode taken by a feeder and by a crusher. -/
theorem setModeTakesTheMode : Obligations.SetModeTakesTheMode := by
  intro l tag b m st mode s hs hl hb hp hm busy barred other freed
  have hexec := exec_setMode_owned (tag := tag) hs hl hb hp hm
  have hbusy : (s.replyBegins l).isBusy st = true ↔ busy := by
    show (decide (st.role = .crusher) && s.isSubject st.train) = true ↔ _
    rw [Bool.and_eq_true, decide_eq_true_eq]
  have hrefuse (x : Status) : ((s.replyBegins l).refuse x).reply l tag Kind.setMode.code =
      s.answered l tag 0x04#8 (Answer.refuse x) := Decision.reply_replyBegins ..
  have hbarred (h : ¬barred) : ¬((decide ((s.station st).mode = .outOfService) && decide (mode = .run)) = true) := by
    rw [Bool.and_eq_true, decide_eq_true_eq, decide_eq_true_eq]
    exact h
  refine ⟨fun h => ?_, fun h hbarred => ?_, fun h hsame hin => ?_, fun h hout hmode => ?_, fun h hno hchanged => ?_⟩
  · rw [if_pos (hbusy.mpr h)] at hexec
    exact hexec.trans (congrArg _ (hrefuse _))
  · rw [if_neg (mt hbusy.mp h), if_pos (by simpa using hbarred)] at hexec
    exact hexec.trans (congrArg _ (hrefuse _))
  · rw [if_neg (mt hbusy.mp h), if_neg (hbarred fun hb => hin (hsame.symm.trans hb.1)), State.enterMode_same (s := s.replyBegins l) hsame,
      if_neg hin] at hexec
    exact hexec.trans (congrArg _ (Decision.reply_replyBegins ..))
  · rw [if_neg (mt hbusy.mp h), if_neg (hbarred fun hb => Mode.noConfusion (hmode.symm.trans hb.2)),
      State.enterMode_same (s := s.replyBegins l) (hout.trans hmode.symm),
      if_pos hmode, State.removeSlots_eq] at hexec
    exact hexec.trans (congrArg _ (Decision.reply_replyBegins (s.withBoard { s.board with slots := freed }) ..))
  · rw [if_neg (mt hbusy.mp h), if_neg (hbarred hno), State.enterMode_changed (s := s.replyBegins l) hchanged] at hexec
    have htaken := (s.replyBegins l).modeTaken_taken st mode
    have hd : (if mode = .outOfService then ((s.replyBegins l).modeTaken st mode).removeSlots st
        else (s.replyBegins l).modeTaken st mode) =
        ((s.replyBegins l).modeTaken st mode).withBoard (if mode = .outOfService then
          { ((s.replyBegins l).modeTaken st mode).board with
            slots := ((s.replyBegins l).modeTaken st mode).board.slots.map fun o =>
              if (o.any fun r => r.station = st) then none else o }
          else ((s.replyBegins l).modeTaken st mode).board) := by
      rw [State.removeSlots_eq]
      split <;> rfl
    rw [hd] at hexec
    have hfeeder := State.modeTaken_feeder (s := s.replyBegins l) (st := st) (mode := mode)
    have hcrusher := State.modeTaken_crusher (s := s.replyBegins l) (st := st) (mode := mode)
    have hsuspends := State.modeTaken_barred (s := s.replyBegins l) (st := st) (mode := mode)
    have hjogs := State.modeTaken_jogging (s := s.replyBegins l) (st := st) (mode := mode)
    have hselects (i : Nat) (r : Slot) :=
      State.modeTaken_selects (s := s.replyBegins l) (st := st) (mode := mode) (i := i) (r := r)
    generalize (s.replyBegins l).modeTaken st mode = e at *
    obtain ⟨h1, h2, h3, h4, h5, h6, h7, h8, h9, h10⟩ := htaken.work
    refine ⟨_, hexec, Decision.repliedBy (d := ⟨e.withBoard _, Answer.done []⟩) (k := .setMode) h8,
      ⟨h1, h2, h3, h4, h5, h6, h7, rfl, h9, h10⟩, htaken.store, htaken.zeros, htaken.gaps, htaken.sequencer, htaken.taken,
      htaken.partnerMode, htaken.partnerStanding, hfeeder, fun hrole => ?_, fun hm => ?_, fun hm => ?_⟩
    · intro q held free
      have hfreed (hm : mode ≠ .run) (hj : q.state ≠ .jogging) {p : Positioner} (h : q.reasons.isEmpty = true)
          (hp : q.suspend s.now = p) : e.positioner st.train = { p with reasons := q.reasons.put .mode true } := by
        rw [(hsuspends hrole hm hj).1, ← hp]
        exact Positioner.under_of_empty h
      refine ⟨hcrusher hrole, fun hm => ⟨fun hj => ?_, fun hfree hq => ?_, fun hfree hq => ?_, fun d hfree hq hd => ?_,
        fun hfree hq => ?_, fun hj hq => ?_⟩, fun hj hreason hheld => hjogs hrole hj hreason hheld⟩
      · obtain ⟨-, hgovernor, hconditions⟩ := hsuspends hrole hm hj
        exact ⟨hgovernor, hconditions⟩
      · exact hfreed hm (by simp [hq]) hfree (Positioner.suspend_idle hq)
      · exact hfreed hm (by simp [hq]) hfree (Positioner.suspend_draining hq)
      · exact hfreed hm (by simp [hq]) hfree (Positioner.suspend_driving hq hd)
      · exact hfreed hm (by simp [hq]) hfree (Positioner.suspend_deadTime hq)
      · refine (hsuspends hrole hm hj).1.trans (Positioner.under_kept ?_)
        exact hq.imp (fun h => Bool.eq_false_iff.mpr h) id
    · obtain ⟨hboard, hstanding, happlied⟩ := htaken.barred hm
      refine ⟨htaken.hold.trans (by simp [hm]), State.accepting_of_mode (show (e.station st).mode ≠ .run by rw [htaken.taken]; exact hm),
        hstanding, happlied, ?_⟩
      show (if mode = .outOfService then _ else e.board) = _
      rw [hboard]
      rfl
    · refine ⟨htaken.hold.trans ?_, fun hnone => ?_, fun i r hrole hlast hi hst hbest ho => ?_⟩
      · rw [hm, decide_eq_true rfl, Bool.true_and, ← decide_not]
        rfl
      · obtain ⟨hboard, hstanding⟩ := htaken.quiet hm hnone
        refine ⟨?_, hstanding⟩
        show (if mode = .outOfService then _ else e.board) = _
        rw [if_neg (by simp [hm]), hboard]
        rfl
      · obtain ⟨hboard, hstanding⟩ := hselects i r hm hrole hp hlast hi hst hbest (outranks_iff.mpr ho)
        refine ⟨?_, hstanding⟩
        show (if mode = .outOfService then _ else e.board) = _
        rw [if_neg (by simp [hm]), hboard]
        rfl

end Sys2Proof.Machine
end

section
/-! PROOFS. Moves retargeted and resumed (R73, R79, R84). -/

namespace Sys2Proof.Machine

variable {a b s t : State} {u : Train} {g : Nat} {e : Int}

/-! ### Moves that start, and resumes -/

theorem State.startMoveOr_within {f : State → State} (h : ∀ g, (s.gap u).gap = some g →
      (((s.station (crusherOf u)).standing.target : Int) - g).natAbs ≤ (s.crusher u).deadband / 2) :
    s.startMoveOr u f = f s := by
  unfold State.startMoveOr
  cases hg : (s.gap u).gap with
  | none =>
    have : s.gapError u = none := by rw [State.gapError, hg]; rfl
    rw [this]
  | some g =>
    rw [State.gapError_eq hg]
    exact if_pos (h g hg)

theorem State.startMoveOr_beyond {f : State → State} (hg : (s.gap u).gap = some g)
    (h : (s.crusher u).deadband / 2 < (((s.station (crusherOf u)).standing.target : Int) - g).natAbs) :
    s.startMoveOr u f = s.startMove u (((s.station (crusherOf u)).standing.target : Int) - g) := by
  unfold State.startMoveOr
  rw [State.gapError_eq hg]
  exact if_neg (by simpa [CrusherParams.settleBand] using h)

/-- What a Positioner and the judging of its error read stays: the Positioner, the gap, the target and GAP_MOVE. -/
structure MoveKept (u : Train) (a b : State) : Prop where
  positioner : b.positioner u = a.positioner u
  gapMove : (b.governor u).holds.gapMove = (a.governor u).holds.gapMove
  gap : b.gap u = a.gap u
  target : (b.station (crusherOf u)).standing.target = (a.station (crusherOf u)).standing.target

theorem MoveKept.refl (a : State) (u : Train) : MoveKept u a a := ⟨rfl, rfl, rfl, rfl⟩

theorem MoveKept.trans {c : State} (h : MoveKept u a b) (k : MoveKept u b c) : MoveKept u a c :=
  ⟨k.positioner.trans h.positioner, k.gapMove.trans h.gapMove, k.gap.trans h.gap, k.target.trans h.target⟩

theorem State.modStation_moveKept (s : State) (u : Train) {f : StationRecord → StationRecord}
    (hf : ∀ r, (f r).standing = r.standing) : MoveKept u s (s.modStation (crusherOf u) f) :=
  ⟨rfl, rfl, rfl, by rw [State.station_modStation, hf]⟩

/-- The arrival in IDLE moves nothing where it selects nothing (R139). -/
theorem State.arriveIdle_moveKept (h : (s.station (crusherOf u)).lastAccepting = true ∨
    ∀ r, some r ∈ s.board.slots → r.station ≠ crusherOf u) : MoveKept u s (s.arriveIdle u) := by
  unfold State.arriveIdle
  split
  · have heval : s.endEpisode u = (s.episodeEnded u).modStation (crusherOf u) fun r =>
        { r with lastAccepting := (s.episodeEnded u).accepting (crusherOf u) } :=
      State.evaluateWith_eq (.inr h)
    have hended : MoveKept u s (s.episodeEnded u) :=
      ⟨rfl, by rw [(s.episodeEnded_governor u)]; exact ((s.governor u).release_keeps .relief).1 .gapMove, rfl, rfl⟩
    rw [heval]
    exact hended.trans (State.modStation_moveKept _ u fun _ => rfl)
  · exact .refl s u

theorem State.enterIdle_moveKept (h : (s.station (crusherOf u)).lastAccepting = true ∨
    ∀ r, some r ∈ s.board.slots → r.station ≠ crusherOf u) :
    MoveKept u ((s.modPositioner u fun p => { p with state := .idle, move := none }).removeHold u .gapMove)
      (s.enterIdle u) :=
  State.arriveIdle_moveKept (s := (s.modPositioner u fun p => { p with state := .idle, move := none }).removeHold u .gapMove) h

/-- A crusher evaluated where nothing waits for it moves nothing (R8). -/
theorem State.evaluate_moveKept (h : ∀ r, some r ∈ s.board.slots → r.station ≠ crusherOf u) :
    MoveKept u s (s.evaluate (crusherOf u)) := by
  rw [State.evaluate_eq (.inr (.inr h))]
  exact s.modStation_moveKept u fun _ => rfl

/-- A fresh start is judged by the parameters and the time before it, and by what MoveKept says after it. -/
theorem State.movesAfresh.congr {s' t' : State} (h : s.movesAfresh t u) (hcrusher : s'.crusher u = s.crusher u)
    (hnow : s'.now = s.now) (hk : MoveKept u t t') : s'.movesAfresh t' u := by
  obtain ⟨hp, hg, hgap, ht⟩ := hk
  unfold State.movesAfresh at h ⊢
  rw [hp, hg, hgap, ht, hcrusher, hnow]
  exact h

theorem State.startMove_gaps (s : State) (u : Train) (e : Int) : (s.startMove u e).gaps = s.gaps :=
  (congrArg State.gaps ((Moves.refl s).startMove (t := u) e).rest :)

/-- A move that starts starts afresh (R73). -/
theorem State.startMove_afresh (hd : (s.positioner u).drive = none) (hg : (s.gap u).gap = some g)
    (hout : (s.crusher u).deadband / 2 < (((s.station (crusherOf u)).standing.target : Int) - g).natAbs) :
    s.movesAfresh (s.startMove u (((s.station (crusherOf u)).standing.target : Int) - g)) u := by
  have hkept := (s.startMove_keepsSetting u (((s.station (crusherOf u)).standing.target : Int) - g)).standing
  have hgap : ((s.startMove u (((s.station (crusherOf u)).standing.target : Int) - g)).gap u) = s.gap u :=
    congrArg (Quad.get · u) (s.startMove_gaps u _)
  unfold State.movesAfresh
  rw [hkept, hgap]
  refine ⟨fun hin => absurd (hin g hg) (Nat.not_le.mpr hout), fun g' hg' => ?_⟩
  cases hg.symm.trans hg'
  clear hkept hgap
  generalize he : ((s.station (crusherOf u)).standing.target : Int) - g = e at *
  intro _ way duty _
  by_cases hnow : (s.crusher u).loadAdjust = true ∨ (s.crusher u).drainTime = 0
  · rw [State.startMove_drives hnow]
    have hpositioner := State.positioner_modPositioner s u fun p =>
      Positioner.moving s.now (s.crusher u) e { p with move := some ⟨s.now, (s.crusher u).loadAdjust⟩ }
    have hgovernor : ((s.modPositioner u fun p =>
        Positioner.moving s.now (s.crusher u) e { p with move := some ⟨s.now, (s.crusher u).loadAdjust⟩ }).modGovernor u
          (Governor.moveHeld (s.crusher u).loadAdjust)).governor u =
        (s.governor u).moveHeld (s.crusher u).loadAdjust := State.governor_modGovernor ..
    have hlast : (Positioner.moving s.now (s.crusher u) e
        { s.positioner u with move := some ⟨s.now, (s.crusher u).loadAdjust⟩ }).lastEnd = (s.positioner u).lastEnd := by
      unfold Positioner.moving Positioner.askMove Positioner.ask
      split <;> rfl
    obtain ⟨hmove, htimer⟩ := Positioner.moving_move s.now (s.crusher u) e
      { s.positioner u with move := some ⟨s.now, (s.crusher u).loadAdjust⟩ }
    have hdrive := Positioner.moving_drive s.now (s.crusher u) e
      { s.positioner u with move := some ⟨s.now, (s.crusher u).loadAdjust⟩ } hd
    rw [State.modGovernor_positioner_read, hpositioner, hgovernor, Governor.moveHeld_gapMove]
    refine ⟨hmove, rfl, fun hno hdrain => absurd hnow (by simp [hno, hdrain]), fun _ => ⟨htimer, fun hmay => ?_, fun hne hwait => ?_⟩⟩
    · rw [hlast] at hmay
      exact Eq.mp (if_pos hmay) hdrive
    · rw [hlast] at hne hwait ⊢
      exact Eq.mp (if_neg (not_or.mpr ⟨hne, Nat.not_le.mpr hwait⟩)) hdrive
  · obtain ⟨hadjust, hdrain⟩ := not_or.mp hnow
    rw [State.startMove_drains (by simpa using hadjust) hdrain]
    have hgovernor : ((s.modGovernor u fun g => g.hold .gapMove).governor u).holds.gapMove = true := by
      rw [State.governor_modGovernor]
      exact Governor.hold_has _ .gapMove
    rw [State.positioner_modPositioner, State.modPositioner_governor_read, hgovernor]
    refine ⟨by simp [hadjust], by simp [hadjust], fun _ _ => ⟨rfl, hd, rfl⟩, fun h => absurd h hnow⟩

/-- A Positioner that resumes starts afresh, its reasons, its jog and its last drive end left as they are (R84). -/
theorem State.resume_afresh (hd : (s.positioner u).drive = none)
    (hw : ∀ r, some r ∈ s.board.slots → r.station ≠ crusherOf u) : s.movesAfresh (s.resume u) u := by
  by_cases hin : ∀ g, (s.gap u).gap = some g →
      (((s.station (crusherOf u)).standing.target : Int) - g).natAbs ≤ (s.crusher u).deadband / 2
  · rw [State.resume, State.startMoveOr_within hin]
    have hidle : s.movesAfresh ((s.modPositioner u fun p => { p with state := .idle, move := none }).removeHold u .gapMove)
        u := by
      refine ⟨fun _ => ⟨?_, ?_, ?_, ?_⟩, fun g hg => fun hout => absurd (hin g hg) (Nat.not_le.mpr hout)⟩
      · simp [State.removeHold]
      · simpa [State.removeHold] using hd
      · simp [State.removeHold]
      · exact (congrArg (fun x : Governor => x.holds.gapMove) (State.governor_modGovernor ..)).trans
          (Governor.release_has _ .gapMove)
    exact hidle.congr rfl rfl (s.enterIdle_moveKept (.inr hw))
  · push Not at hin
    obtain ⟨g, hg, hout⟩ := hin
    rw [State.resume, State.startMoveOr_beyond hg hout]
    exact State.startMove_afresh hd hg hout

/-- A Positioner whose last reason goes resumes (R84). -/
theorem State.removeReason_resumes {r : Reason} (hstate : (s.positioner u).state = .suspended)
    (hr : ∀ x, (s.positioner u).reasons.has x = true ↔ x = r) :
    s.removeReason u r = (s.modPositioner u fun p => { p with reasons := p.reasons.put r false }).resume u ∧
      ((s.positioner u).reasons.put r false).isEmpty = true := by
  have hempty : ((s.positioner u).reasons.put r false).isEmpty = true := by
    refine (Reasons.isEmpty_iff _).mpr fun x => ?_
    rw [Reasons.has_put]
    split
    · rfl
    · next hx => exact Bool.eq_false_iff.mpr (mt (hr x).mp hx)
  exact ⟨(if_neg (by simp [(hr r).mpr rfl])).trans (if_pos (by simp [hstate, hempty])), hempty⟩

theorem State.removeReason_afresh {r : Reason} (hd : (s.positioner u).drive = none)
    (hw : ∀ x, some x ∈ s.board.slots → x.station ≠ crusherOf u) (hstate : (s.positioner u).state = .suspended)
    (hr : ∀ x, (s.positioner u).reasons.has x = true ↔ x = r) : s.movesAfresh (s.removeReason u r) u := by
  have hafresh := State.resume_afresh
    (s := s.modPositioner u fun p => { p with reasons := p.reasons.put r false }) (u := u)
    (by rw [State.positioner_modPositioner]; exact hd) hw
  rw [(State.removeReason_resumes hstate hr).1]
  exact hafresh.congr rfl rfl (.refl _ u)

/-- The last reason gone and the predicate evaluated: the Positioner has started afresh. -/
theorem State.removeReason_evaluate_afresh {r : Reason} (hd : (s.positioner u).drive = none)
    (hw : ∀ x, some x ∈ s.board.slots → x.station ≠ crusherOf u) (hstate : (s.positioner u).state = .suspended)
    (hr : ∀ x, (s.positioner u).reasons.has x = true ↔ x = r) :
    s.movesAfresh ((s.removeReason u r).evaluate (crusherOf u)) u := by
  have hboard : (s.removeReason u r).board = s.board :=
    ((stills_moveClosed u).removeReason ((stills_moveClosed u).refl s) r (Board.waitingFor_eq_zero_iff.mpr hw)).1
  exact (State.removeReason_afresh hd hw hstate hr).congr rfl rfl (State.evaluate_moveKept (by rw [hboard]; exact hw))

/-! ### What the other trains leave of a train -/

/-- What one train leaves of another: its Positioner and error, its parameters, and no request that did not wait. -/
structure Aside (u : Train) (a b : State) : Prop where
  kept : MoveKept u a b
  now : b.now = a.now
  crusher : b.crusher u = a.crusher u
  slots : ∀ r, some r ∈ b.board.slots → some r ∈ a.board.slots

theorem Aside.refl (a : State) (u : Train) : Aside u a a := ⟨.refl a u, rfl, rfl, fun _ h => h⟩

theorem Aside.trans {c : State} (h : Aside u a b) (k : Aside u b c) : Aside u a c :=
  ⟨h.kept.trans k.kept, k.now.trans h.now, k.crusher.trans h.crusher, fun r hr => h.slots r (k.slots r hr)⟩

/-- The slots that wait after the moving of a crusher waited before it. -/
theorem slots_moveClosed (v : Train) :
    MoveClosed v fun a b => ∀ r, some r ∈ b.board.slots → some r ∈ a.board.slots where
  refl := fun _ _ h => h
  trans := fun h k r hr => h r (k r hr)
  positioner := fun _ _ _ _ h => h
  addGapMove := fun _ _ h => h
  removeGapMove := fun _ _ h => h
  episode := fun _ _ _ h => h
  judged := fun a _ r h => by rwa [State.evaluated, State.modStation_board] at h
  selected := fun a i _ _ _ _ _ r h => by
    have h : some r ∈ a.board.slots.set i none := h
    exact (List.mem_or_eq_of_mem_set h).resolve_right (by simp)

theorem State.removeReason_aside {v : Train} (r : Reason) (h : v ≠ u) : Aside u s (s.removeReason v r) := by
  have hmoves := s.removeReason_moves v r
  obtain ⟨hstation, hpositioner, hgovernor, -⟩ := hmoves.others u (Ne.symm h)
  have hslots := (slots_moveClosed v).removeReason ((slots_moveClosed v).refl s) r
  have hrest := hmoves.rest
  rw [State.positioner_modPositioner_of_ne _ (Ne.symm h)] at hpositioner
  generalize s.removeReason v r = b at *
  refine ⟨⟨hpositioner, ?_, ?_, ?_⟩, ?_, ?_, hslots⟩
  · rw [hgovernor]; rfl
  · rw [hrest]; rfl
  · rw [hstation]; rfl
  · rw [hrest]; rfl
  · rw [hrest]; rfl

/-- One operation over the trains, as one train sees it: what the others do before it and after it. -/
theorem State.forTrains_through {f : Train → State → State} {P : State → Prop} {R : State → State → Prop} (s : State)
    (u : Train) (hrefl : ∀ a, R a a) (htrans : ∀ {a b c}, R a b → R b c → R a c) (h0 : P s)
    (hP : ∀ v a, P a → P (f v a)) (haside : ∀ v a, P a → v ≠ u → R a (f v a)) :
    ∃ w, P w ∧ R s w ∧ R (f u w) (s.forTrains f) := by
  have h1 := hP .t0 _ h0
  have h2 := hP .t1 _ h1
  have h3 := hP .t2 _ h2
  rw [State.forTrains_eq]
  cases u with
  | t0 => exact ⟨s, h0, hrefl s, htrans (htrans (haside .t1 _ h1 (by decide)) (haside .t2 _ h2 (by decide)))
      (haside .t3 _ h3 (by decide))⟩
  | t1 => exact ⟨_, h1, haside .t0 s h0 (by decide), htrans (haside .t2 _ h2 (by decide)) (haside .t3 _ h3 (by decide))⟩
  | t2 => exact ⟨_, h2, htrans (haside .t0 s h0 (by decide)) (haside .t1 _ h1 (by decide)), haside .t3 _ h3 (by decide)⟩
  | t3 => exact ⟨_, h3, htrans (htrans (haside .t0 s h0 (by decide)) (haside .t1 _ h1 (by decide)))
      (haside .t2 _ h2 (by decide)), hrefl _⟩

/-! ### Acknowledgements taken (R154) -/

theorem exec_acknowledge_owned {l : Link} {tag b field : Byte} {code : Code} {sub : Subject} (hs : s.takesOn l) (hl : l ≠ .lc)
    (hb : b.toNat = code.number) (hdef : subjectDefined field = true)
    (h : acknowledgedSubject code (SubjectField.ofByte field) = .ok sub) :
    exec (.acknowledge l tag b field) s =
      .next ((((s.replyBegins l).acknowledge code sub).done (f1 (boolCode (s.conditions.listed code sub)) ++
        f1 (boolCode (s.conditions.listed code sub && !((s.replyBegins l).acknowledge code sub).conditions.listed code sub)))).reply
          l tag Kind.acknowledge.code) := by
  have hbyte : b = byteOf code.number := BitVec.eq_of_toNat_eq (by rw [hb]; cases code <;> rfl)
  subst hbyte
  have hallowed : Kind.acknowledge.allowed l = true := by cases l <;> first | rfl | contradiction
  have hown : (s.replyBegins l).ownAcknowledge (byteOf code.number) field =
      ((s.replyBegins l).acknowledge code sub).done (f1 (boolCode (s.conditions.listed code sub)) ++
        f1 (boolCode (s.conditions.listed code sub && !((s.replyBegins l).acknowledge code sub).conditions.listed code sub))) := by
    unfold State.ownAcknowledge
    rw [Code.ofNumber_number]
    dsimp only
    rw [h]
    rfl
  rw [exec_acknowledge, State.whenPowered_powered hs.1.1, State.takeAcknowledge, acknowledgeFieldsOk_of hdef,
    State.takeRequest_owned hs hallowed, hown]

/-- The FAULT latch cleared (R81). -/
theorem State.clearFault_afresh (hd : (s.positioner u).drive = none)
    (hw : ∀ r, some r ∈ s.board.slots → r.station ≠ crusherOf u) (hfault : (s.positioner u).state = .fault) :
    ((s.positioner u).reasons.isEmpty = true → s.movesAfresh (s.clearFault u) u) ∧
      ((s.positioner u).reasons.isEmpty = false →
        (s.clearFault u).positioner u = { s.positioner u with state := .suspended }) := by
  have hcleared : s.clearFault u = (if (s.positioner u).reasons.isEmpty then s.resume u
      else s.modPositioner u fun p => { p with state := .suspended }).evaluate (crusherOf u) := if_pos hfault
  rw [hcleared]
  refine ⟨fun hempty => ?_, fun hheld => ?_⟩
  · have hboard : (s.resume u).board = s.board := by
      rw [← State.resume_suspended]
      exact ((stills_moveClosed u).resume
        ((stills_moveClosed u).refl (s.modPositioner u fun p => { p with state := .suspended })) (by simp) (by simpa using hempty)
        (Board.waitingFor_eq_zero_iff.mpr hw)).1
    rw [if_pos hempty]
    exact (State.resume_afresh hd hw).congr rfl rfl (State.evaluate_moveKept (by rw [hboard]; exact hw))
  · rw [if_neg (by simp [hheld]), (State.evaluate_moveKept
      (s := s.modPositioner u fun p => { p with state := .suspended }) (u := u) hw).positioner, State.positioner_modPositioner]

/-! ### The end of a move, and targets reported (R78, R79) -/

theorem State.endMove_moveKept (h : (s.station (crusherOf u)).lastAccepting = true ∨
    ∀ r, some r ∈ s.board.slots → r.station ≠ crusherOf u) :
    MoveKept u ((s.modPositioner u (Positioner.ended s.now)).removeHold u .gapMove) (s.endMove u) := by
  rw [MoveClosed.endMove_eq]
  exact State.arriveIdle_moveKept h

theorem State.retarget_idle (h : (s.positioner u).state = .idle) : s.retarget u = s.startMoveOr u id := by
  unfold State.retarget
  rw [h]
  exact if_pos h

theorem State.retarget_driving (h : (s.positioner u).state = .driving) :
    s.retarget u = (s.restartMoveTimer u).judgeMove u Positioner.steer := by
  unfold State.retarget
  rw [h]

theorem State.retarget_deadTime (h : (s.positioner u).state = .deadTime) :
    s.retarget u = (s.restartMoveTimer u).judgeMove u Positioner.steerPending := by
  unfold State.retarget
  rw [h]

end Sys2Proof.Machine
end

section
/-! PROOFS. The obligation on moves retargeted and resumed (R79, R81, R84, R86, R89). -/

namespace Sys2Proof.Machine

variable {a b s t : State} {u : Train} {g : Nat} {e : Int} {l : Link} {tag : Byte}

/-! ### A new target applied to a crusher (R36, R79) -/

/-- A crusher as its Positioner finds it when a changed target is reported: the target, and all else as it was. -/
structure Targeted (u : Train) (target : Nat) (a b : State) : Prop where
  positioner : b.positioner u = a.positioner u
  gap : b.gap u = a.gap u
  crusher : b.crusher u = a.crusher u
  now : b.now = a.now
  target : (b.station (crusherOf u)).standing.target = target
  lastAccepting : (b.station (crusherOf u)).lastAccepting = (a.station (crusherOf u)).lastAccepting

/-- A request that changes the target of a crusher reports it to the Positioner. -/
theorem exec_setGap_retargets {q : SettingRequest} {target : Nat} (htaken : SettingTaken q (crusherOf u) s)
    (hacc : s.accepting (crusherOf u) = true) (hcounter : s.board.counter < 4294967295)
    (htarget : s.limited (crusherOf u) q.value.toNat = target) (hnew : target ≠ (s.station (crusherOf u)).standing.target)
    (ho : outranks q.priorityTaken s.board.counter (s.station (crusherOf u)).standing = true) :
    ∃ w t, exec (q.instr .crusher) s = .next t ∧ Targeted u target s w ∧ MoveKept u (w.retarget u) t := by
  have hslot : (s.slotOf (crusherOf u) q).station = crusherOf u := rfl
  have hvalue : (s.slotOf (crusherOf u) q).value = target := htarget
  have hplaced : (s.numbered (s.slotOf (crusherOf u) q)).placement (s.slotOf (crusherOf u) q) = .applied :=
    State.placement_applied hacc ho
  have hafter (t : State) : t.renumberAfter s.board.counter = t := if_neg (by show ¬s.board.counter = 4294967295; omega)
  have hexec := htaken.applied hplaced
  rw [hafter] at hexec
  set r := s.slotOf (crusherOf u) q
  have hlimited : ((s.numbered r).replyBegins q.link).limited (crusherOf u) r.value = target := by
    rw [hvalue, ← htarget]
    exact s.limited_limited (crusherOf u) q.value.toNat
  have happly : ((s.numbered r).replyBegins q.link).apply r = (((s.numbered r).replyBegins q.link).given r).retarget u := by
    unfold State.apply State.applyWith State.writeStandingWith
    rw [hslot, hlimited, State.station_modStation]
    refine (if_neg hnew).trans ?_
    rw [State.given, hslot, hlimited]
    rfl
  rw [happly] at hexec
  have happlied := ((s.numbered r).replyBegins q.link).given_applied r
  rw [hslot] at happlied
  refine ⟨((s.numbered r).replyBegins q.link).given r, _, hexec, ⟨rfl, rfl, rfl, rfl, ?_, ?_⟩, ⟨rfl, rfl, rfl, rfl⟩⟩
  · rw [happlied.standing]
    exact hlimited
  · rw [State.given, hslot, State.station_modStation, State.station_modStation]
    rfl

/-! ### A move retargeted (R79) -/

variable {w : State} {target : Nat} {m : Move}

theorem Targeted.within (h : Targeted u target s w)
    (hin : ∀ g, (s.gap u).gap = some g → ((target : Int) - g).natAbs ≤ (s.crusher u).deadband / 2) :
    ∀ g, (w.gap u).gap = some g →
      (((w.station (crusherOf u)).standing.target : Int) - g).natAbs ≤ (w.crusher u).deadband / 2 := by
  rw [h.gap, h.target, h.crusher]
  exact hin

/-- A move in DRIVING or DEAD_TIME that finds its new target within the settle band ends. -/
theorem Targeted.ends (h : Targeted u target s w) (hlast : (s.station (crusherOf u)).lastAccepting = true)
    (hin : ∀ g, (s.gap u).gap = some g → ((target : Int) - g).natAbs ≤ (s.crusher u).deadband / 2)
    (hstate : (s.positioner u).state = .driving ∨ (s.positioner u).state = .deadTime) :
    MoveKept u (((w.restartMoveTimer u).modPositioner u (Positioner.ended w.now)).removeHold u .gapMove) (w.retarget u) := by
  have hretarget : w.retarget u = (w.restartMoveTimer u).endMove u := by
    rcases hstate with hs | hs
    · rw [State.retarget_driving (by rw [h.positioner]; exact hs)]
      exact State.judgeMove_within (s := w.restartMoveTimer u) (h.within hin)
    · rw [State.retarget_deadTime (by rw [h.positioner]; exact hs)]
      exact State.judgeMove_within (s := w.restartMoveTimer u) (h.within hin)
  rw [hretarget]
  exact State.endMove_moveKept (s := w.restartMoveTimer u) (.inl (h.lastAccepting.trans hlast))

/-- A move in DRIVING or DEAD_TIME beyond the settle band of its new target is steered, its timer started again. -/
theorem Targeted.steered (h : Targeted u target s w) {f : Nat → CrusherParams → Int → Positioner → Positioner}
    (hretarget : w.retarget u = (w.restartMoveTimer u).judgeMove u f) (hg : (s.gap u).gap = some g)
    (hout : (s.crusher u).deadband / 2 < ((target : Int) - g).natAbs) :
    (w.retarget u).positioner u = f s.now (s.crusher u) ((target : Int) - g)
      { s.positioner u with moveTimer := some ⟨s.now, (s.crusher u).moveLimit * 1000⟩ } := by
  have htimer : (w.restartMoveTimer u).positioner u =
      { s.positioner u with moveTimer := some ⟨s.now, (s.crusher u).moveLimit * 1000⟩ } := by
    rw [State.restartMoveTimer, State.positioner_modPositioner, h.positioner, h.crusher, ← h.now]
    rfl
  have htarget : ((w.restartMoveTimer u).station (crusherOf u)).standing.target = target := h.target
  have hcrusher : (w.restartMoveTimer u).crusher u = s.crusher u := h.crusher
  have hnow : (w.restartMoveTimer u).now = s.now := h.now
  rw [hretarget, State.judgeMove_outside (g := g) (by exact (congrArg GapMeasurement.gap h.gap).trans hg)
    (by rw [htarget, hcrusher]; exact hout), State.positioner_modPositioner, htarget, hcrusher, hnow, htimer]

theorem Positioner.ended_leaves {p : Positioner} {now : Nat} (h : p.move = some m) :
    (p.ended now).state = .idle ∧ (p.ended now).drive = none ∧ (p.ended now).pendingDrive = none ∧
      (p.ended now).move = none ∧ (p.ended now).moveTimer = none ∧
      (p.ended now).lastDuration = some (min (elapsed now m.start) 4294967294) := by
  rw [Positioner.ended_eq, Positioner.moveDuration_some h]
  exact ⟨rfl, rfl, rfl, rfl, rfl, rfl⟩

/-! ### A jog that ends in a resume (R89) -/

theorem State.endJog_afresh (hreasons : (s.positioner u).reasons.isEmpty = true)
    (hw : ∀ r, some r ∈ s.board.slots → r.station ≠ crusherOf u) : s.movesAfresh (s.endJog u) u := by
  have hended := Positioner.dropJog_eq s.now (s.positioner u)
  have hpositioner : (s.modPositioner u fun p => { p.dropJog s.now with state := .suspended }).positioner u =
      { (s.positioner u).dropJog s.now with state := .suspended } := State.positioner_modPositioner ..
  have hresume : s.endJog u = (s.modPositioner u fun p => { p.dropJog s.now with state := .suspended }).resume u := by
    refine if_pos ?_
    rw [hpositioner, hended]
    exact hreasons
  have hafresh := State.resume_afresh (s := s.modPositioner u fun p => { p.dropJog s.now with state := .suspended }) (u := u)
    (by rw [hpositioner, hended]) hw
  rw [hresume]
  exact hafresh.congr rfl rfl (.refl _ u)

/-- A resume leaves the jog, the last drive end and the reasons of its Positioner (R84). -/
theorem State.resume_keeps (hw : ∀ r, some r ∈ s.board.slots → r.station ≠ crusherOf u) :
    ((s.resume u).positioner u).jog = (s.positioner u).jog ∧
      ((s.resume u).positioner u).lastEnd = (s.positioner u).lastEnd ∧
      ((s.resume u).positioner u).reasons = (s.positioner u).reasons := by
  by_cases hin : ∀ g, (s.gap u).gap = some g →
      (((s.station (crusherOf u)).standing.target : Int) - g).natAbs ≤ (s.crusher u).deadband / 2
  · rw [State.resume, State.startMoveOr_within hin, (s.enterIdle_moveKept (.inr hw)).positioner, State.removeHold,
      State.modGovernor_positioner_read, State.positioner_modPositioner]
    exact ⟨rfl, rfl, rfl⟩
  · push Not at hin
    obtain ⟨g, hg, hout⟩ := hin
    rw [State.resume, State.startMoveOr_beyond hg hout]
    by_cases hnow : (s.crusher u).loadAdjust = true ∨ (s.crusher u).drainTime = 0
    · rw [State.startMove_drives hnow, State.modGovernor_positioner_read, State.positioner_modPositioner]
      unfold Positioner.moving Positioner.askMove Positioner.ask
      split <;> exact ⟨rfl, rfl, rfl⟩
    · obtain ⟨hadjust, hdrain⟩ := not_or.mp hnow
      rw [State.startMove_drains (by simpa using hadjust) hdrain, State.positioner_modPositioner]
      exact ⟨rfl, rfl, rfl⟩

theorem State.removeReason_keeps {r : Reason} (hw : ∀ x, some x ∈ s.board.slots → x.station ≠ crusherOf u)
    (hstate : (s.positioner u).state = .suspended) (hr : ∀ x, (s.positioner u).reasons.has x = true ↔ x = r) :
    ((s.removeReason u r).positioner u).jog = (s.positioner u).jog ∧
      ((s.removeReason u r).positioner u).lastEnd = (s.positioner u).lastEnd ∧
      ((s.removeReason u r).positioner u).reasons.isEmpty = true := by
  obtain ⟨hresume, hempty⟩ := State.removeReason_resumes hstate hr
  obtain ⟨hjog, hlast, hreasons⟩ := State.resume_keeps
    (s := s.modPositioner u fun p => { p with reasons := p.reasons.put r false }) (u := u) hw
  rw [State.positioner_modPositioner] at hjog hlast hreasons
  rw [hresume, hreasons]
  exact ⟨hjog, hlast, hempty⟩

/-! ### SET MODE to RUN (R9, R11) -/

/-- A crusher back in RUN: a running jog ended and the reason MODE removed, the rest moving nothing. -/
theorem State.modeTaken_run_moveKept (hw : ∀ r, some r ∈ s.board.slots → r.station ≠ crusherOf u) :
    MoveKept u (((s.modStation (crusherOf u) fun r => { r with mode := .run }).endRunningJog u).removeReason u .mode)
      (s.modeTaken (crusherOf u) .run) := by
  have hjog := State.endRunningJog_shifts (s.modStation (crusherOf u) fun r => { r with mode := .run }) u
  have hmode : ((s.modStation (crusherOf u) fun r => { r with mode := .run }).station (crusherOf u)).mode = .run := by
    rw [State.station_modStation]
  have hboard := (hjog.stills (Board.waitingFor_eq_zero_iff.mpr hw)).1
  have hmode' := hjog.mode.trans hmode
  show MoveKept u _ ((((((s.modStation (crusherOf u) fun r => { r with mode := .run }).endRunningJog u)).judgeModeReason
    u).judgeModeHold u).evaluate (crusherOf u))
  rw [State.modStation_board] at hboard
  generalize (s.modStation (crusherOf u) fun r => { r with mode := .run }).endRunningJog u = x at *
  have hremoved : x.judgeModeReason u = x.removeReason u .mode := if_pos hmode'
  have hboard' : (x.removeReason u .mode).board = s.board :=
    ((stills_moveClosed u).removeReason ((stills_moveClosed u).refl x) .mode
      (Board.waitingFor_eq_zero_iff.mpr (by rw [hboard]; exact hw))).1.trans hboard
  rw [hremoved, State.judgeModeHold_eq]
  generalize x.removeReason u .mode = y at *
  have hheld : MoveKept u y (y.modGovernor u fun g => if y.trainRuns u then g.release .mode else g.hold .mode) := by
    refine ⟨rfl, ?_, rfl, rfl⟩
    rw [State.governor_modGovernor]
    split
    · exact ((y.governor u).release_keeps .mode).1 .gapMove
    · exact ((y.governor u).hold_keeps .mode).1 .gapMove
  exact hheld.trans (State.evaluate_moveKept (by rw [State.modGovernor_board, hboard']; exact hw))

end Sys2Proof.Machine
end

section
/-! PROOFS. The obligation on moves retargeted and resumed, settled. -/

namespace Sys2Proof.Machine

variable {s : State} {u : Train} {l : Link} {tag b : Byte}

theorem present_of_accepting {st : Station} (h : s.accepting st = true) : s.present st.train = true := by
  simp only [State.accepting, Bool.and_eq_true] at h
  exact h.1.1

/-- What O42 says of a Positioner resumed by an event of its crusher or of the line. -/
theorem resumes_afresh (hs : s.powered = true) (hd : (s.positioner u).drive = none)
    (hw : ∀ r, some r ∈ s.board.slots → r.station ≠ crusherOf u) (hstate : (s.positioner u).state = .suspended) :
    (s.inputs.estop.due = true → s.inputs.estop.raw = true →
      (∀ x, (s.positioner u).reasons.has x = true ↔ x = .estop) →
      ∃ t, exec .estopRelease s = .next t ∧ s.movesAfresh t u) ∧
    (∀ k, (s.gap u).validity = .recovering → (s.gap u).recovery = some k →
      k.timer.length ≤ elapsed s.now k.timer.start → (s.gap u).firstReadingDue = false →
      (∀ x, (s.positioner u).reasons.has x = true ↔ x = .position) →
      ∃ t, exec (.recoveryExpiry u) s = .next t ∧ s.movesAfresh t u) ∧
    ∀ k, (s.supervisor u).relief = .clearing → (s.supervisor u).clearingTimer = some k →
      k.length ≤ elapsed s.now k.start → (∀ x, (s.positioner u).reasons.has x = true ↔ x = .relief) →
      ∃ t, exec (.clearingExpiry u) s = .next t ∧ s.movesAfresh t u := by
  refine ⟨fun hdue hraw hr => ?_, fun k hv hk hdue hfirst hr => ?_, fun k hrelief hk hdue hr => ?_⟩
  · refine ⟨_, exec_estopRelease_due hs hdue hraw, ?_⟩
    obtain ⟨w, -, hw', ⟨hafter, -⟩⟩ := State.forTrains_through (f := fun t a => a.removeReason t .estop) (P := fun _ => True)
      (s.withInputs { s.inputs with estop := ⟨true, some true, 0, false⟩ }) u (Aside.refl · u) Aside.trans trivial
      (fun _ _ _ => trivial) fun v a _ hv => State.removeReason_aside .estop hv
    obtain ⟨hkept, hnow, hcrusher, hslots⟩ := hw'
    have hp : w.positioner u = s.positioner u := hkept.positioner
    have hafresh := State.removeReason_afresh (s := w) (u := u) (r := .estop) (by rw [hp]; exact hd)
      (fun r h => hw r (hslots r h)) (by rw [hp]; exact hstate) (by rw [hp]; exact hr)
    generalize ((s.withInputs { s.inputs with estop := ⟨true, some true, 0, false⟩ }).forTrains fun t a =>
      a.removeReason t .estop) = y at *
    rw [State.forTrains_removeHold]
    refine hafresh.congr hcrusher.symm hnow.symm (hafter.trans ⟨rfl, ?_, rfl, rfl⟩)
    refine (congrArg (fun g : Governor => g.holds.gapMove) (Quad.get_map ..)).trans ?_
    exact ((y.governor u).release_keeps .estop).1 .gapMove
  · refine ⟨_, exec_recoveryExpiry_due hs hv hk hdue, ?_⟩
    have hafresh := State.removeReason_evaluate_afresh
      (s := s.modGap u (GapMeasurement.found (if (s.zero u).valid then k.gap else none))) (u := u) hd hw hstate hr
    rw [State.becomeValid_eq hfirst]
    split <;> exact hafresh.congr rfl rfl ⟨rfl, rfl, rfl, rfl⟩
  · refine ⟨_, exec_clearingExpiry_due hs hrelief hk hdue, ?_⟩
    obtain ⟨hrest, -⟩ := (s.modSupervisor u fun v =>
      { v with relief := .restoring, clearingTimer := none }).endLatchCause_ends u .repeatedRelief
    rw [State.restoring]
    generalize (s.modSupervisor u fun v => { v with relief := .restoring, clearingTimer := none }).endLatchCause u
      .repeatedRelief = w at *
    have hp : w.positioner u = s.positioner u := by rw [hrest]; rfl
    have hafresh := State.removeReason_evaluate_afresh (s := w) (u := u) (r := .relief) (by rw [hp]; exact hd)
      (by rw [hrest]; exact hw) (by rw [hp]; exact hstate) (by rw [hp]; exact hr)
    exact hafresh.congr (by rw [hrest]; rfl) (by rw [hrest]; rfl) (.refl _ u)

section request

variable (hs : s.takesOn l) (hl : l ≠ .lc) (hb : b.toNat = (crusherOf u).number)
  (hw : ∀ r, some r ∈ s.board.slots → r.station ≠ crusherOf u)
include hs hl hb

/-- A SET MODE to RUN of a crusher in MAINTENANCE, as far as its reply. -/
theorem exec_setMode_run (hp : s.present u = true) (hsub : s.isSubject u = false)
    (hmode : (s.station (crusherOf u)).mode = .maintenance) :
    ∃ t, exec (.setMode l tag b 0#8) s = .next t ∧
      MoveKept u ((s.replyBegins l).modeTaken (crusherOf u) .run) t ∧
      (t.station (crusherOf u)).mode = .run := by
  have hexec := exec_setMode_owned (tag := tag) (m := 0#8) (mode := .run) hs hl hb hp rfl
  have hbusy : (s.replyBegins l).isBusy (crusherOf u) = false := by
    show (decide ((crusherOf u).role = .crusher) && s.isSubject u) = false
    rw [hsub, Bool.and_false]
  rw [hbusy, if_neg Bool.false_ne_true, if_neg (by simp [hmode]),
    State.enterMode_changed (s := s.replyBegins l) (by rw [show ((s.replyBegins l).station (crusherOf u)).mode = _ from hmode]; simp),
    if_neg (by simp)] at hexec
  exact ⟨_, hexec, ⟨rfl, rfl, rfl, rfl⟩, ((s.replyBegins l).modeTaken_taken (crusherOf u) .run).taken⟩

include hw

/-- An acknowledged FAULT (R81). -/
theorem exec_acknowledge_fault (hd : (s.positioner u).drive = none) (hfault : (s.positioner u).state = .fault) :
    ∃ t, exec (.acknowledge l tag 10#8 b) s = .next t ∧
      ((s.positioner u).reasons.isEmpty = true → s.movesAfresh t u) ∧
      ((s.positioner u).reasons.isEmpty = false → t.positioner u = { s.positioner u with state := .suspended }) := by
  have hle : b.toNat ≤ 63 := by rw [hb]; cases u <;> decide
  have hdef : subjectDefined b = true := by simp [subjectDefined, hle]
  have hsub : acknowledgedSubject .moveTimeout (SubjectField.ofByte b) = .ok (.crusher u) := by
    rw [SubjectField.ofByte_station hle]
    unfold acknowledgedSubject
    simp only [Code.subjectKind]
    rw [ofNumber_of hb]
    rfl
  have hexec := exec_acknowledge_owned (tag := tag) (b := 10#8) (code := .moveTimeout) hs hl rfl hdef hsub
  obtain ⟨hfree, hheld⟩ := State.clearFault_afresh
    (s := (s.replyBegins l).modConditions fun c => c.acknowledged .moveTimeout (.crusher u)) hd hw hfault
  exact ⟨_, hexec, fun hempty => (hfree hempty).congr rfl rfl ⟨rfl, rfl, rfl, rfl⟩, hheld⟩

end request

/-- Settles O42: the target reported, and the resumes with what starts them. -/
theorem movesAreRetargetedAndResumed : Obligations.MovesAreRetargetedAndResumed := by
  refine ⟨?_, ?_, ?_, ?_⟩
  · intro l tag b priority value keep wait u s hs hpriority hwait hb hacc hlast hauth hkeep hcounter old p q taken target full
      ho hnew
    have htaken : SettingTaken ⟨l, tag, b, value, priority, keep, wait⟩ (crusherOf u) s :=
      ⟨hs, hpriority, hwait, hb, present_of_accepting hacc, hauth, hkeep⟩
    have htarget : s.limited (crusherOf u) value.toNat = target := s.limited_eq (crusherOf u) value.toNat
    obtain ⟨w, t, hexec, hw, hkept⟩ := exec_setGap_retargets htaken hacc hcounter htarget hnew
      (by rw [SettingRequest.priorityTaken_eq]; exact outranks_iff.mpr ho)
    have hsetting := State.retarget_keepsSetting (s := w) (u := u) (hw.lastAccepting.trans hlast)
    refine ⟨t, hexec, ?_, fun h0 h1 h2 => ?_, fun hin => ⟨fun hidle => ?_, fun m hstate hm => ?_⟩, fun g hg hout => ?_⟩
    · rw [hkept.target, hsetting.standing, hw.target]
    · rw [hkept.positioner, State.retarget_still (by rw [hw.positioner]; exact h0) (by rw [hw.positioner]; exact h1)
        (by rw [hw.positioner]; exact h2), hw.positioner]
    · rw [hkept.positioner, State.retarget_idle (by rw [hw.positioner]; exact hidle), State.startMoveOr_within (hw.within hin)]
      exact hw.positioner
    · have hends := (hw.ends hlast hin hstate).trans hkept
      have hpositioner : t.positioner u = Positioner.ended s.now
          { s.positioner u with moveTimer := some ⟨s.now, (s.crusher u).moveLimit * 1000⟩ } := by
        rw [hends.positioner, State.removeHold, State.modGovernor_positioner_read, State.positioner_modPositioner,
          State.restartMoveTimer, State.positioner_modPositioner, hw.positioner, hw.crusher, hw.now, ← hw.now]
        rfl
      obtain ⟨h1, h2, h3, h4, h5, h6⟩ := Positioner.ended_leaves (now := s.now)
        (p := { s.positioner u with moveTimer := some ⟨s.now, (s.crusher u).moveLimit * 1000⟩ }) hm
      rw [hpositioner]
      refine ⟨h1, h2, h3, h4, h5, h6, hends.gapMove.trans ?_⟩
      exact (congrArg (fun x : Governor => x.holds.gapMove) (State.governor_modGovernor ..)).trans (Governor.release_has _ .gapMove)
    · intro e duty
      refine ⟨fun hidle hd => ?_, fun d hstate hd => ?_, fun d hstate hd hoff => ?_⟩
      · have hg' : (w.gap u).gap = some g := by rw [hw.gap]; exact hg
        have hout' : (w.crusher u).deadband / 2 < (((w.station (crusherOf u)).standing.target : Int) - g).natAbs := by
          rw [hw.crusher, hw.target]
          exact hout
        have hafresh := State.startMove_afresh (u := u) (by rw [hw.positioner]; exact hd) hg' hout'
        rw [← State.startMoveOr_beyond (f := id) hg' hout',
          ← State.retarget_idle (by rw [hw.positioner]; exact hidle)] at hafresh
        exact hafresh.congr hw.crusher.symm hw.now.symm hkept
      · have hsteered := hkept.positioner.trans
          (hw.steered (State.retarget_driving (by rw [hw.positioner]; exact hstate)) hg hout)
        refine ⟨fun hway => hsteered.trans (Positioner.steer_same (by exact hd) hway),
          fun hway hdead => hsteered.trans (Positioner.steer_reversed (by exact hd) hway hdead)⟩
      · have hsteered := hkept.positioner.trans
          (hw.steered (State.retarget_deadTime (by rw [hw.positioner]; exact hstate)) hg hout)
        refine ⟨fun hway => hsteered.trans (Positioner.steerPending_same (by exact hd) hway), fun hway => ⟨fun hmay => ?_,
          fun hne hwait => ?_⟩⟩
        all_goals
          rw [hsteered, Positioner.steerPending_reversed (by exact hd) hway]
          have hother := moveDirection_other hway
        · rw [Positioner.askMove_begins (by rw [hother]; exact hmay), Positioner.driven, hother]
          rfl
        · refine (Positioner.askMove_waits (p := { s.positioner u with moveTimer := full }) hoff (by rw [hother]; exact hne) hwait).trans ?_
          rw [Positioner.waiting, hother, ← hstate]
          rfl
  · intro u s hs hd hwait q resumes
    have hw := Board.waitingFor_eq_zero_iff.mp hwait
    have hevents := fun hstate => resumes_afresh hs hd hw hstate
    refine ⟨fun hdue hraw hstate hr => (hevents hstate).1 hdue hraw hr,
      fun k hv hk hdue hfirst hstate hr => (hevents hstate).2.1 k hv hk hdue hfirst hr,
      fun k hrelief hk hdue hstate hr => (hevents hstate).2.2 k hrelief hk hdue hr,
      fun l tag b hs hl hb => ⟨fun hp hsub hmode hstate hr => ?_, fun hfault => exec_acknowledge_fault hs hl hb hw hd hfault⟩⟩
    obtain ⟨t, hexec, hkept, -⟩ := exec_setMode_run (tag := tag) hs hl hb hp hsub hmode
    refine ⟨t, hexec, ?_⟩
    have hrun := State.modeTaken_run_moveKept (s := s.replyBegins l) (u := u) hw
    have hjog : ((s.replyBegins l).modStation (crusherOf u) fun r => { r with mode := .run }).endRunningJog u =
        (s.replyBegins l).modStation (crusherOf u) fun r => { r with mode := .run } :=
      if_neg (by rw [State.modStation_positioner_read, show ((s.replyBegins l).positioner u).state = .suspended from hstate]; simp)
    rw [hjog] at hrun
    have hafresh := State.removeReason_afresh
      (s := (s.replyBegins l).modStation (crusherOf u) fun r => { r with mode := .run }) (u := u) (r := .mode) hd hw hstate hr
    exact hafresh.congr rfl rfl (hrun.trans hkept)
  · intro u j s hs hwait hstate hj hend hreasons
    have hdue : s.jogDue u = true := by simp [State.jogDue, hj, hend, hstate]
    rw [exec_jogTimeEnd, State.whenPowered_powered hs]
    exact ⟨_, congrArg _ (if_pos hdue), State.endJog_afresh hreasons (Board.waitingFor_eq_zero_iff.mp hwait)⟩
  · intro l tag b u s hs hl hb hp hsub hwait hmode hstate hr
    have hw := Board.waitingFor_eq_zero_iff.mp hwait
    obtain ⟨t, hexec, hkept, hmode'⟩ := exec_setMode_run (tag := tag) hs hl hb hp hsub hmode
    have hrun := State.modeTaken_run_moveKept (s := s.replyBegins l) (u := u) hw
    have hended : ((s.replyBegins l).modStation (crusherOf u) fun r => { r with mode := .run }).endRunningJog u =
        ((s.replyBegins l).modStation (crusherOf u) fun r => { r with mode := .run }).modPositioner u
          (Positioner.jogEnded s.now) := by
      have hheld : (s.positioner u).reasons.isEmpty = false := by
        rw [← Bool.not_eq_true, Reasons.isEmpty_iff]
        exact fun h => Bool.noConfusion (((hr .mode).mpr rfl).symm.trans (h .mode))
      exact (if_pos hstate).trans
        (State.endJog_eq (s := (s.replyBegins l).modStation (crusherOf u) fun r => { r with mode := .run }) hheld)
    rw [hended] at hrun
    have hpositioner := State.positioner_modPositioner ((s.replyBegins l).modStation (crusherOf u) fun r => { r with mode := .run }) u
      (Positioner.jogEnded s.now)
    rw [State.modStation_positioner_read, show (s.replyBegins l).positioner u = s.positioner u from rfl] at hpositioner
    have hslots (r : Slot) (h : some r ∈ (((s.replyBegins l).modStation (crusherOf u) fun r => { r with mode := .run }).modPositioner u
      (Positioner.jogEnded s.now)).board.slots) : r.station ≠ crusherOf u := hw r h
    have hcrusher : (((s.replyBegins l).modStation (crusherOf u) fun r => { r with mode := .run }).modPositioner u
      (Positioner.jogEnded s.now)).crusher u = s.crusher u := rfl
    have hnow : (((s.replyBegins l).modStation (crusherOf u) fun r => { r with mode := .run }).modPositioner u
      (Positioner.jogEnded s.now)).now = s.now := rfl
    generalize ((s.replyBegins l).modStation (crusherOf u) fun r => { r with mode := .run }).modPositioner u
      (Positioner.jogEnded s.now) = x at *
    have hreasons : (x.positioner u).reasons = (s.positioner u).reasons := by rw [hpositioner]; rfl
    have hstate' : (x.positioner u).state = .suspended := by rw [hpositioner]; rfl
    have hr' (y : Reason) : (x.positioner u).reasons.has y = true ↔ y = .mode := by rw [hreasons]; exact hr y
    obtain ⟨hjog, hlast, hleft⟩ := State.removeReason_keeps (s := x) hslots hstate' hr'
    have hkept' := (hrun.trans hkept).positioner
    refine ⟨t, hexec, (State.removeReason_afresh (by rw [hpositioner]; rfl) hslots hstate' hr').congr hcrusher.symm hnow.symm
      (hrun.trans hkept), ?_, hmode', ?_, fun d hd => ?_⟩
    · rw [hkept', hjog, hpositioner]
      rfl
    · rw [hkept', hleft]
    · rw [hkept', hlast, hpositioner]
      simp only [Positioner.jogEnded, hd]

end Sys2Proof.Machine
end

section
/-! PROOFS. What the owner of a latch does with an acknowledgement (R81, R143, R154 step 2, R155 step 2). -/

namespace Sys2Proof.Machine

variable {a b c s t : State} {u : Train} {code : Code}

/-! ### A FAULT left (R81) -/

/-- The moving of a crusher never enters FAULT. -/
theorem unfaulted_moveClosed (u : Train) :
    MoveClosed u fun a b => (a.positioner u).state ≠ .fault → (b.positioner u).state ≠ .fault where
  refl := fun _ h => h
  trans := fun h k ha => k (h ha)
  positioner := fun a f h hno => by
    rw [State.positioner_modPositioner]
    generalize f (a.positioner u) = p' at h
    generalize a.positioner u = p at h hno
    have hask (p : Positioner) (e : Int) : (p.askMove a.now (a.crusher u) e).state ≠ .fault := by
      unfold Positioner.askMove
      dsimp only
      split <;> simp
    cases h with
    | keeps state => rwa [state]
    | asks e timer => exact hask _ e
    | steers e hstate =>
      unfold Positioner.steer
      split
      · exact hno
      · split
        · exact hno
        · exact hask _ e
    | steersPending e hstate =>
      unfold Positioner.steerPending
      split
      · exact hno
      · split
        · exact hno
        · exact hask _ e
    | without => exact hno
    | drains | rests | ends | endsJog => simp [Positioner.ended]
  addGapMove := fun _ h => h
  removeGapMove := fun _ h => h
  episode := fun _ _ h => h
  judged := fun a _ h => by rwa [State.evaluated, State.modStation_positioner_read]
  selected := fun a i r _ _ _ _ h => by
    rwa [State.applied, State.modStation_positioner_read, State.modStation_positioner_read, State.evaluated]

/-- A cleared FAULT is left, whatever follows it. -/
theorem State.clearFault_unfaulted (hfault : (s.positioner u).state = .fault) :
    ((s.clearFault u).positioner u).state ≠ .fault := by
  have hleft : ((s.modPositioner u fun p => { p with state := .suspended }).positioner u).state ≠ .fault := by simp
  have hcleared : s.clearFault u = (if (s.positioner u).reasons.isEmpty then s.resume u
      else s.modPositioner u fun p => { p with state := .suspended }).evaluate (crusherOf u) := if_pos hfault
  rw [hcleared]
  split
  · next hempty =>
    rw [← State.resume_suspended]
    exact (unfaulted_moveClosed u).evaluate ((unfaulted_moveClosed u).resume ((unfaulted_moveClosed u).refl _)
      (by simp) (by simpa using hempty)) hleft
  · exact (unfaulted_moveClosed u).evaluate ((unfaulted_moveClosed u).refl _) hleft

/-! ### An owner's act -/

/-- A trip latch that takes an acknowledgement (R143). -/
def Latch.taken (l : Latch) (active : Bool) : Latch :=
  if l = .set then (if active then .setAcknowledged else .clear) else l

/-- What the owner of a code does with its acknowledgement. -/
structure OwnerTakes (u : Train) (code : Code) (a b : State) : Prop where
  rest : b = { a with
    crushers := b.crushers, board := b.board, positioners := b.positioners, zeros := b.zeros, governors := b.governors
    supervisors := b.supervisors }
  others : a.othersKept b u
  history : (b.supervisor u).history = if code = .repeatedRelief then [] else (a.supervisor u).history
  reliefLatch : (b.supervisor u).reliefLatch =
    if code = .repeatedRelief then (a.supervisor u).reliefLatch.taken ((a.supervisor u).causeActive .repeatedRelief)
    else (a.supervisor u).reliefLatch
  powerLatch : (b.supervisor u).powerLatch =
    if code = .powerTrip then (a.supervisor u).powerLatch.taken ((a.supervisor u).causeActive .powerTrip)
    else (a.supervisor u).powerLatch
  relief : (b.supervisor u).relief = (a.supervisor u).relief
  tripCause : (b.supervisor u).tripCause = (a.supervisor u).tripCause
  trip : (b.governor u).holds.trip =
    if code = .repeatedRelief ∨ code = .powerTrip then !(b.supervisor u).untripped else (a.governor u).holds.trip
  rejected : (b.zero u).rejected = if code = .zeroRejected then false else (a.zero u).rejected
  aborted : (b.zero u).aborted = if code = .zeroAborted then false else (a.zero u).aborted
  fault : if code = .moveTimeout then (b.positioner u).state ≠ .fault else b.positioner u = a.positioner u

/-- A record whose latch takes an acknowledgement, with the relief history emptied for REPEATED_RELIEF (R143). -/
def Supervisor.acknowledges (which : TripLatch) (v : Supervisor) : Supervisor :=
  let taken := v.putLatch which ((v.latch which).taken (v.causeActive which))
  match which with
  | .repeatedRelief => { taken with history := [] }
  | .powerTrip => taken

theorem State.ackLatch_eq (s : State) (u : Train) (which : TripLatch) :
    s.ackLatch u which = (s.modSupervisor u (Supervisor.acknowledges which)).judgeTrip u := by
  have hset {α : Type} (q : Quad α) (x y : α) : (q.set u x).set u y = q.set u y := by cases u <;> rfl
  have hput := (s.supervisor u).putLatch_latch which
  have hmod (f h : Supervisor → Supervisor) (hf : f (s.supervisor u) = h (s.supervisor u)) :
      s.modSupervisor u f = s.modSupervisor u h := by
    rw [State.modSupervisor, hf]
    rfl
  cases which with
  | repeatedRelief =>
    have htwice (f : Supervisor → Supervisor) : ((s.modSupervisor u f).modSupervisor u fun v => { v with history := [] }) =
        s.modSupervisor u fun v => { f v with history := [] } := by
      simp only [State.modSupervisor, State.supervisor, Quad.get_set_self, hset]
    refine congrArg (State.judgeTrip · u) ((htwice _).trans (hmod _ _ ?_))
    simp only [Supervisor.acknowledges]
    cases h : (s.supervisor u).latch .repeatedRelief <;> rw [h] at hput <;> simp [Latch.taken, hput]
  | powerTrip =>
    refine congrArg (State.judgeTrip · u) (hmod _ _ ?_)
    simp only [Supervisor.acknowledges]
    cases h : (s.supervisor u).latch .powerTrip <;> rw [h] at hput <;> simp [Latch.taken, hput]

theorem State.ackLatch_takes (s : State) (u : Train) {which : TripLatch} (hcode : code = which.code) :
    OwnerTakes u code s (s.ackLatch u which) := by
  have hrest := (s.modSupervisor u (Supervisor.acknowledges which)).judgeTrip_rest u
  have htrip := (s.modSupervisor u (Supervisor.acknowledges which)).judgeTrip_trip u
  have hothers (v : Train) (hv : v ≠ u) := State.judgeTrip_others (s.modSupervisor u (Supervisor.acknowledges which)) hv
  have hsupervisor := s.supervisor_modSupervisor u (Supervisor.acknowledges which)
  have hkept := s.othersKept_modSupervisor u (Supervisor.acknowledges which)
  rw [State.ackLatch_eq]
  generalize hw : s.modSupervisor u (Supervisor.acknowledges which) = w at *
  have hwrest : w = { s with supervisors := w.supervisors } := by rw [← hw]; rfl
  have hsup : (w.judgeTrip u).supervisor u = (s.supervisor u).acknowledges which := by
    rw [hrest]
    exact hsupervisor
  refine ⟨?_, fun v hv => ?_, ?_, ?_, ?_, ?_, ?_, ?_, ?_, ?_, ?_⟩
  · rw [hrest, hwrest]
  · obtain ⟨h1, h2, h3, h4, h5, h6, h7⟩ := hkept v hv
    have hgovernor := (hothers v hv).trans h6
    generalize w.judgeTrip u = x at *
    rw [hrest]
    exact ⟨h1, h2, h3, h4, h5, hgovernor, h7⟩
  · rw [hsup, hcode]
    cases which <;> rfl
  · rw [hsup, hcode]
    cases which <;> rfl
  · rw [hsup, hcode]
    cases which <;> rfl
  · rw [hsup]
    cases which <;> rfl
  · rw [hsup]
    cases which <;> rfl
  · have hsame : (w.judgeTrip u).supervisor u = w.supervisor u := by rw [hrest]; rfl
    rw [htrip, hsame, hcode]
    cases which <;> rfl
  · rw [hrest, hwrest, hcode]
    cases which <;> rfl
  · rw [hrest, hwrest, hcode]
    cases which <;> rfl
  · rw [hrest, hwrest, hcode]
    cases which <;> rfl

theorem State.clearFault_takes (hrelief : (s.positioner u).state ≠ .fault ∨ (s.supervisor u).relief ≠ .restoring) :
    OwnerTakes u .moveTimeout s (s.clearFault u) := by
  have hmoves := (Moves.refl s).clearFault (t := u)
  have hsame : (s.positioner u).state ≠ .fault → s.clearFault u = s := fun h => if_neg h
  have hfault : ((s.clearFault u).positioner u).state ≠ .fault := by
    by_cases h : (s.positioner u).state = .fault
    · exact State.clearFault_unfaulted h
    · rw [hsame h]
      exact h
  have hepisode : ((s.clearFault u).supervisor u).relief = (s.supervisor u).relief ∧
      (s.clearFault u).conditions = s.conditions := by
    rcases hmoves.episode with ⟨hr, -, hc⟩ | ⟨hr, -⟩
    · exact ⟨hr, hc⟩
    · rw [hsame (hrelief.resolve_right (not_not.mpr hr))]
      exact ⟨rfl, rfl⟩
  have hrest := hmoves.rest
  have hsupervisor := hmoves.supervisor
  have htrip := hmoves.holds .trip (by decide) (by decide)
  have hwork := hmoves.workOf
  generalize s.clearFault u = b at *
  obtain ⟨hr, hc⟩ := hepisode
  rw [hr] at hsupervisor
  obtain ⟨-, -, -, -, -, -, -, -, -, hothers⟩ := hwork
  rw [hc] at hrest
  have hzero : b.zero u = s.zero u := congrArg (Quad.get · u) (show b.zeros = s.zeros by rw [hrest])
  refine ⟨?_, hothers, ?_, ?_, ?_, hr, ?_, htrip, ?_, ?_, hfault⟩
  · rw [hrest]
  · rw [hsupervisor]; rfl
  · rw [hsupervisor]; rfl
  · rw [hsupervisor]; rfl
  · rw [hsupervisor]
  · rw [hzero]; rfl
  · rw [hzero]; rfl

theorem State.ackOwner_takes (hrelief : code = .moveTimeout →
    (s.positioner u).state ≠ .fault ∨ (s.supervisor u).relief ≠ .restoring) :
    OwnerTakes u code s (s.ackOwner code u) := by
  have hzero (f : ZeroRecord → ZeroRecord) := s.zero_modZero u f
  cases code with
  | repeatedRelief => exact s.ackLatch_takes u (which := .repeatedRelief) rfl
  | powerTrip => exact s.ackLatch_takes u (which := .powerTrip) rfl
  | moveTimeout => exact State.clearFault_takes (hrelief rfl)
  | zeroRejected =>
    refine ⟨rfl, s.othersKept_modZero u _, rfl, rfl, rfl, rfl, rfl, rfl, ?_, ?_, rfl⟩
    · exact (congrArg ZeroRecord.rejected (hzero fun z => { z with rejected := false }) :)
    · exact (congrArg ZeroRecord.aborted (hzero fun z => { z with rejected := false }) :)
  | zeroAborted =>
    refine ⟨rfl, s.othersKept_modZero u _, rfl, rfl, rfl, rfl, rfl, rfl, ?_, ?_, rfl⟩
    · exact (congrArg ZeroRecord.rejected (hzero fun z => { z with aborted := false }) :)
    · exact (congrArg ZeroRecord.aborted (hzero fun z => { z with aborted := false }) :)
  | _ => exact ⟨rfl, State.othersKept.refl s u, rfl, rfl, rfl, rfl, rfl, rfl, rfl, rfl, rfl⟩

end Sys2Proof.Machine
end

section
/-! PROOFS. ACKNOWLEDGE and ACKNOWLEDGE ALL (R154, R155). -/

namespace Sys2Proof.Machine

variable {a b s t : State} {u : Train} {code : Code} {sub : Subject} {l : Link} {tag : Byte} {d : ConditionList}
  {before after : List Entry} {e : Entry}

/-! ### The entry of an acknowledgement (R154 steps 1 and 3) -/

/-- The List after an acknowledgement whose owner leaves it alone. -/
def ConditionList.acknowledgedOf (d : ConditionList) (code : Code) (sub : Subject) : ConditionList :=
  (d.acknowledged code sub).withoutAnswered code sub

theorem ConditionList.lawful.acknowledgedOf (h : d.lawful) (code : Code) (sub : Subject) :
    (d.acknowledgedOf code sub).lawful := (h.acknowledge_where (Entry.named code sub)).without _

theorem ConditionList.lawful.acknowledgedOf_unlisted (h : d.lawful) (hno : d.listed code sub = false) :
    d.acknowledgedOf code sub = d := by
  have hunnamed : ∀ e ∈ d.entries, e.named code sub = false := ConditionList.listed_eq_false_iff.mp hno
  have hsame : d.acknowledged code sub = d := by
    rw [ConditionList.acknowledged, map_named_of_unnamed _ hunnamed]
  rw [ConditionList.acknowledgedOf, hsame]
  exact h.without_eq_self (filter_named_of_unnamed _ hunnamed)

theorem ConditionList.lawful.entries_acknowledgedOf (h : d.lawful) (hd : d.entries = before ++ e :: after) :
    (d.acknowledgedOf e.code e.subject).entries =
      if e.code.latched && !e.active then before ++ after else before ++ { e with acknowledged := true } :: after := by
  have hnodup := h.nodup_names
  rw [hd] at hnodup
  have hmapped := map_named_of_nodup hnodup fun x => { x with acknowledged := true }
  have hnodup' : ((before ++ { e with acknowledged := true } :: after).map Entry.name).Nodup := by
    rw [List.map_append, List.map_cons] at hnodup ⊢
    exact hnodup
  have hanswered : ({ e with acknowledged := true } : Entry).answered = (e.code.latched && !e.active) := by
    rw [Entry.answered, Bool.and_true]
  show ((d.entries.map fun x => if x.named e.code e.subject then { x with acknowledged := true } else x).filter
    fun x => !(x.named e.code e.subject && x.answered)) = _
  rw [hd, hmapped, ← hanswered]
  exact filter_named_of_nodup hnodup' Entry.answered

/-- Whether the entry is left after its acknowledgement. -/
theorem ConditionList.lawful.listed_acknowledgedOf (h : d.lawful) (hd : d.entries = before ++ e :: after) :
    (d.acknowledgedOf e.code e.subject).listed e.code e.subject = !(e.code.latched && !e.active) := by
  have hnodup := h.nodup_names
  rw [hd] at hnodup
  rw [ConditionList.listed, h.entries_acknowledgedOf hd]
  cases e.code.latched && !e.active
  · exact List.any_eq_true.mpr ⟨{ e with acknowledged := true }, by simp, Entry.named_iff.mpr rfl⟩
  · exact List.any_eq_false.mpr fun x hx => by simp [named_eq_false_of_nodup hnodup x hx]

/-! ### A subject byte names its subject (R178) -/

/-- The kind of a subject. -/
def Subject.kind : Subject → SubjectKind
  | .line => .none
  | .crusher _ => .crusher
  | .link _ => .link
  | .storeSection _ => .storeSection

/-- The subject byte of a subject, as it is read. -/
def Subject.field : Subject → SubjectField
  | .line => .none
  | .crusher u => .station (crusherOf u).number
  | .link l => .link l
  | .storeSection sec => .storeSection sec

theorem Subject.ofByte_code (sub : Subject) :
    (byteOf sub.code).toNat = sub.code ∧ subjectDefined (byteOf sub.code) = true ∧
      SubjectField.ofByte (byteOf sub.code) = sub.field := by
  rcases sub with _ | u | l | sec
  · exact ⟨rfl, rfl, rfl⟩
  · cases u <;> exact ⟨rfl, rfl, rfl⟩
  · cases l <;> exact ⟨rfl, rfl, rfl⟩
  · cases sec <;> exact ⟨rfl, rfl, rfl⟩

theorem acknowledgedSubject_of {field : Byte} (hfield : field.toNat = sub.code) (hkind : code.subjectKind = sub.kind) :
    subjectDefined field = true ∧ acknowledgedSubject code (SubjectField.ofByte field) = .ok sub := by
  obtain ⟨hcode, hdef, hread⟩ := sub.ofByte_code
  obtain rfl : field = byteOf sub.code := BitVec.eq_of_toNat_eq (hfield.trans hcode.symm)
  refine ⟨hdef, ?_⟩
  rw [hread]
  unfold acknowledgedSubject
  rw [hkind]
  cases sub with
  | crusher u =>
    simp only [Subject.field, Subject.kind, ofNumber_number]
    rfl
  | _ => rfl

/-! ### ACKNOWLEDGE (R154) -/

theorem State.acknowledge_takes (hrelief : code = .moveTimeout →
      (s.positioner u).state ≠ .fault ∨ (s.supervisor u).relief ≠ .restoring) :
    OwnerTakes u code (s.modConditions fun d => d.acknowledgedOf code (.crusher u)) (s.acknowledge code (.crusher u)) := by
  obtain ⟨h1, h2, h3, h4, h5, h6, h7, h8, h9, h10, h11⟩ :=
    State.ackOwner_takes (s := s.modConditions fun d => d.acknowledged code (.crusher u)) (code := code) (u := u) hrelief
  have hacknowledge : s.acknowledge code (.crusher u) =
      ((s.modConditions fun d => d.acknowledged code (.crusher u)).ackOwner code u).modConditions fun d =>
        d.withoutAnswered code (.crusher u) := rfl
  rw [hacknowledge]
  generalize (s.modConditions fun d => d.acknowledged code (.crusher u)).ackOwner code u = b at *
  exact ⟨by rw [h1]; rfl, h2, h3, h4, h5, h6, h7, h8, h9, h10, h11⟩

/-- ACKNOWLEDGE leaves the links, and of the List what its two steps make of it. -/
theorem State.acknowledge_list (hrelief : ∀ u, sub = .crusher u → code = .moveTimeout →
      (s.positioner u).state ≠ .fault ∨ (s.supervisor u).relief ≠ .restoring) :
    (s.acknowledge code sub).conditions = s.conditions.acknowledgedOf code sub ∧ (s.acknowledge code sub).links = s.links := by
  cases sub with
  | crusher u =>
    have hrest := (State.acknowledge_takes (hrelief u rfl)).rest
    exact ⟨(congrArg State.conditions hrest :), (congrArg State.links hrest :)⟩
  | _ => exact ⟨rfl, rfl⟩

theorem State.acknowledge_unlatched (h : code.latched = false) :
    s.acknowledge code sub = s.modConditions fun d => d.acknowledgedOf code sub := by
  have hsubject (a : State) : a.ackSubject code sub = a := by
    cases sub with
    | crusher u => cases code <;> first | rfl | contradiction
    | _ => rfl
  rw [State.acknowledge, hsubject]
  rfl

/-- Settles O57: the entry by its place in the List, the owner by what its latch takes. -/
theorem acknowledgeActsOnEntryAndLatch : Obligations.AcknowledgeActsOnEntryAndLatch := by
  intro l tag b field code sub s hs hl hb hfield hlaw hmatch hrelief taken
  have hkind : code.subjectKind = sub.kind := by
    revert hmatch
    cases code.subjectKind <;> cases sub <;> intro hmatch <;> first | rfl | exact hmatch.elim
  obtain ⟨hdef, hsub⟩ := acknowledgedSubject_of hfield hkind
  have hexec := exec_acknowledge_owned (tag := tag) hs hl hb hdef hsub
  obtain ⟨hconditions, hlinks⟩ := State.acknowledge_list (s := s.replyBegins l) hrelief
  rw [show (s.replyBegins l).conditions = s.conditions from rfl] at hconditions
  have hbyte (x : Bool) : f1 (boolCode x) = [if x then 1#8 else 0#8] := by cases x <;> rfl
  have hlisted (h : s.conditions.listed code sub = true) :
      ∃ e before after, s.conditions.entries = before ++ e :: after ∧ e.code = code ∧ e.subject = sub := by
    obtain ⟨e, he, hname⟩ := List.any_eq_true.mp h
    obtain ⟨before, after, hsplit⟩ := List.append_of_mem he
    obtain ⟨hc, hsubj⟩ := Prod.mk.inj (Entry.named_iff.mp hname)
    exact ⟨e, before, after, hsplit, hc, hsubj⟩
  rw [hbyte, hbyte, hconditions] at hexec
  refine ⟨_, s.conditions.listed code sub,
    s.conditions.listed code sub && !(s.conditions.acknowledgedOf code sub).listed code sub, hexec, ?_, ?_, fun hno => ?_, ?_, ?_,
    fun before e after hd hcode hsubject => ?_, fun hlatched => ?_, fun u hu => ?_⟩
  · exact Decision.repliedBy (k := .acknowledge) hlinks
  · rw [ConditionList.listed, List.any_eq_true]
    simp only [Entry.named, Bool.and_eq_true, decide_eq_true_eq]
  · rw [hno]
    exact ⟨rfl, hconditions.trans (hlaw.acknowledgedOf_unlisted hno)⟩
  · exact hconditions ▸ hlaw.acknowledgedOf code sub
  · exact (congrArg ConditionList.overflow hconditions :)
  · subst hcode hsubject
    have hfound : s.conditions.listed e.code e.subject = true :=
      List.any_eq_true.mpr ⟨e, by simp [hd], Entry.named_iff.mpr rfl⟩
    rw [hfound, hlaw.listed_acknowledgedOf hd, Bool.true_and, Bool.not_not]
    refine ⟨by simp, (congrArg ConditionList.entries hconditions).trans ((hlaw.entries_acknowledgedOf hd).trans ?_)⟩
    split <;> simp
  · rw [State.acknowledge_unlatched hlatched]
    rfl
  · subst hu
    have htakes := State.acknowledge_takes (s := s.replyBegins l) (hrelief u rfl)
    generalize (s.replyBegins l).acknowledge code (.crusher u) = b at *
    obtain ⟨h1, h2, h3, h4, h5, h6, h7, h8, h9, h10, h11⟩ := htakes
    refine ⟨State.workOf_of_othersKept h2 (by rw [h1]; rfl), h3, h4, h5, fun htrip => ?_, h9, h10, fun hfault _ => ?_⟩
    · show (b.governor u).holds.trip = false ↔ (b.supervisor u).reliefLatch = .clear ∧ (b.supervisor u).powerLatch = .clear
      rw [h8, if_pos htrip]
      simp [Supervisor.untripped]
    · rw [if_pos hfault] at h11
      exact h11

/-! ### ACKNOWLEDGE ALL (R155) -/

/-- What ACKNOWLEDGE ALL does with the owners of one crusher's latches. -/
structure CrusherTaken (u : Train) (a b : State) : Prop where
  history : (b.supervisor u).history = []
  reliefLatch : (b.supervisor u).reliefLatch = (a.supervisor u).reliefLatch.taken ((a.supervisor u).causeActive .repeatedRelief)
  powerLatch : (b.supervisor u).powerLatch = (a.supervisor u).powerLatch.taken ((a.supervisor u).causeActive .powerTrip)
  trip : (b.governor u).holds.trip = !(b.supervisor u).untripped
  rejected : (b.zero u).rejected = false
  aborted : (b.zero u).aborted = false
  fault : (b.positioner u).state ≠ .fault

/-- No crusher in FAULT is RESTORING. -/
def State.faultsApart (s : State) : Prop := ∀ u, (s.positioner u).state ≠ .fault ∨ (s.supervisor u).relief ≠ .restoring

theorem State.ackCrusher_takes (hrelief : s.faultsApart) (u : Train) :
    CrusherTaken u s (s.ackCrusher u) ∧ s.othersKept (s.ackCrusher u) u ∧ (s.ackCrusher u).faultsApart ∧
      s.ackCrusher u = { s with
        crushers := (s.ackCrusher u).crushers, board := (s.ackCrusher u).board, positioners := (s.ackCrusher u).positioners
        zeros := (s.ackCrusher u).zeros, governors := (s.ackCrusher u).governors
        supervisors := (s.ackCrusher u).supervisors } := by
  obtain ⟨r1, o1, hi1, re1, po1, rl1, tc1, tr1, rj1, ab1, fa1⟩ :=
    State.ackOwner_takes (s := s) (code := .repeatedRelief) (u := u) (by simp)
  obtain ⟨r2, o2, hi2, re2, po2, rl2, tc2, tr2, rj2, ab2, fa2⟩ :=
    State.ackOwner_takes (s := s.ackOwner .repeatedRelief u) (code := .powerTrip) (u := u) (by simp)
  have hfault : (((s.ackOwner .repeatedRelief u).ackOwner .powerTrip u).positioner u).state ≠ .fault ∨
      (((s.ackOwner .repeatedRelief u).ackOwner .powerTrip u).supervisor u).relief ≠ .restoring := by
    rw [show _ = s.positioner u from fa2.trans fa1, rl2.trans rl1]
    exact hrelief u
  obtain ⟨r3, o3, hi3, re3, po3, rl3, tc3, tr3, rj3, ab3, fa3⟩ := State.ackOwner_takes (code := .moveTimeout) fun _ => hfault
  obtain ⟨r4, o4, hi4, re4, po4, rl4, tc4, tr4, rj4, ab4, fa4⟩ :=
    State.ackOwner_takes (s := ((s.ackOwner .repeatedRelief u).ackOwner .powerTrip u).ackOwner .moveTimeout u)
      (code := .zeroRejected) (u := u) (by simp)
  obtain ⟨r5, o5, hi5, re5, po5, rl5, tc5, tr5, rj5, ab5, fa5⟩ :=
    State.ackOwner_takes (s := (((s.ackOwner .repeatedRelief u).ackOwner .powerTrip u).ackOwner .moveTimeout u).ackOwner
      .zeroRejected u) (code := .zeroAborted) (u := u) (by simp)
  have hack : s.ackCrusher u = ((((s.ackOwner .repeatedRelief u).ackOwner .powerTrip u).ackOwner .moveTimeout u).ackOwner
      .zeroRejected u).ackOwner .zeroAborted u := rfl
  rw [hack]
  generalize s.ackOwner .repeatedRelief u = b1 at *
  generalize b1.ackOwner .powerTrip u = b2 at *
  generalize b2.ackOwner .moveTimeout u = b3 at *
  generalize b3.ackOwner .zeroRejected u = b4 at *
  generalize b4.ackOwner .zeroAborted u = b5 at *
  have hothers := (((o1.trans o2).trans o3).trans o4).trans o5
  have hreliefs : (b5.supervisor u).reliefLatch = (b2.supervisor u).reliefLatch := re5.trans (re4.trans re3)
  have hpowers : (b5.supervisor u).powerLatch = (b2.supervisor u).powerLatch := po5.trans (po4.trans po3)
  have hunfaulted : (b5.positioner u).state ≠ .fault := by
    rw [show b5.positioner u = b3.positioner u from fa5.trans fa4]
    exact fa3
  refine ⟨⟨?_, ?_, ?_, ?_, ?_, ?_, hunfaulted⟩, hothers, fun v => ?_, by rw [r5, r4, r3, r2, r1]⟩
  · exact hi5.trans (hi4.trans (hi3.trans (hi2.trans hi1)))
  · exact hreliefs.trans (re2.trans re1)
  · exact hpowers.trans (po2.trans (congrArg₂ Latch.taken po1 tc1))
  · refine (tr5.trans (tr4.trans (tr3.trans tr2))).trans ?_
    simp [Supervisor.untripped, hreliefs, hpowers]
  · exact rj5.trans rj4
  · exact ab5
  · by_cases hv : v = u
    · subst hv
      exact .inl hunfaulted
    · obtain ⟨-, -, -, hpositioner, -, -, hsupervisor⟩ := hothers v hv
      rw [hpositioner, hsupervisor]
      exact hrelief v

/-- What one train's records are, for the acknowledgement of another's. -/
structure LatchesKept (u : Train) (a b : State) : Prop where
  positioner : b.positioner u = a.positioner u
  zero : b.zero u = a.zero u
  governor : b.governor u = a.governor u
  supervisor : b.supervisor u = a.supervisor u

/-- Every crusher's latches take the acknowledgement, and the List is left alone. -/
theorem State.forTrains_ackCrusher (hrelief : s.faultsApart) (u : Train) :
    CrusherTaken u s (s.forTrains State.ackCrusher) := by
  obtain ⟨w, hw, ⟨hp, hz, hg, hv⟩, ⟨kp, kz, kg, kv⟩⟩ := State.forTrains_through (f := State.ackCrusher)
    (P := State.faultsApart) (R := LatchesKept u) s u (fun _ => ⟨rfl, rfl, rfl, rfl⟩)
    (fun h k => ⟨k.positioner.trans h.positioner, k.zero.trans h.zero, k.governor.trans h.governor,
      k.supervisor.trans h.supervisor⟩) hrelief
    (fun v a ha => (State.ackCrusher_takes ha v).2.2.1) fun v a ha hne => by
      obtain ⟨-, hothers, -⟩ := State.ackCrusher_takes ha v
      obtain ⟨-, -, -, h4, h5, h6, h7⟩ := hothers u (Ne.symm hne)
      exact ⟨h4, h5, h6, h7⟩
  obtain ⟨h1, h2, h3, h4, h5, h6, h7⟩ := (State.ackCrusher_takes hw u).1
  rw [hv] at h2 h3
  refine ⟨?_, ?_, ?_, ?_, ?_, ?_, ?_⟩
  · rw [kv]; exact h1
  · rw [kv]; exact h2
  · rw [kv]; exact h3
  · rw [kv, kg]; exact h4
  · rw [kz]; exact h5
  · rw [kz]; exact h6
  · rw [kp]; exact h7

theorem State.forTrains_ackCrusher_rest (hrelief : s.faultsApart) :
    s.forTrains State.ackCrusher = { s with
      crushers := (s.forTrains State.ackCrusher).crushers, board := (s.forTrains State.ackCrusher).board
      positioners := (s.forTrains State.ackCrusher).positioners, zeros := (s.forTrains State.ackCrusher).zeros
      governors := (s.forTrains State.ackCrusher).governors, supervisors := (s.forTrains State.ackCrusher).supervisors } := by
  obtain ⟨-, -, h0, r0⟩ := State.ackCrusher_takes hrelief .t0
  obtain ⟨-, -, h1, r1⟩ := State.ackCrusher_takes h0 .t1
  obtain ⟨-, -, h2, r2⟩ := State.ackCrusher_takes h1 .t2
  obtain ⟨-, -, -, r3⟩ := State.ackCrusher_takes h2 .t3
  rw [State.forTrains_eq]
  rw [r3, r2, r1, r0]

theorem ConditionList.entries_allAnswered (d : ConditionList) :
    d.allAcknowledged.allAnswered.entries =
      (d.entries.filter fun e => !(e.code.latched && !e.active)).map fun e => { e with acknowledged := true } := by
  show ((d.entries.map fun e => { e with acknowledged := true }).filter fun e => !(e.code.latched && !e.active)) = _
  rw [List.filter_map]
  rfl

theorem ConditionList.length_allAnswered (d : ConditionList) :
    d.allAcknowledged.entries.length - d.allAcknowledged.allAnswered.entries.length =
      d.entries.countP fun e => e.code.latched && !e.active := by
  have hsplit := List.length_eq_countP_add_countP (l := d.entries) fun e => e.code.latched && !e.active
  have hall : d.allAcknowledged.entries.length = d.entries.length := List.length_map ..
  have hleft : d.allAcknowledged.allAnswered.entries.length =
      d.entries.countP fun e => !(e.code.latched && !e.active) := by
    rw [ConditionList.entries_allAnswered, List.length_map, List.countP_eq_length_filter]
  have hsame : (d.entries.countP fun e => decide ¬(e.code.latched && !e.active) = true) =
      d.entries.countP fun e => !(e.code.latched && !e.active) := List.countP_congr fun e _ => by simp
  omega

theorem exec_acknowledgeAll_owned (hs : s.takesOn l) (hl : l ≠ .lc) (hrelief : s.faultsApart)
    (hb : ((s.replyBegins l).modConditions ConditionList.allAcknowledged).forTrains State.ackCrusher = b) :
    exec (.acknowledgeAll l tag) s =
      .next (((b.modConditions ConditionList.allAnswered).done
        [byteOf (s.conditions.entries.countP fun e => e.code.latched && !e.active)]).reply l tag Kind.acknowledgeAll.code) := by
  have hallowed : Kind.acknowledgeAll.allowed l = true := by cases l <;> first | rfl | contradiction
  have hrest := State.forTrains_ackCrusher_rest
    (s := (s.replyBegins l).modConditions ConditionList.allAcknowledged) hrelief
  have howners : (s.replyBegins l).acknowledgeOwners = b := hb
  rw [hb] at hrest
  have hconditions : b.conditions = s.conditions.allAcknowledged := (congrArg State.conditions hrest :)
  have hown : (s.replyBegins l).ownAcknowledgeAll = (b.modConditions ConditionList.allAnswered).done
      (f1 (b.conditions.entries.length - b.conditions.allAnswered.entries.length)) := by
    rw [State.ownAcknowledgeAll, howners]
    rfl
  rw [exec_acknowledgeAll, State.whenPowered_powered hs.1.1, State.takeAcknowledgeAll, State.takeRequest_owned hs hallowed,
    hown, hconditions, ConditionList.length_allAnswered]
  rfl

/-- Settles O58: every entry and every latch acknowledged, the answered entries removed and counted. -/
theorem acknowledgeAllActsOnEveryLatch : Obligations.AcknowledgeAllActsOnEveryLatch := by
  intro l tag s hs hl hlaw hrelief taken gone
  have hrest := State.forTrains_ackCrusher_rest
    (s := (s.replyBegins l).modConditions ConditionList.allAcknowledged) hrelief
  have htrains := State.forTrains_ackCrusher
    (s := (s.replyBegins l).modConditions ConditionList.allAcknowledged) hrelief
  have hexec := exec_acknowledgeAll_owned (tag := tag) hs hl hrelief rfl
  generalize ((s.replyBegins l).modConditions ConditionList.allAcknowledged).forTrains State.ackCrusher = b at *
  have hconditions : b.conditions = s.conditions.allAcknowledged := (congrArg State.conditions hrest :)
  have hlinks : b.links = (s.replyBegins l).links := (congrArg State.links hrest :)
  have hlawful : s.conditions.allAcknowledged.allAnswered.lawful :=
    ConditionStep.allAnswered.keeps_lawful (ConditionStep.allAcknowledged.keeps_lawful hlaw)
  refine ⟨_, hexec, Decision.repliedBy (k := .acknowledgeAll) hlinks, ?_, rfl, ?_, (congrArg State.time hrest :),
    (congrArg State.store hrest :), (congrArg State.inputs hrest :), (congrArg State.gaps hrest :), fun u => ?_⟩
  · show b.conditions.allAnswered.lawful
    rw [hconditions]
    exact hlawful
  · show b.conditions.allAnswered.entries = _
    rw [hconditions]
    exact ConditionList.entries_allAnswered _
  · obtain ⟨h1, h2, h3, h4, h5, h6, h7⟩ := htrains u
    refine ⟨h1, h2, h3, ?_, h5, h6, fun _ => h7⟩
    show (b.governor u).holds.trip = false ↔ (b.supervisor u).reliefLatch = .clear ∧ (b.supervisor u).powerLatch = .clear
    rw [h4]
    simp [Supervisor.untripped]

end Sys2Proof.Machine
end

section
/-! PROOFS. SET PARAMETER taken (R18, R19), and the outputs (R70, R119, R157). -/

namespace Sys2Proof.Machine

variable {s t : State} {u : Train} {tag b number : Byte} {set : ParamSet} {p : Param} {cls : ConditionClass}

/-! ### SET PARAMETER (R18) -/

/-- A SET PARAMETER that passes its checks stores the value of R19 and answers with it. -/
theorem exec_setParameter_taken {value : Half} {v : Nat} (hs : s.takesOn .sv) (hset : ParamSet.ofByte b = some set)
    (hp : set.param number.toNat = some p) (hdefined : p.range.defined value.toNat = true) (hmode : s.paramModeOk p = true)
    (hbusy : s.paramBusy p value.toNat = false) (hv : storedValue p.range (s.paramBounds p) value.toNat = v) :
    exec (.setParameter .sv tag b number value) s =
      .next ((⟨(s.replyBegins .sv).storeParam p v,
        ⟨.done, { ReplyFlags.none with clamped := v ≠ value.toNat }, f2 v⟩⟩ : Decision).reply .sv tag Kind.setParameter.code) := by
  subst hv
  have hown : (s.replyBegins .sv).ownSetParameter b number value =
      ⟨(s.replyBegins .sv).storeParam p (storedValue p.range (s.paramBounds p) value.toNat),
        ⟨.done, { ReplyFlags.none with clamped := storedValue p.range (s.paramBounds p) value.toNat ≠ value.toNat },
          f2 (storedValue p.range (s.paramBounds p) value.toNat)⟩⟩ := by
    have hmode' : (s.replyBegins .sv).paramModeOk p = true := by
      cases p <;> exact hmode
    have hbusy' : (s.replyBegins .sv).paramBusy p value.toNat = false := by
      cases p <;> exact hbusy
    have hbounds : (s.replyBegins .sv).paramBounds p = s.paramBounds p := by cases p <;> rfl
    rw [State.ownSetParameter, State.withParam_param hset hp, State.writeParam, if_neg (by simp [hdefined]),
      if_neg (by simp [hmode']), if_neg (by simp [hbusy']), hbounds]
  rw [exec_setParameter, State.whenPowered_powered hs.1.1, State.takeSetParameter, State.takeRequest_owned hs rfl, hown]

/-! ### Beacons (R157) -/

theorem ConditionList.beacon_iff (d : ConditionList) (cls : ConditionClass) :
    (d.beacon cls = .flashing ↔ ∃ e ∈ d.entries, e.code.cls = cls ∧ e.acknowledged = false) ∧
      (d.beacon cls = .steady ↔ (∃ e ∈ d.entries, e.code.cls = cls) ∧
        ∀ e ∈ d.entries, e.code.cls = cls → e.acknowledged = true) ∧
      (d.beacon cls = .off ↔ ∀ e ∈ d.entries, e.code.cls ≠ cls) := by
  have hflash : (d.entries.any fun e => e.code.cls = cls && !e.acknowledged) = true ↔
      ∃ e ∈ d.entries, e.code.cls = cls ∧ e.acknowledged = false := by simp
  have hlisted : (d.entries.any fun e => e.code.cls = cls) = true ↔ ∃ e ∈ d.entries, e.code.cls = cls := by simp
  have hsteady : (∀ e ∈ d.entries, e.code.cls = cls → e.acknowledged = true) ↔
      ¬∃ e ∈ d.entries, e.code.cls = cls ∧ e.acknowledged = false := by simp
  have hoff : (∀ e ∈ d.entries, e.code.cls ≠ cls) ↔ ¬∃ e ∈ d.entries, e.code.cls = cls := by simp
  have himplies : (∃ e ∈ d.entries, e.code.cls = cls ∧ e.acknowledged = false) → ∃ e ∈ d.entries, e.code.cls = cls :=
    fun ⟨e, he, hc, _⟩ => ⟨e, he, hc⟩
  rw [hsteady, hoff, ← hflash, ← hlisted]
  rw [← hflash, ← hlisted] at himplies
  unfold ConditionList.beacon
  split
  · next h => simp [h, himplies h]
  · next h =>
    split
    · next h' => simp [h, h']
    · next h' => simp [h, h']

/-! ### Valve and rate outputs (R70, R119) -/

/-- A duty as an output shows it through a polarity. -/
theorem State.valveOutput_eq (hs : s.powered = true) (d : Direction) :
    s.valveOutput u d = ((s.crusher u).polarity d).energized ((s.positioner u).outputDuty d) := if_pos hs

theorem Positioner.outputDuty_on {q : Positioner} {e : Drive} (h : q.drive = some e) (d : Direction) :
    q.outputDuty d = if e.direction = d then q.valve.duty else 0 := by
  simp only [Positioner.outputDuty, h]

theorem Positioner.outputDuty_off {q : Positioner} (h : q.drive = none) (d : Direction) : q.outputDuty d = 0 := by
  simp only [Positioner.outputDuty, h]

theorem Polarity.ofCode_code (v : Polarity) : Polarity.ofCode v.code = v := by cases v <;> rfl

theorem Polarity.code_lt (v : Polarity) : v.code < 2 := by cases v <;> decide

theorem Polarity.toNat_code (v : Polarity) : (BitVec.ofNat 16 v.code : Half).toNat = v.code := by cases v <;> rfl

/-- A polarity written is in use at once, and moves nothing. -/
theorem exec_setPolarity {n : CrusherParam} {v : Polarity} (hs : s.takesOn .sv) (hmode : (s.station (crusherOf u)).mode ≠ .run)
    (hsub : s.isSubject u = false) (hnumber : CrusherParam.ofNumber number.toNat = some n)
    (hrange : n.range = .named 2) (hstore : ∀ (a : State) (w : Nat), a.storeCrusher u n w = a.withCrusher u ((a.crusher u).put n w)) :
    ∃ t, exec (.setParameter .sv tag (byteOf (crusherOf u).number) number (BitVec.ofNat 16 v.code)) s = .next t ∧
      t.positioners = s.positioners ∧ t.powered = s.powered ∧ t.crusher u = (s.crusher u).put n v.code := by
  have hb : (byteOf (crusherOf u).number).toNat = (crusherOf u).number := by cases u <;> rfl
  have hexec := exec_setParameter_taken (s := s) (tag := tag) (p := .crusher u n) (value := BitVec.ofNat 16 v.code) (v := v.code) hs
    (ParamSet.ofByte_station hb) (congrArg (Option.map (Param.crusher u)) hnumber)
    (by rw [Param.range, hrange, v.toNat_code]; exact decide_eq_true v.code_lt)
    (by simp [State.paramModeOk, State.inRun, hmode]) hsub (by rw [Param.range, hrange, v.toNat_code]; rfl)
  rw [State.storeParam, hstore] at hexec
  exact ⟨_, hexec, rfl, rfl, Quad.get_set_self ..⟩

/-- Settles O22: the beacons by their List, the outputs by their drives and polarities. -/
theorem outputsFollowTheirBlocks : Obligations.OutputsFollowTheirBlocks := by
  refine ⟨fun s cls => ?_, ?_⟩
  · obtain ⟨hflash, hsteady, hoff⟩ := s.conditions.beacon_iff cls
    refine ⟨hflash, hsteady, hoff, ?_⟩
    unfold State.beaconLit
    cases s.powered <;> cases s.conditions.beacon cls <;> simp
  · intro shown polarity
    have hshown (x : Polarity) (duty : Nat) : x.energized duty = shown x duty := by cases x <;> rfl
    have hpolarity (s : State) (u : Train) (d : Direction) : (s.crusher u).polarity d = polarity s u d := by
      cases d <;> rfl
    have hvalve {s t : State} {u : Train} {d : Direction} {duty : Nat} (ht : t.powered = true)
        (hcrusher : t.crusher u = s.crusher u) (hduty : (t.positioner u).outputDuty d = duty) :
        t.valveOutput u d = shown (polarity s u d) duty := by
      rw [State.valveOutput_eq ht, hduty, hcrusher, hpolarity, hshown]
    refine ⟨fun u s hs => ⟨fun d e he => ?_, fun d he => ?_, ?_⟩, fun u q d s hs hq hdue => ?_,
      fun u j d s hs hstate hj hend hreasons => ?_, fun u tag s hs => ⟨fun hmode hsub v => ⟨?_, ?_⟩, fun hmode v => ?_⟩⟩
    · exact hvalve hs rfl (Positioner.outputDuty_on he d)
    · exact hvalve hs rfl (Positioner.outputDuty_off he d)
    · exact (if_pos hs).trans (hshown ..)
    · refine ⟨_, exec_deadTimeExpiry_due hs hq hdue, ?_⟩
      have hbegun : ((s.modPositioner u Positioner.beginPending).positioner u).outputDuty d =
          if q.direction = d then q.duty else 0 := by
        rw [State.positioner_modPositioner, Positioner.beginPending_eq hq]
        exact Positioner.outputDuty_on (e := ⟨q.direction, q.duty⟩) rfl d
      split
      · rw [State.driveBegan]
        split <;> exact hvalve hs rfl hbegun
      · exact hvalve hs rfl hbegun
    · have hdue : s.jogDue u = true := by simp [State.jogDue, hj, hend, hstate]
      rw [exec_jogTimeEnd, State.whenPowered_powered hs]
      refine ⟨_, congrArg _ ((if_pos hdue).trans (State.endJog_eq hreasons)), hvalve hs rfl (Positioner.outputDuty_off ?_ d)⟩
      rw [State.positioner_modPositioner]
    · obtain ⟨t, hexec, hp, hpowered, hcrusher⟩ :=
        exec_setPolarity (tag := tag) (number := 38#8) (n := .openPolarity) (v := v) hs hmode hsub rfl rfl fun _ _ => rfl
      have hposition : t.positioner u = s.positioner u := congrArg (Quad.get · u) hp
      have hput : (t.crusher u).openPolarity = v := by rw [hcrusher]; exact v.ofCode_code
      refine ⟨t, hexec, hp, hput, ?_, ?_⟩
      · rw [State.valveOutput_eq (hpowered.trans hs.1.1), hposition, ← hshown]
        exact congrArg (Polarity.energized · _) hput
      · rw [State.valveOutput_eq (hpowered.trans hs.1.1), State.valveOutput_eq hs.1.1, hposition, hcrusher]
        rfl
    · obtain ⟨t, hexec, hp, hpowered, hcrusher⟩ :=
        exec_setPolarity (tag := tag) (number := 39#8) (n := .closePolarity) (v := v) hs hmode hsub rfl rfl fun _ _ => rfl
      have hposition : t.positioner u = s.positioner u := congrArg (Quad.get · u) hp
      have hput : (t.crusher u).closePolarity = v := by rw [hcrusher]; exact v.ofCode_code
      refine ⟨t, hexec, hp, hput, ?_, ?_⟩
      · rw [State.valveOutput_eq (hpowered.trans hs.1.1), hposition, ← hshown]
        exact congrArg (Polarity.energized · _) hput
      · rw [State.valveOutput_eq (hpowered.trans hs.1.1), State.valveOutput_eq hs.1.1, hposition, hcrusher]
        rfl
    · have hb : (byteOf (feederOf u).number).toNat = (feederOf u).number := by cases u <;> rfl
      have hexec := exec_setParameter_taken (s := s) (tag := tag) (number := 12#8) (p := .feeder u .outputPolarity)
        (value := BitVec.ofNat 16 v.code) (v := v.code) hs (ParamSet.ofByte_station hb) rfl
        (by rw [v.toNat_code]; exact decide_eq_true v.code_lt) (by simp [State.paramModeOk, State.inRun, hmode]) rfl
        (by rw [v.toNat_code]; rfl)
      have hput : (((s.withFeeder u ((s.feeder u).put .outputPolarity v.code)).feeder u)).outputPolarity = v := by
        rw [show (s.withFeeder u ((s.feeder u).put .outputPolarity v.code)).feeder u = _ from Quad.get_set_self ..]
        exact v.ofCode_code
      refine ⟨_, hexec, rfl, hput, (if_pos hs.1.1).trans ?_⟩
      rw [← hshown]
      exact congrArg (Polarity.energized · _) hput

end Sys2Proof.Machine
end

section
/-! PROOFS. The bodies of the reads, field by field (R178, R179). -/

namespace Sys2Proof.Machine

variable {s : State} {u : Train}

/-! ### Fields -/

theorem f2opt_eq (o : Option Nat) : f2opt o = f2 (o.getD 0xFFFF) := by cases o <;> rfl

theorem f4opt_eq (o : Option Nat) : f4opt o = f4 (o.getD 0xFFFFFFFF) := by cases o <;> rfl

theorem Digital.energized_eq (d : Digital) : d.energized = (d.level == some true) := by
  rw [Digital.energized]
  rcases d.level with _ | _ | _ <;> rfl

theorem State.estopAsserted_eq (s : State) : s.estopAsserted = (s.inputs.estop.level == some false) := by
  rw [State.estopAsserted]
  rcases s.inputs.estop.level with _ | _ | _ <;> rfl

theorem boolCode_eq (x : Bool) : boolCode x = bitAt 0 x := rfl

theorem Board.waitingFor_eq (d : Board) (st : Station) :
    d.waitingFor st = d.slots.countP fun o => o.any fun r => r.station = st := by
  rw [Board.waitingFor, List.countP_eq_length_filter]
  refine congrArg List.length (List.filter_congr fun o _ => ?_)
  cases o <;> rfl

/-- The source, tag and sequence of a standing setting, and what follows. -/
theorem originBytes_append (x : Standing) (rest : List Byte) :
    f1 x.origin.sourceCode ++ ([x.origin.tagByte] ++ (f4 (orZero x.sequence) ++ rest)) =
      (match x.origin with
        | .start => f1 3 ++ f1 0 ++ f4 0
        | .request l tag n => f1 (linkCode l) ++ [tag] ++ f4 n) ++ rest := by
  unfold Standing.sequence
  cases x.origin <;> rfl

theorem appliedBytes_eq (o : Option Applied) :
    appliedBytes o = match o with
      | none => f1 0xFF ++ f1 0
      | some a => f1 (linkCode a.link) ++ [a.tag] := by
  cases o <;> rfl

theorem State.measuredValue_eq (s : State) (st : Station) :
    s.measuredValue st = match st.role with
      | .crusher => f2 ((s.gap st.train).gap.getD 0xFFFF)
      | .feeder => f2 (s.governor st.train).command := by
  unfold State.measuredValue
  cases st.role
  · rfl
  · exact f2opt_eq _

/-- The bytes every READ STATION carries (R179). -/
theorem State.stationCommon_eq (s : State) (st : Station) :
    s.stationCommon st =
      f1 st.number ++ f1 (s.station st).mode.code ++
        f1 (bitAt 0 (s.present st.train) + bitAt 1 (s.accepting st) +
          bitAt 2 (s.inputs.surgeConveyor.level == some true) + bitAt 3 (s.inputs.productConveyor.level == some true) +
          bitAt 4 (s.inputs.estop.level == some false)) ++
        f2 (s.station st).standing.target ++ f1 (s.station st).standing.priority ++
        (match (s.station st).standing.origin with
          | .start => f1 3 ++ f1 0 ++ f4 0
          | .request l tag n => f1 (linkCode l) ++ [tag] ++ f4 n) ++
        f2 (orZero (s.station st).standing.keep) ++
        (match (s.station st).lastApplied with
          | none => f1 0xFF ++ f1 0
          | some a => f1 (linkCode a.link) ++ [a.tag]) ++
        (match st.role with
          | .crusher => f2 ((s.gap st.train).gap.getD 0xFFFF)
          | .feeder => f2 (s.governor st.train).command) ++
        f1 (s.board.slots.countP fun o => o.any fun r => r.station = st) ++
        f2 ((s.inputs.surge.map Analog.scaled).getD 0xFFFF) := by
  rw [State.stationCommon]
  simp only [List.append_assoc, originBytes_append, appliedBytes_eq, State.measuredValue_eq, Board.waitingFor_eq, f2opt_eq,
    Digital.energized_eq, State.estopAsserted_eq]

/-- The bytes of a feeder (R179). -/
theorem State.stationFeeder_eq (s : State) (u : Train) :
    s.stationFeeder u =
      f1 (s.governor u).state.code ++ f2 (s.governor u).holds.code ++ f2s (s.governor u).trim ++
        f2 (s.governor u).demand ++ f1 (bitAt 0 (s.governor u).capBound) ++
        f2 ((s.governor u).updateTimer.remaining s.now) ++ f2 (((s.inputs.power.get u).map Analog.scaled).getD 0xFFFF) := by
  rw [State.stationFeeder, f2opt_eq]
  rfl

/-- The direction of a drive as READ STATION sends it: 0 for none (R179). -/
def wayBytes : Option Direction → List Byte
  | none => f1 0
  | some .opening => f1 1
  | some .closing => f1 2

theorem driveBytes_eq (o : Option Drive) :
    driveBytes o = wayBytes (o.map Drive.direction) ++ f2 (orZero (o.map Drive.duty)) := by
  rcases o with _ | ⟨_ | _, _⟩ <;> rfl

theorem pendingBytes_eq (o : Option PendingDrive) :
    pendingBytes o = wayBytes (o.map PendingDrive.direction) ++ f2 ((o.map PendingDrive.duty).getD 0xFFFF) := by
  rcases o with _ | ⟨_ | _, _⟩ <;> rfl

theorem moveBytes_eq (o : Option Move) :
    moveBytes o = match o with
      | none => f1 0xFF ++ f4 ((none : Option Nat).getD 0xFFFFFFFF)
      | some m => f1 (bitAt 0 m.loadAdjust) ++ f4 m.start := by
  cases o <;> rfl

theorem historyBytes_eq (h : List Nat) :
    historyBytes h = f1 h.length ++ f4 (orZero h[0]?) ++ f4 (orZero h[1]?) ++ f4 (orZero h[2]?) ++ f4 (orZero h[3]?) := by
  simp only [historyBytes, orZero, List.getD_eq_getElem?_getD]

/-- The bytes of a crusher (R179). -/
theorem State.stationCrusher_eq (s : State) (u : Train) :
    s.stationCrusher u =
      f1 (bitAt 0 ((s.inputs.running.get u).level == some true) + bitAt 1 (s.inputs.position.get u).isSome +
          bitAt 2 ((s.inputs.pressure.get u).map Analog.scaled).isSome + bitAt 3 ((s.inputs.power.get u).map Analog.scaled).isSome) ++
        f2 (orZero (s.inputs.position.get u)) ++ f1 (s.gap u).validity.code ++ f2 (s.gap u).wear ++ f4 (s.gap u).tenths ++
        f2 (orZero ((s.inputs.pressure.get u).map Analog.scaled)) ++ f2 (orZero ((s.inputs.power.get u).map Analog.scaled)) ++ f1 (s.positioner u).state.code ++ f1 (s.positioner u).reasons.code ++
        wayBytes ((s.positioner u).drive.map Drive.direction) ++ f2 (orZero ((s.positioner u).drive.map Drive.duty)) ++
        wayBytes ((s.positioner u).pendingDrive.map PendingDrive.direction) ++ f2 (((s.positioner u).pendingDrive.map PendingDrive.duty).getD 0xFFFF) ++
        (match (s.positioner u).move with
          | none => f1 0xFF ++ f4 ((none : Option Nat).getD 0xFFFFFFFF)
          | some m => f1 (bitAt 0 m.loadAdjust) ++ f4 m.start) ++
        f4 ((s.remainingOf (s.positioner u).drainTimer).getD 0xFFFFFFFF) ++ f4 ((s.remainingOf (s.positioner u).moveTimer).getD 0xFFFFFFFF) ++
        f2 (((s.positioner u).jog.map Jog.remaining).getD 0xFFFF) ++ f4 ((s.positioner u).lastDuration.getD 0xFFFFFFFF) ++
        f1 (if s.sequencer.subject = some u then s.sequencer.state.code else 0xFF) ++ f1 (s.supervisor u).relief.code ++
        f1 (if (s.supervisor u).detectorActive then 0 else 1) ++ f4 ((s.remainingOf (s.supervisor u).clearingTimer).getD 0xFFFFFFFF) ++
        f1 (s.supervisor u).history.length ++ f4 (orZero (s.supervisor u).history[0]?) ++ f4 (orZero (s.supervisor u).history[1]?) ++ f4 (orZero (s.supervisor u).history[2]?) ++
        f4 (orZero (s.supervisor u).history[3]?) ++ f1 (bitAt 0 (s.supervisor u).overload + bitAt 1 (s.supervisor u).tripCause) ++
        f4 ((s.remainingOf (s.supervisor u).overloadTimer).getD 0xFFFFFFFF) ++ f1 (s.supervisor u).reliefLatch.code ++ f1 (s.supervisor u).powerLatch.code := by
  have hsubject : (if s.isSubject u then s.sequencer.state.code else 0xFF) =
      if s.sequencer.subject = some u then s.sequencer.state.code else 0xFF := by simp [State.isSubject]
  unfold State.stationCrusher
  simp only [hsubject, List.append_assoc, driveBytes_eq, pendingBytes_eq, moveBytes_eq, historyBytes_eq, f2opt_eq, f4opt_eq,
    Digital.energized_eq, detectorCode]

/-! ### The other reads -/

theorem waitingOf_flatMap (l : Link) (i : Nat) (slots : List (Option Slot)) :
    ((waitingOf l i slots).flatMap fun r => slotBytes r.1 r.2) =
      (slots.zipIdx i).flatMap fun x =>
        match x.1 with
        | none => []
        | some r => if r.source = l then slotBytes x.2 r else [] := by
  induction slots generalizing i with
  | nil => rfl
  | cons o rest ih =>
    rw [List.zipIdx_cons, List.flatMap_cons, ← ih]
    cases o with
    | none => rfl
    | some r =>
      by_cases hr : r.source = l <;> simp [waitingOf, hr]

theorem State.waitingBody_eq (s : State) (l : Link) :
    s.waitingBody l =
      f1 (s.board.slots.countP fun o => o.any fun r => r.source = l) ++
        s.board.slots.zipIdx.flatMap fun x =>
          match x.1 with
          | none => []
          | some r => if r.source = l then slotBytes x.2 r else [] := by
  rw [State.waitingBody, length_waitingOf, waitingOf_flatMap]

theorem State.ofSubject_eq {α : Type} (s : State) (u : Train) (o : Option α) :
    s.ofSubject u o = if (decide (s.sequencer.subject = some u)) = true then o else none := rfl

theorem ZeroRecord.zeroNow_eq (z : ZeroRecord) : orZero z.zeroNow = if z.valid then z.z else 0 := by
  rw [ZeroRecord.zeroNow]
  cases z.valid <;> rfl

end Sys2Proof.Machine
end

section
/-! PROOFS. The obligation on the bodies of the reads (R178, R179). -/

namespace Sys2Proof.Machine

variable {s : State} {u : Train}

/-- Settles O60: each body by its fields, each code by its list. -/
theorem readsCarryTheState : Obligations.ReadsCarryTheState := by
  unfold Obligations.ReadsCarryTheState
  intro b1 b2 b4 signed bit zero half time linkByte left common feeder way crusher slot subject detail entry outcome
  have hlink (l : Link) : linkCode l = linkByte l := by cases l <;> rfl
  have hcommon (s : State) (st : Station) : s.stationCommon st = common s st := by
    refine (s.stationCommon_eq st).trans ?_
    simp only [hlink]
    rfl
  have hfeeder (s : State) (u : Train) : s.stationFeeder u = feeder s u := s.stationFeeder_eq u
  have hcrusher (s : State) (u : Train) : s.stationCrusher u = crusher s u := s.stationCrusher_eq u
  have hsubject (x : Subject) : x.code = subject x := by rcases x with _ | _ | _ | _ | _ | _ <;> rfl
  have hdetail (x : Detail) : x.code = detail x := by rcases x with _ | _ | _ | _ | _ <;> rfl
  have hentry (e : Entry) : e.bytes = entry e := by
    have hdetails : e.detail.map Detail.code = e.detail.map detail := congrArg (Option.map · e.detail) (funext hdetail)
    rw [Entry.bytes, hsubject, hdetails]
    rfl
  refine ⟨fun l tag s hs => ?_, rfl, rfl, rfl, rfl, rfl, rfl, rfl, rfl, rfl, rfl, rfl⟩
  intro answers
  have hstation (st : Station) := exec_readStation_answered hs l tag st
  refine ⟨fun u => ?_, fun u => ?_, ?_, ?_, fun u => ?_⟩
  · have h := hstation (feederOf u)
    rw [show s.stationBody (feederOf u) = s.stationCommon (feederOf u) ++ s.stationFeeder u from rfl, hcommon, hfeeder] at h
    exact h
  · have h := hstation (crusherOf u)
    rw [show s.stationBody (crusherOf u) = s.stationCommon (crusherOf u) ++ s.stationCrusher u from rfl, hcommon,
      hcrusher] at h
    exact h
  · have h := exec_readWaiting_answered hs l tag
    rw [s.waitingBody_eq] at h
    exact h
  · have h := exec_readConditions_answered hs l tag
    have hfirst : firstOutBytes s.conditions.firstOut = match s.conditions.firstOut with
        | none => b1 0 ++ b1 0 ++ b4 0 ++ b1 0
        | some f => b1 f.code.number ++ b1 (subject f.subject) ++ b4 f.stamp.clock ++ b1 (bit 0 f.stamp.isSet) := by
      cases s.conditions.firstOut with
      | none => rfl
      | some f =>
        rw [firstOutBytes, hsubject]
        rfl
    have hentries : s.conditions.entries.flatMap Entry.bytes = s.conditions.entries.flatMap entry :=
      congrArg (List.flatMap · s.conditions.entries) (funext hentry)
    rw [State.conditionsBody, hfirst, hentries] at h
    exact h
  · intro z q mine own
    have h := exec_readZeroRecord_answered hs l tag u
    have houtcome : outcomeBytes z.outcome = match z.outcome with
        | none => List.replicate 18 0#8
        | some o => outcome o := by
      cases z.outcome <;> rfl
    rw [State.zeroBody, ZeroRecord.zeroNow_eq, houtcome, f4opt_eq, f4opt_eq] at h
    exact h

end Sys2Proof.Machine
end

section
/-! PROOFS. What one train's blocks do, in guarded steps: a relation that holds of each step on the records of a train,
and composes, holds of every operation on that train. -/

namespace Sys2Proof.Machine

variable {a b s : State} {t : Train}

/-! ### Reports that are no trip's (R148) -/

/-- The TRIP entries listed. -/
def ConditionList.trips (l : ConditionList) : List Entry := l.entries.filter fun e => e.code.cls = .trip

section trips

variable {l : ConditionList} {code : Code} {sub : Subject}

theorem ConditionList.trips_map {l m : ConditionList} {f : Entry → Entry} (hm : m.entries = l.entries.map f)
    (hf : ∀ e, e.code.cls = .trip → f e = e) (hcode : ∀ e, (f e).code = e.code) : m.trips = l.trips := by
  rw [ConditionList.trips, ConditionList.trips, hm, List.filter_map]
  have hsame : (fun e : Entry => decide (e.code.cls = .trip)) ∘ f = fun e => decide (e.code.cls = .trip) := by
    funext e
    rw [Function.comp_apply, hcode]
  rw [hsame]
  refine (List.map_congr_left fun e he => ?_).trans (List.map_id _)
  exact hf e (by simpa using (List.mem_filter.mp he).2)

theorem ConditionList.trips_without {gone : Entry → Bool} (hgone : ∀ e, e.code.cls = .trip → gone e = false) :
    (l.without gone).trips = l.trips := by
  rw [ConditionList.trips, ConditionList.trips, ConditionList.without, List.filter_filter]
  refine List.filter_congr fun e _ => ?_
  by_cases he : e.code.cls = .trip <;> simp [he, hgone]

theorem Entry.named_of_trip (hcode : code.cls ≠ .trip) {e : Entry} (he : e.code.cls = .trip) :
    e.named code sub = false := by
  have : e.code ≠ code := fun h => hcode (h ▸ he)
  simp [Entry.named, this]

theorem ConditionList.trips_onset (hcode : code.cls ≠ .trip) (d : Option Detail) (stamp : Stamp) :
    (l.onset code sub d stamp).trips = l.trips := by
  have hfresh : (Entry.fresh code sub stamp d).code.cls ≠ .trip := hcode
  unfold ConditionList.onset
  split
  · refine ConditionList.trips_map rfl (fun e he => ?_) fun e => ?_
    · rw [Entry.named_of_trip hcode he]
      simp
    · split <;> rfl
  · split
    · simp [ConditionList.trips, ConditionList.appended, List.filter_append, hfresh]
    · rfl

theorem ConditionList.trips_causeEnded (hcode : code.cls ≠ .trip) : (l.causeEnded code sub).trips = l.trips := by
  unfold ConditionList.causeEnded
  split
  · refine (ConditionList.trips_map (l := l.without _) rfl (fun e he => ?_) fun e => ?_).trans
      (ConditionList.trips_without fun e he => ?_)
    · rw [Entry.named_of_trip hcode he]
      simp
    · split <;> rfl
    · rw [Entry.named_of_trip hcode he]
      rfl
  · exact ConditionList.trips_without fun e he => Entry.named_of_trip hcode he

end trips

/-! ### What a step leaves alone -/

theorem Governor.updated_holds (g : Governor) (u : UpdateInputs) : (g.updated u).holds = g.holds := by
  unfold Governor.updated
  split
  · simp only [Governor.rampStep, Governor.demandStep, Governor.trimStep, Governor.capTest]
    split
    · exact (apply_ite Governor.holds _ _ _).trans (ite_self _)
    · rfl
  · rfl

/-- The accepting predicate reads the presence, the mode, the zero, the position, the relief and FAULT (R6, R7). -/
theorem State.accepting_congr {st : Station} (hpresent : b.present st.train = a.present st.train)
    (hmode : (b.station st).mode = (a.station st).mode) (hzero : (b.zero st.train).valid = (a.zero st.train).valid)
    (hvalid : (b.gap st.train).validity = .valid ↔ (a.gap st.train).validity = .valid)
    (hrelief : (b.supervisor st.train).relief.accepts = (a.supervisor st.train).relief.accepts)
    (hfault : (b.positioner st.train).state = .fault ↔ (a.positioner st.train).state = .fault) :
    b.accepting st = a.accepting st := by
  simp only [State.accepting, hpresent, hmode, hzero, hvalid, hrelief, ne_eq, hfault]

/-! ### Steps that keep every law -/

/-- A relation of states that composes and holds of the steps on a train's records that keep every law: no step leaves
a position not VALID, a mode, a latch or a zero another than it found it. -/
structure Calm (t : Train) (R : State → State → Prop) : Prop extends MoveClosed t R where
  store : ∀ (a : State) (x : Store), R a (a.withStore x)
  reports : ∀ (a : State) (f : ConditionList → ConditionList), ConditionStep a.conditions (f a.conditions) →
    (f a.conditions).trips = a.conditions.trips → R a (a.modConditions f)
  sequencer : ∀ (a : State) (f : Sequencer → Sequencer), (f a.sequencer).subject = a.sequencer.subject →
    ((f a.sequencer).state = .idle ↔ a.sequencer.state = .idle) → R a (a.modSequencer f)
  governor : ∀ (a : State) (f : Governor → Governor),
    (f (a.governor t)).holds.calibration = (a.governor t).holds.calibration →
    (f (a.governor t)).holds.trip = (a.governor t).holds.trip → R a (a.modGovernor t f)
  bars : ∀ (a : State) (r : Reason), R a (a.modPositioner t (Positioner.barred a.now r))
  measures : ∀ (a : State) (f : GapMeasurement → GapMeasurement),
    (f (a.gap t)).validity = (a.gap t).validity ∨ (a.gap t).validity ≠ .valid ∧ (f (a.gap t)).validity ≠ .valid →
      R a (a.modGap t f)
  notes : ∀ (a : State) (f : ZeroRecord → ZeroRecord), (f (a.zero t)).valid = (a.zero t).valid → R a (a.modZero t f)
  supervises : ∀ (a : State) (f : Supervisor → Supervisor),
    (∀ w, (f (a.supervisor t)).latch w = (a.supervisor t).latch w) →
    (∀ w, (f (a.supervisor t)).causeActive w = (a.supervisor t).causeActive w) →
    (f (a.supervisor t)).relief = (a.supervisor t).relief ∨
      (a.supervisor t).relief = .relieving ∧ (f (a.supervisor t)).relief = .clearing → R a (a.modSupervisor t f)
  record : ∀ (a : State) (st : Station) (f : StationRecord → StationRecord), st.train = t →
    (f (a.station st)).mode = (a.station st).mode → (f (a.station st)).lastAccepting = (a.station st).lastAccepting →
    (f (a.station st)).standing.priority = (a.station st).standing.priority →
    (f (a.station st)).standing.origin = (a.station st).standing.origin → R a (a.modStation st f)
  started : ∀ (a : State) (st : Station) (n : Nat), st.train = t → a.accepting st = false →
    R a (a.modStation st fun r => { r with standing := Standing.start n })
  evaluates : ∀ a : State, R a (a.evaluate (feederOf t))
  frees : ∀ (a : State) (gone : Slot → Bool), R a (a.withBoard (a.board.freeWhere gone))
  endTouch : ∀ a : State, a.isSubject t = true → R a (a.endTouch t)

namespace Calm

variable {R : State → State → Prop} (hc : Calm t R)
include hc

/-! ### The store, the List and the hold set -/

theorem startWrite (h : R s a) : R s a.startWrite := by
  unfold State.startWrite
  refine MoveClosed.ite (fun _ => h) fun _ => ?_
  split
  · exact h
  · exact hc.trans h (hc.store a _)

theorem mark (h : R s a) (sec : StoreSection) : R s (a.mark sec) := hc.startWrite (hc.trans h (hc.store a _))

theorem onset (h : R s a) {code : Code} (hcode : code.cls ≠ .trip) (sub : Subject) (d : Option Detail) :
    R s (a.onset code sub d) :=
  hc.trans h (hc.reports a _ (.onset code sub d a.stamp) (ConditionList.trips_onset hcode d a.stamp))

theorem causeEnd (h : R s a) {code : Code} (hcode : code.cls ≠ .trip) (sub : Subject) : R s (a.causeEnd code sub) :=
  hc.trans h (hc.reports a _ (.causeEnded code sub) (ConditionList.trips_causeEnded hcode))

theorem addHold (h : R s a) {c : Hold} (hcal : c ≠ .calibration) (htrip : c ≠ .trip) : R s (a.addHold t c) := by
  obtain ⟨hhas, -⟩ := (a.governor t).hold_keeps c
  refine hc.trans h (hc.governor a _ ?_ ?_)
  · simpa [Holds.has, hcal.symm] using hhas .calibration
  · simpa [Holds.has, htrip.symm] using hhas .trip

theorem removeHold (h : R s a) {c : Hold} (hcal : c ≠ .calibration) (htrip : c ≠ .trip) : R s (a.removeHold t c) := by
  obtain ⟨hhas, -⟩ := (a.governor t).release_keeps c
  refine hc.trans h (hc.governor a _ ?_ ?_)
  · simpa [Holds.has, hcal.symm] using hhas .calibration
  · simpa [Holds.has, htrip.symm] using hhas .trip

theorem floorAndHold (h : R s a) {c : Hold} (hcal : c ≠ .calibration) (htrip : c ≠ .trip) :
    R s (a.floorAndHold t c) := hc.addHold (hc.trans h (hc.governor a _ rfl rfl)) hcal htrip

/-! ### Feeders -/

theorem updateExpiry (h : R s a) : R s (a.updateExpiry t) := by
  have hholds := (a.governor t).updated_holds (a.updateInputs t)
  exact MoveClosed.ite (fun _ => hc.trans h (hc.governor a _ (congrArg Holds.calibration hholds)
    (congrArg Holds.trip hholds))) fun _ => h

theorem addLevel (h : R s a) : R s (a.addLevel t) := by
  have hheld := hc.addHold h (c := .level) (by decide) (by decide)
  refine MoveClosed.ite (fun _ => hc.onset hheld ?_ _ _) fun _ => hheld
  split <;> decide

theorem removeLevel (h : R s a) : R s (a.removeLevel t) := by
  have hheld := hc.removeHold h (c := .level) (by decide) (by decide)
  exact MoveClosed.ite (fun _ => hc.causeEnd hheld (by decide) _) fun _ =>
    MoveClosed.ite (fun _ => hheld) fun _ => hc.causeEnd hheld (by decide) _

theorem judgeLevel (h : R s a) (level : Nat) : R s (a.judgeLevel level t) :=
  MoveClosed.ite (fun _ => h) fun _ => MoveClosed.ite
    (fun _ => MoveClosed.ite (fun _ => hc.removeLevel h) fun _ => h)
    fun _ => MoveClosed.ite (fun _ => hc.addLevel h) fun _ => h

theorem conveyorHold (h : R s a) (running : Bool) : R s (a.conveyorHold running t) :=
  MoveClosed.ite (fun _ => hc.removeHold h (by decide) (by decide)) fun _ => hc.addHold h (by decide) (by decide)

/-! ### Positioners -/

theorem addReason (h : R s a) (r : Reason) : R s (a.addReason t r) := by
  rw [State.addReason_barred]
  exact hc.trans h (hc.bars a r)

/-- A START setting written to a crusher that is not accepting, and its target reported (R2, R92). -/
theorem firstReading (h : R s a) (hno : a.accepting (crusherOf t) = false) : R s (a.firstReading t) := by
  unfold State.firstReading State.writeStanding State.writeStandingWith
  have hwritten (n : Nat) := hc.trans h (hc.started a (crusherOf t) n rfl hno)
  exact MoveClosed.ite (fun _ => hwritten _) fun _ => hc.retarget (hwritten _)

theorem takeFirstReading (h : R s a) (hno : a.accepting (crusherOf t) = false) : R s (a.takeFirstReading t) :=
  MoveClosed.ite (fun _ => hc.firstReading (hc.trans h (hc.measures a _ (.inl rfl)))
    ((State.accepting_congr (a := a) (b := a.modGap t fun g => { g with firstReadingDue := false }) rfl rfl rfl (by simp [crusherOf]) rfl Iff.rfl).trans hno)) fun _ => h

/-! ### Zero touches and wear -/

theorem judgeWearLimit (h : R s a) (stood : Bool) : R s (a.judgeWearLimit t stood) :=
  MoveClosed.ite (fun _ => hc.onset h (by decide) _ _) fun _ =>
    MoveClosed.ite (fun _ => hc.causeEnd h (by decide) _) fun _ => h

theorem wearStep (h : R s a) : R s (a.wearStep t) := by
  have hstep : R s (a.modGap t (GapMeasurement.wearStepped (a.crusher t).wearRate)) :=
    hc.trans h (hc.measures a _ (.inl rfl))
  by_cases hdue : 360000 ≤ (a.gap t).loadedTime
  · rw [State.wearStep_eq hdue]
    exact hc.judgeWearLimit (MoveClosed.ite (fun _ => hstep) fun _ => hc.mark hstep _) _
  · rwa [State.wearStep, if_neg]
    exact fun hyes => hdue (of_decide_eq_true hyes)

theorem countLoaded (h : R s a) : R s (a.countLoaded t) :=
  MoveClosed.ite (fun _ => hc.trans h (hc.measures a _ (.inl rfl))) fun _ => h

theorem abortTouch (h : R s a) (hsub : a.isSubject t = true) (r : TouchResult) : R s (a.abortTouch t r) := by
  have htimer := hc.trans h (hc.sequencer a (fun q => { q with dwellTimer := none }) rfl Iff.rfl)
  have hzero := hc.trans htimer (hc.notes _ (fun z => { z with outcome := some (a.abortOutcome t r), aborted := true }) rfl)
  exact hc.mark (hc.trans (hc.causeEnd (hc.onset hzero (code := .zeroAborted) (by decide) (.crusher t)
    (some (.result r))) (code := .zeroAborted) (by decide) (.crusher t)) (hc.endTouch _ hsub)) .zero

theorem abortIfSubject (h : R s a) (r : TouchResult) : R s (a.abortIfSubject t r) :=
  MoveClosed.ite (fun hsub => hc.abortTouch h hsub r) fun _ => h

theorem judgeContact (h : R s a) (pressure : Nat) : R s (a.judgeContact t pressure) := by
  unfold State.judgeContact
  refine MoveClosed.ite (fun _ => h) fun _ => ?_
  split
  · next hstate => exact MoveClosed.ite (fun _ => hc.trans h (hc.sequencer a _ rfl (by simp [hstate]))) fun _ => h
  · next hstate => exact MoveClosed.ite (fun _ => hc.trans h (hc.sequencer a _ rfl (by simp [hstate]))) fun _ => h
  all_goals exact h

theorem judgeLoad (h : R s a) (power : Nat) : R s (a.judgeLoad t power) :=
  MoveClosed.ite (fun hload => hc.abortTouch h (by simp only [Bool.and_eq_true] at hload; exact hload.1.1) _) fun _ => h

/-! ### Relief and overload -/

theorem reliefEnd (h : R s a) : R s (a.reliefEnd t) :=
  MoveClosed.ite (fun hrelief => hc.trans h (hc.supervises a _ (fun w => by cases w <;> rfl)
    (fun w => by cases w <;> simp [Supervisor.causeActive, hrelief]) (.inr ⟨hrelief, rfl⟩))) fun _ => h

theorem endOverload (h : R s a) : R s (a.endOverload t) := by
  have hended := hc.trans h (hc.supervises a (fun v => { v with overload := false }) (fun w => by cases w <;> rfl)
    (fun w => by cases w <;> rfl) (.inl rfl))
  exact hc.causeEnd (hc.removeHold hended (by decide) (by decide)) (by decide) _

theorem judgeOverload (h : R s a) (power : Nat) : R s (a.judgeOverload t power) := by
  have htimer (x : Option Timer) : R s (a.modSupervisor t fun v => { v with overloadTimer := x }) :=
    hc.trans h (hc.supervises a _ (fun w => by cases w <;> rfl) (fun w => by cases w <;> rfl) (.inl rfl))
  unfold State.judgeOverload
  refine MoveClosed.ite (fun _ => MoveClosed.ite (fun _ => hc.endOverload h) fun _ => h) fun _ =>
    MoveClosed.ite (fun _ => ?_) fun _ => htimer _
  split
  · exact h
  · exact htimer _

theorem overloadDelayExpiry (h : R s a) : R s (a.overloadDelayExpiry t) := by
  have hbegun := hc.trans h (hc.supervises a (fun v => { v with overload := true, overloadTimer := none })
    (fun w => by cases w <;> rfl) (fun w => by cases w <;> rfl) (.inl rfl))
  exact MoveClosed.ite (fun _ => hc.onset (hc.floorAndHold hbegun (by decide) (by decide)) (by decide) _ _) fun _ => h

/-- The detector takes a level, whatever a relief onset does. -/
theorem setDetector (h : R s a) (honset : ∀ b, R s b → R s (b.reliefOnset t)) (active : Bool) :
    R s (a.setDetector t active) := by
  have hlevel := hc.trans h (hc.supervises a (fun v => { v with detectorActive := active })
    (fun w => by cases w <;> rfl) (fun w => by cases w <;> rfl) (.inl rfl))
  exact MoveClosed.ite (fun _ => h) fun _ => MoveClosed.ite (fun _ => honset _ hlevel) fun _ => hc.reliefEnd hlevel

theorem judgeSwitch (h : R s a) (honset : ∀ b, R s b → R s (b.reliefOnset t)) : R s (a.judgeSwitch t) := by
  unfold State.judgeSwitch
  split
  · exact h
  · exact hc.setDetector h honset _

theorem judgePressure (h : R s a) (honset : ∀ b, R s b → R s (b.reliefOnset t)) (pressure : Nat) :
    R s (a.judgePressure t pressure) := by
  unfold State.judgePressure
  split
  · exact hc.setDetector h honset _
  · exact hc.judgeSwitch h honset

theorem reliefSwitchChanged (h : R s a) (honset : ∀ b, R s b → R s (b.reliefOnset t)) :
    R s (a.reliefSwitchChanged t) := by
  unfold State.reliefSwitchChanged
  split
  · exact h
  · exact hc.judgeSwitch h honset

theorem runningChanged (h : R s a) (running : Bool) : R s (a.runningChanged t running) := by
  have hheld : R s (a.crusherRunningChanged t running) := MoveClosed.ite
    (fun _ => hc.removeHold h (by decide) (by decide)) fun _ => hc.addHold h (by decide) (by decide)
  exact MoveClosed.ite (fun _ => h) fun _ => MoveClosed.ite (fun _ => hheld) fun _ => hc.abortIfSubject hheld _

end Calm

end Sys2Proof.Machine
end

section
/-! PROOFS. What one train's blocks do beyond the steps that keep every law: relief onsets and clearings, trips, lost and
regained positions, modes, presence and the acknowledgement of latches, in guarded steps. -/

namespace Sys2Proof.Machine

variable {a b c s : State} {t : Train}

/-! ### Trips and relief states -/

/-- The Supervisor of a train and hold TRIP of its feeder, with a report. -/
structure TripStep (t : Train) (a b : State) : Prop where
  rest : b = { a with governors := b.governors, supervisors := b.supervisors, conditions := b.conditions }
  others : a.othersKept b t
  holds : ∀ c, c ≠ .trip → (b.governor t).holds.has c = (a.governor t).holds.has c

theorem TripStep.trans (h : TripStep t a b) (k : TripStep t b c) : TripStep t a c where
  rest := by rw [k.rest, h.rest]
  others := h.others.trans k.others
  holds := fun x hx => (k.holds x hx).trans (h.holds x hx)

theorem LatchSets.tripStep {w : TripLatch} {d : Option Detail} (h : LatchSets t w d a b) : TripStep t a b where
  rest := h.rest
  others := h.others
  holds := fun x hx => by rw [h.governor, ((a.governor t).hold_keeps .trip).1]; simp [hx]

theorem LatchEnds.tripStep {w : TripLatch} (h : LatchEnds t w a b) : TripStep t a b where
  rest := h.rest
  others := h.others
  holds := h.holds

theorem State.modSupervisor_tripStep (s : State) (t : Train) (f : Supervisor → Supervisor) :
    TripStep t s (s.modSupervisor t f) where
  rest := rfl
  others := s.othersKept_modSupervisor t f
  holds := fun _ _ => rfl

theorem State.judgeTrip_tripStep (s : State) (t : Train) : TripStep t s (s.judgeTrip t) where
  rest := by
    rw [s.judgeTrip_rest t]
  others := by
    unfold State.judgeTrip
    split <;> exact s.othersKept_modGovernor t _
  holds := fun _ => s.judgeTrip_holds t

theorem State.endTripCause_tripStep (s : State) (t : Train) : TripStep t s (s.endTripCause t) :=
  (s.modSupervisor_tripStep t _).trans (State.endLatchCause_ends _ t .powerTrip).tripStep

theorem State.ackLatch_tripStep (s : State) (t : Train) (w : TripLatch) : TripStep t s (s.ackLatch t w) := by
  cases w with
  | repeatedRelief =>
    exact ((s.modSupervisor_tripStep t _).trans (State.modSupervisor_tripStep _ t _)).trans
      (State.judgeTrip_tripStep _ t)
  | powerTrip => exact (s.modSupervisor_tripStep t _).trans (State.judgeTrip_tripStep _ t)

/-- A relief onset taken by the Supervisor: RELIEVING, and the onset judged for repeated relief (R135, R136). -/
def State.reliefBegun (s : State) (t : Train) : State :=
  (s.modSupervisor t fun v => { v with relief := .relieving, clearingTimer := none }).judgeRepeatedRelief t

theorem State.reliefBegun_tripStep (s : State) (t : Train) : TripStep t s (s.reliefBegun t) := by
  have hentered := (s.modSupervisor_tripStep t fun v => { v with relief := .relieving, clearingTimer := none }).trans
    (State.modSupervisor_tripStep _ t fun v => { v with history := enterOnset v.history s.time.seconds })
  show TripStep t s (if _ then _ else _)
  split
  · exact hentered.trans (State.setLatch_sets _ t .repeatedRelief none).tripStep
  · exact hentered

theorem State.restoring_tripStep (s : State) (t : Train) : TripStep t s (s.restoring t) :=
  (s.modSupervisor_tripStep t _).trans (State.endLatchCause_ends _ t .repeatedRelief).tripStep

/-! ### Blocks of calm steps -/

/-- A relation of calm steps up to the evaluation of a station's predicate, and one after it. -/
structure Judges (t : Train) (st : Station) (R R' : State → State → Prop) (s s' : State) : Prop where
  before : Calm t R
  after : Calm t R'
  evaluate : ∀ b, R s b → R' s' (b.evaluate st)

theorem State.modGap_modGap (s : State) (t : Train) (f g : GapMeasurement → GapMeasurement) :
    (s.modGap t f).modGap t g = s.modGap t fun x => g (f x) := by
  have hset {α : Type} (q : Quad α) (x y : α) : (q.set t x).set t y = q.set t y := by cases t <;> rfl
  rw [State.modGap, State.gap_modGap]
  exact congrArg (fun q => { s with gaps := q }) (hset ..)

namespace Judges

variable {R R' : State → State → Prop} {s' : State}

section crusher

variable (hJ : Judges t (crusherOf t) R R' s s')
include hJ

/-- A relief onset, after the Supervisor has taken it (R135). -/
theorem reliefOnset (h : R s (a.reliefBegun t)) : R' s' (a.reliefOnset t) :=
  hJ.after.onset (hJ.after.abortIfSubject (hJ.evaluate _ (hJ.before.addReason
    (hJ.before.floorAndHold h (by decide) (by decide)) .relief)) .abortedRelief) (by decide) _ _

/-- CLEARING_EXPIRY, after the Supervisor has taken it (R138). -/
theorem clearingExpiry (hr : (a.supervisor t).relief = .clearing → R s (a.restoring t)) (h : R' s' a) :
    R' s' (a.clearingExpiry t) := by
  refine MoveClosed.ite (fun hdue => ?_) fun _ => h
  simp only [Bool.and_eq_true, decide_eq_true_eq] at hdue
  exact hJ.evaluate _ (hJ.before.removeReason (hr hdue.1) .relief)

/-- An arrival outside the window, after the position is lost (R57). -/
theorem positionOutside (h : R s (a.modGap t fun g =>
    { g with validity := .notValid, recovery := none, gap := none, faultStanding := true })) :
    R' s' (a.positionOutside t) := by
  have hbarred := hJ.evaluate _ (hJ.before.addReason
    (hJ.before.takeFirstReading h (State.accepting_of_validity (by simp))) .position)
  have habort := MoveClosed.ite (p := (a.gap t).validity = .valid)
    (fun _ => hJ.after.abortIfSubject hbarred .abortedPosition) fun _ => hbarred
  exact MoveClosed.ite (fun _ => habort) fun _ => hJ.after.onset habort (by decide) _ _

/-- A move that times out, after its drive is off (R80). -/
theorem moveTimerExpiry (ht : (a.positioner t).state = .driving ∨ (a.positioner t).state = .deadTime →
    R s (a.modPositioner t (Positioner.timeOut a.now))) (h : R' s' a) : R' s' (a.moveTimerExpiry t) := by
  refine MoveClosed.ite (fun hdue => ?_) fun _ => h
  have hstate : (a.positioner t).state = .driving ∨ (a.positioner t).state = .deadTime := by
    simp only [Bool.and_eq_true, Bool.or_eq_true, decide_eq_true_eq] at hdue
    exact hdue.1
  exact hJ.after.causeEnd (hJ.after.onset (hJ.evaluate _ (ht hstate)) (by decide) _ _) (by decide) _

/-- An accepted touch, after its zero is written (R104). -/
theorem acceptTouch (h : ∀ f : ZeroRecord → ZeroRecord, R s (a.modZero t f)) (contact : Nat) :
    R' s' (a.acceptTouch t contact) := by
  have hgone (f : ZeroRecord → ZeroRecord) (g : GapMeasurement → GapMeasurement) (hg : ∀ x, (g x).validity = x.validity) :=
    hJ.evaluate _ (hJ.before.removeReason
      (hJ.before.mark (hJ.before.mark (hJ.before.trans (h f) (hJ.before.measures _ g (.inl (hg _)))) .zero) .wear) .noZero)
  unfold State.acceptTouch
  exact hJ.after.judgeWearLimit (MoveClosed.ite (fun _ => hgone _ _ (by intro; rfl))
    fun _ => hJ.after.causeEnd (hgone _ _ (by intro; rfl)) (by decide) _) _

/-- A position found VALID, after it is, and after a START setting of a first reading is written (R58, R92). -/
theorem becomeValid {gap : Option Nat}
    (hstart : ∀ (f : GapMeasurement → GapMeasurement) (n : Nat), (f (a.gap t)).validity = .valid →
      R s ((a.modGap t f).modStation (crusherOf t) fun r => { r with standing := Standing.start n }))
    (h : R s (a.modGap t fun g => { g with validity := .valid, recovery := none, faultStanding := false, gap := gap })) :
    R' s' (a.becomeValid t gap) := by
  have hread : R s ((a.modGap t fun g =>
      { g with validity := .valid, recovery := none, faultStanding := false, gap := gap }).takeFirstReading t) := by
    refine MoveClosed.ite (fun _ => ?_) fun _ => h
    have hwritten (n : Nat) : R s (((a.modGap t fun g =>
        { g with validity := .valid, recovery := none, faultStanding := false, gap := gap }).modGap t fun g =>
          { g with firstReadingDue := false }).modStation (crusherOf t) fun r => { r with standing := Standing.start n }) := by
      rw [State.modGap_modGap]
      exact hstart _ n rfl
    exact MoveClosed.ite (fun _ => hwritten _) fun _ => hJ.before.retarget (hwritten _)
  have hgone := hJ.evaluate _ (hJ.before.removeReason hread .position)
  exact MoveClosed.ite (fun _ => hJ.after.causeEnd hgone (by decide) _) fun _ => hgone

/-- A FAULT cleared, after its state is left (R80). -/
theorem clearFault (hleaves : (a.positioner t).state = .fault →
    R s (a.modPositioner t fun p => { p with state := .suspended })) (h : R' s' a) : R' s' (a.clearFault t) := by
  refine MoveClosed.ite (fun hfault => hJ.evaluate _ (MoveClosed.ite (fun hempty => ?_) fun _ => ?_)) fun _ => h
  · rw [← State.resume_suspended]
    exact hJ.before.resume (hleaves hfault) (by simp) (by simpa using hempty)
  · exact hleaves hfault

end crusher

/-- A mode taken, after it is written (R9, R11). -/
theorem enterMode {st : Station} (hJ : Judges t st R R' s s') (hst : st.train = t) {m : Mode}
    (h : R s (a.modStation st fun r => { r with mode := m }))
    (hsame : (a.station st).mode = m → R' s' (a.modStation st fun r => { r with mode := m })) :
    R' s' (a.enterMode st m) := by
  obtain ⟨u, r⟩ := st
  obtain rfl : u = t := hst
  have hhold {b : State} (hb : R s b) : R s (b.judgeModeHold u) :=
    MoveClosed.ite (fun _ => hJ.before.removeHold hb (by decide) (by decide))
      fun _ => hJ.before.addHold hb (by decide) (by decide)
  have htaken : R' s' (if !decide ((a.station ⟨u, r⟩).mode ≠ m) then a.modStation ⟨u, r⟩ fun x => { x with mode := m }
      else (((match r with
        | .feeder => a.modStation ⟨u, r⟩ fun x => { x with mode := m }
        | .crusher => ((a.modStation ⟨u, r⟩ fun x => { x with mode := m }).endRunningJog u).judgeModeReason u).judgeModeHold
          u).evaluate ⟨u, r⟩)) := by
    refine MoveClosed.ite (fun hno => hsame (by simpa using hno)) fun _ => hJ.evaluate _ (hhold ?_)
    cases r with
    | feeder => exact h
    | crusher =>
      have hjog := hJ.before.endRunningJog h
      exact MoveClosed.ite (fun _ => hJ.before.removeReason hjog .mode) fun _ => hJ.before.addReason hjog .mode
  exact MoveClosed.ite (fun _ => hJ.after.trans htaken (hJ.after.frees _ _)) fun _ => htaken

end Judges

namespace Calm

variable {R : State → State → Prop} (hc : Calm t R)
include hc

/-- One relation of calm steps serves before and after an evaluation. -/
theorem judges {st : Station} (hst : st.train = t) : Judges t st R R s s where
  before := hc
  after := hc
  evaluate := fun b hb => by
    obtain ⟨u, r⟩ := st
    obtain rfl : u = t := hst
    cases r with
    | feeder => exact hc.trans hb (hc.evaluates b)
    | crusher => exact hc.evaluate hb

omit hc in
/-- A power reading judged for a trip, after what its latch takes (R142). -/
theorem judgePowerTrip {power : Nat}
    (hset : R s ((a.modSupervisor t fun v => { v with tripCause := true }).setLatch t .powerTrip (some (.power power))))
    (hend : ∀ b, R s b → R s (b.endTripCause t)) (h : R s a) : R s (a.judgePowerTrip t power) := by
  have hbegun := MoveClosed.ite
    (p := (!(a.supervisor t).tripCause && decide ((a.crusher t).tripLevel ≤ power)) = true) (fun _ => hset) fun _ => h
  exact MoveClosed.ite (fun _ => hend _ hbegun) fun _ => hbegun

/-- A START setting reported, after it is written (R2). -/
theorem writeStart {st : Station} (hst : st.train = t) {n : Nat}
    (h : R s (a.modStation st fun r => { r with standing := Standing.start n })) :
    R s (a.writeStanding st (Standing.start n)) := by
  obtain ⟨u, r⟩ := st
  obtain rfl : u = t := hst
  refine MoveClosed.ite (fun _ => h) fun _ => ?_
  cases r with
  | feeder =>
    obtain ⟨hholds, -⟩ := (a.governor u).rejudged_keeps { a.governor u with base := n }
    have hsame : ((a.modStation ⟨u, .feeder⟩ fun r => { r with standing := Standing.start n }).governor u) =
      a.governor u := State.modStation_governor_read ..
    refine hc.trans h (hc.governor _ _ ?_ ?_) <;>
    · rw [hsame]
      exact congrArg _ hholds
  | crusher => exact hc.retarget h

/-! ### Presence (R23, R24) -/

/-- The Supervisor of an absent train, where its latches are free (R145). -/
theorem superviseAbsent (htrips : ∀ a b : State, TripStep t a b → R a b) (h : R s a) : R s (a.superviseAbsent t) := by
  have hnormal := hc.trans h (htrips a _ (a.modSupervisor_tripStep t fun v =>
    { v with detectorActive := false, clearingTimer := none, relief := .normal, overloadTimer := none, history := [] }))
  have hfreed := hc.removeHold (c := .relief) (hc.removeReason hnormal .relief) (by decide) (by decide)
  have hended {b : State} {p : Prop} [Decidable p] (hb : R s b) : R s (if p then b.causeEnd .relief (.crusher t) else b) :=
    MoveClosed.ite (fun _ => hc.causeEnd hb (by decide) _) fun _ => hb
  have hload {b : State} {p : Prop} [Decidable p] (hb : R s b) : R s (if p then b.endOverload t else b) :=
    MoveClosed.ite (fun _ => hc.endOverload hb) fun _ => hb
  have htrip {b : State} {p : Prop} [Decidable p] (hb : R s b) : R s (if p then b.endTripCause t else b) :=
    MoveClosed.ite (fun _ => hc.trans hb (htrips _ _ (State.endTripCause_tripStep _ t))) fun _ => hb
  have hlatch {b : State} {p : Prop} [Decidable p] (hb : R s b) : R s (if p then b.endLatchCause t .repeatedRelief else b) :=
    MoveClosed.ite (fun _ => hc.trans hb (htrips _ _ (State.endLatchCause_ends _ t .repeatedRelief).tripStep)) fun _ => hb
  exact hlatch (htrip (hload (hc.evaluate (hended hfreed))))

/-- A train made absent, after its modes are taken. -/
theorem makeAbsent (hgap : ∀ (b : State) (f : GapMeasurement → GapMeasurement), R b (b.modGap t f))
    (habsent : ∀ b, R s b → R s (b.superviseAbsent t))
    (h : R s ((a.enterMode (feederOf t) .outOfService).enterMode (crusherOf t) .outOfService)) : R s (a.makeAbsent t) := by
  have hlost := hc.trans h (hgap _ fun g =>
      { g with validity := .notValid, recovery := none, gap := none, faultStanding := false })
  have hended {b : State} {p : Prop} [Decidable p] (hb : R s b) :
      R s (if p then b.causeEnd .positionFault (.crusher t) else b) :=
    MoveClosed.ite (fun _ => hc.causeEnd hb (by decide) _) fun _ => hb
  have hlevel {b : State} (hb : R s b) : R s (if (b.governor t).holds.level then b.removeLevel t else b) :=
    MoveClosed.ite (fun _ => hc.removeLevel hb) fun _ => hb
  have hzero {b : State} (hb : R s b) : R s (if (b.zero t).valid then b else b.causeEnd .zeroUnset (.crusher t)) :=
    MoveClosed.ite (fun _ => hb) fun _ => hc.causeEnd hb (by decide) _
  exact hzero (hc.evaluate (hc.trans (hlevel (habsent _ (hended (hc.addReason hlost .position)))) (hc.evaluates _)))

theorem takeLevels (h : R s a) (honset : ∀ b, R s b → R s (b.reliefOnset t)) :
    R s ((a.takeLevel (.running t)).takeLevel (.reliefSwitch t)) := by
  have hrunning : R s (a.takeLevel (.running t)) := by
    unfold State.takeLevel
    split
    · exact h
    · exact hc.runningChanged h _
  generalize a.takeLevel (.running t) = b at *
  unfold State.takeLevel
  split
  · exact hrunning
  · exact MoveClosed.ite (fun _ => hc.reliefSwitchChanged hrunning honset) fun _ => hrunning

/-- A train made present, after its modes are taken. -/
theorem makePresent (hgap : ∀ (b : State) (f : GapMeasurement → GapMeasurement), R b (b.modGap t f))
    (hstarts : ∀ (b : State) (st : Station) (n : Nat), st.train = t →
      R b (b.modStation st fun r => { r with standing := Standing.start n }))
    (honset : ∀ b, R s b → R s (b.reliefOnset t))
    (h : R s ((a.enterMode (feederOf t) .maintenance).enterMode (crusherOf t) .maintenance)) : R s (a.makePresent t) := by
  have hstart {b : State} (hb : R s b) {st : Station} (hst : st.train = t) (n : Nat) :
      R s (b.writeStanding st (Standing.start n)) := hc.writeStart hst (hc.trans hb (hstarts b st n hst))
  have hsettings := hstart (hstart h (st := feederOf t) rfl 0) (st := crusherOf t) rfl
    (((a.enterMode (feederOf t) .maintenance).enterMode (crusherOf t) .maintenance).writeStanding (feederOf t)
      (Standing.start 0) |>.crusher t).gapMax
  have happlied := hc.trans (hc.trans hsettings
    (hc.record _ (feederOf t) (fun r => { r with lastApplied := none }) rfl rfl rfl rfl rfl))
    (hc.record _ (crusherOf t) (fun r => { r with lastApplied := none }) rfl rfl rfl rfl rfl)
  have hlevels := hc.takeLevels (hc.trans happlied (hgap _ fun g =>
    { g with validity := .notValid, recovery := none, gap := none, faultStanding := false, firstReadingDue := true })) honset
  exact MoveClosed.ite (fun _ => hlevels) fun _ => hc.onset hlevels (by decide) _ _

end Calm

/-! ### Steps that may break a law for a while -/

/-- A relation that composes and holds of every step on a train's records but those of its trip latches. -/
structure Open (t : Train) (R : State → State → Prop) : Prop extends Calm t R where
  gap : ∀ (a : State) (f : GapMeasurement → GapMeasurement), R a (a.modGap t f)
  zero : ∀ (a : State) (f : ZeroRecord → ZeroRecord), R a (a.modZero t f)
  mode : ∀ (a : State) (st : Station) (m : Mode), st.train = t → R a (a.modStation st fun r => { r with mode := m })
  starts : ∀ (a : State) (st : Station) (n : Nat), st.train = t →
    R a (a.modStation st fun r => { r with standing := Standing.start n })
  timeOut : ∀ a : State, (a.positioner t).state = .driving ∨ (a.positioner t).state = .deadTime →
    R a (a.modPositioner t (Positioner.timeOut a.now))
  leaves : ∀ a : State, (a.positioner t).state = .fault → R a (a.modPositioner t fun p => { p with state := .suspended })

namespace Open

variable {R : State → State → Prop} (hc : Open t R)
include hc

theorem becomeValid (h : R s a) (gap : Option Nat) : R s (a.becomeValid t gap) :=
  (hc.judges rfl).becomeValid (fun f n _ => hc.trans (hc.trans h (hc.gap a f)) (hc.starts _ _ n rfl)) (hc.trans h (hc.gap a _))

theorem moveTimerExpiry (h : R s a) : R s (a.moveTimerExpiry t) :=
  (hc.judges rfl).moveTimerExpiry (fun hstate => hc.trans h (hc.timeOut a hstate)) h

theorem acceptTouch (h : R s a) (contact : Nat) : R s (a.acceptTouch t contact) :=
  (hc.judges rfl).acceptTouch (fun f => hc.trans h (hc.zero a f)) contact

theorem positionOutside (h : R s a) : R s (a.positionOutside t) :=
  (hc.judges rfl).positionOutside (hc.trans h (hc.gap a _))

theorem clearFault (h : R s a) : R s (a.clearFault t) :=
  (hc.judges rfl).clearFault (fun hfault => hc.trans h (hc.leaves a hfault)) h

theorem enterMode (h : R s a) {st : Station} (hst : st.train = t) (m : Mode) : R s (a.enterMode st m) :=
  (hc.judges hst).enterMode hst (hc.trans h (hc.mode a st m hst)) fun _ => hc.trans h (hc.mode a st m hst)

/-- A train made absent, after its Supervisor's part is known. -/
theorem makeAbsent (habsent : ∀ b, R s b → R s (b.superviseAbsent t)) (h : R s a) : R s (a.makeAbsent t) :=
  hc.toCalm.makeAbsent hc.gap habsent
    (hc.enterMode (hc.enterMode h (st := feederOf t) rfl .outOfService) (st := crusherOf t) rfl .outOfService)

/-- A train made present, after what a relief onset does is known. -/
theorem makePresent (honset : ∀ b, R s b → R s (b.reliefOnset t)) (h : R s a) : R s (a.makePresent t) :=
  hc.toCalm.makePresent hc.gap hc.starts honset
    (hc.enterMode (hc.enterMode h (st := feederOf t) rfl .maintenance) (st := crusherOf t) rfl .maintenance)

end Open

/-! ### Every step on a train -/

/-- A relation that composes and holds of every step on a train's records. -/
structure TrainClosed (t : Train) (R : State → State → Prop) : Prop extends Open t R where
  trips : ∀ a b : State, TripStep t a b → R a b

namespace TrainClosed

variable {R : State → State → Prop} (hc : TrainClosed t R)
include hc

theorem reliefOnset (h : R s a) : R s (a.reliefOnset t) :=
  (hc.judges rfl).reliefOnset (hc.trans h (hc.trips a _ (a.reliefBegun_tripStep t)))

theorem clearingExpiry (h : R s a) : R s (a.clearingExpiry t) :=
  (hc.judges rfl).clearingExpiry (fun _ => hc.trans h (hc.trips a _ (a.restoring_tripStep t))) h

theorem judgePowerTrip (h : R s a) (power : Nat) : R s (a.judgePowerTrip t power) :=
  Calm.judgePowerTrip
    (hc.trans (hc.trans h (hc.trips a _ (a.modSupervisor_tripStep t fun v => { v with tripCause := true })))
      (hc.trips _ _ (State.setLatch_sets _ t .powerTrip (some (.power power))).tripStep))
    (fun b hb => hc.trans hb (hc.trips _ _ (b.endTripCause_tripStep t))) h

theorem superviseAbsent (h : R s a) : R s (a.superviseAbsent t) := hc.toCalm.superviseAbsent hc.trips h

theorem makeAbsent (h : R s a) : R s (a.makeAbsent t) := hc.toOpen.makeAbsent (fun _ => hc.superviseAbsent) h

theorem makePresent (h : R s a) : R s (a.makePresent t) := hc.toOpen.makePresent (fun _ => hc.reliefOnset) h

theorem judgePresence (h : R s a) (before : Quad Bool) : R s (a.judgePresence before t) := by
  unfold State.judgePresence
  split
  · exact hc.makeAbsent h
  · exact hc.makePresent h
  all_goals exact h

theorem ackOwner (h : R s a) (code : Code) : R s (a.ackOwner code t) := by
  unfold State.ackOwner
  split
  · exact hc.trans h (hc.trips _ _ (a.ackLatch_tripStep t _))
  · exact hc.trans h (hc.trips _ _ (a.ackLatch_tripStep t _))
  · exact hc.clearFault h
  · exact hc.trans h (hc.zero _ _)
  · exact hc.trans h (hc.zero _ _)
  all_goals exact h

end TrainClosed

end Sys2Proof.Machine
end

section
/-! PROOFS. Every command is a run of acts: guarded steps and blocks that each keep the laws of the state. A law that
every act keeps is kept by every step of the part. -/

namespace Sys2Proof.Machine

variable {a b s : State} {t : Train} {l : Link}

/-- A relation of states that composes and holds of every act of the blocks. -/
structure Acts (R : State → State → Prop) : Prop where
  calm : ∀ t : Train, Calm t R
  link : ∀ (a : State) (l : Link) (f : LinkInterface → LinkInterface), R a (a.modLink l f)
  restart : ∀ (a : State) (x : RestartPhase), R a (a.withRestart x)
  time : ∀ (a : State) (x : TimeBase), x.seconds = a.time.seconds → x.millis = a.time.millis → R a (a.withTime x)
  inputs : ∀ (a : State) (x : FieldInputs), R a (a.withInputs x)
  lentAsked : ∀ (a : State) (t : Train) (d : Direction), a.sequencer.subject = some t →
    R a (a.modPositioner t fun p => p.askDrive a.now (a.crusher t).deadTime d (a.crusher t).creepDuty)
  begins : ∀ (a : State) (t : Train), a.deadTimeDue t = true → R a (a.modPositioner t Positioner.beginPending)
  jogs : ∀ (a : State) (t : Train) (j : Jog), a.isSubject t = false → (a.positioner t).state ≠ .fault →
    R a (a.modPositioner t fun p => { p with jog := some j, state := .jogging })
  jogAsked : ∀ (a : State) (t : Train) (d : Direction) (u : Nat), (a.positioner t).state = .jogging →
    R a (a.modPositioner t fun p => p.askDrive a.now (a.crusher t).deadTime d u)
  startTouch : ∀ (a : State) (t : Train), a.present t = true → a.sequencer.state = .idle →
    a.touchPossible t = true → R a (a.startTouch t)
  acceptTouch : ∀ (a : State) (t : Train) (contact : Nat), a.isSubject t = true → R a (a.acceptTouch t contact)
  moveTimerExpiry : ∀ (a : State) (t : Train), R a (a.moveTimerExpiry t)
  reliefOnset : ∀ (a : State) (t : Train), R a (a.reliefOnset t)
  clearingExpiry : ∀ (a : State) (t : Train), R a (a.clearingExpiry t)
  judgePowerTrip : ∀ (a : State) (t : Train) (power : Nat), R a (a.judgePowerTrip t power)
  positionOutside : ∀ (a : State) (t : Train), R a (a.positionOutside t)
  becomeValid : ∀ (a : State) (t : Train) (gap : Option Nat), (a.gap t).validity ≠ .valid → R a (a.becomeValid t gap)
  enterMode : ∀ (a : State) (st : Station) (m : Mode), a.isBusy st = false → R a (a.enterMode st m)
  acknowledge : ∀ (a : State) (code : Code) (sub : Subject), R a (a.acknowledge code sub)
  acknowledgeAll : ∀ a : State, R a a.ownAcknowledgeAll.state
  trains : ∀ (a : State) (q : Quad Bool), a.leavesOutSubject q = false → R a (a.storeTrains q)
  freed : ∀ (a : State) (i : Nat), R a (a.freeSlot i)
  releases : ∀ (a : State) (st : Station), R a (a.releaseStanding st)
  decides : ∀ (a : State) (st : Station) (q : SettingRequest), R a (a.decideSetting st q).state
  second : ∀ a : State, R a a.secondBoundary
  crusherParam : ∀ (a : State) (t : Train) (n : CrusherParam) (v : Nat), n ≠ .deadTime →
    R a (a.withCrusher t ((a.crusher t).put n v))
  feederParam : ∀ (a : State) (t : Train) (n : FeederParam) (v : Nat), R a (a.withFeeder t ((a.feeder t).put n v))
  lineParam : ∀ (a : State) (n : LineParam) (v : Nat), n ≠ .trainsPresent → R a (a.withLine (a.line.put n v))

/-- A DEAD_TIME written, and the reply given. -/
def State.deadTimeWritten (a : State) (t : Train) (v : Nat) (l : Link) (f : LinkInterface → LinkInterface) : State :=
  (a.withCrusher t ((a.crusher t).put .deadTime v)).modLink l f

/-- A request taken: a run of acts, or one that ends with a DEAD_TIME written. -/
def TakenBy (R : State → State → Prop) (s b : State) : Prop :=
  R s b ∨ ∃ a t v l f, R s a ∧ b = a.deadTimeWritten t v l f

/-- The events that have fallen due, but for the start that a RESTART waits for. -/
def State.settling (s : State) : State := s.settleCounts.settleInputs.settleTimers.settleLinks

namespace Acts

variable {R : State → State → Prop} (hA : Acts R)
include hA

theorem trans {c : State} (h : R a b) (k : R b c) : R a c := (hA.calm .t0).trans h k

theorem refl (a : State) : R a a := (hA.calm .t0).refl a

omit hA in
/-- A block of one train taken for the four trains. -/
theorem forTrains {f : Train → State → State} (hf : ∀ t a, R s a → R s (f t a)) (h : R s a) : R s (a.forTrains f) :=
  hf _ _ (hf _ _ (hf _ _ (hf _ _ h)))

omit hA in
/-- One kind of expiry taken for the four trains. -/
theorem expiries {f : State → Train → State} (hf : ∀ t a, R s a → R s (f a t)) (h : R s a) :
    R s (a.forTrains fun t s => f s t) := forTrains (f := fun t s => f s t) hf h

omit hA in
theorem foldl {α : Type} {f : State → α → State} (hf : ∀ x a, R s a → R s (f a x)) (xs : List α) (h : R s a) :
    R s (xs.foldl f a) := by
  induction xs generalizing a with
  | nil => exact h
  | cons x xs ih => exact ih (hf x a h)

theorem onset (h : R s a) {code : Code} (hcode : code.cls ≠ .trip) (sub : Subject) (d : Option Detail) :
    R s (a.onset code sub d) := (hA.calm .t0).onset h hcode sub d

theorem causeEnd (h : R s a) {code : Code} (hcode : code.cls ≠ .trip) (sub : Subject) : R s (a.causeEnd code sub) :=
  (hA.calm .t0).causeEnd h hcode sub

/-! ### The store -/

theorem writeCompleted (h : R s a) (success : Bool) : R s (a.writeCompleted success) := by
  have hstore (x : Store) := hA.trans h ((hA.calm .t0).store a x)
  unfold State.writeCompleted
  split
  · exact h
  · exact MoveClosed.ite (fun _ => (hA.calm .t0).startWrite (hA.causeEnd (hstore _) (by decide) _))
      fun _ => hA.onset (hstore _) (by decide) _ _

/-! ### Drives and touches -/

theorem driveBegan (h : R s a) : R s a.driveBegan :=
  MoveClosed.ite (fun _ => hA.trans h ((hA.calm .t0).sequencer a _ rfl Iff.rfl)) fun _ => h

theorem deadTimeExpiry (h : R s a) : R s (a.deadTimeExpiry t) := by
  refine MoveClosed.ite (fun hdue => ?_) fun _ => h
  have hbegun := hA.trans h (hA.begins a t hdue)
  exact MoveClosed.ite (fun _ => hA.driveBegan hbegun) fun _ => hbegun

theorem askLent (h : R s a) (d : Direction) (hsub : a.sequencer.subject = some t) : R s (a.askLent t d) := by
  have hasked := hA.trans h (hA.lentAsked a t d hsub)
  exact MoveClosed.ite (fun _ => hA.driveBegan hasked) fun _ => hasked

theorem dwellExpiry (h : R s a) : R s a.dwellExpiry := by
  unfold State.dwellExpiry
  split
  · exact h
  · next u hsub =>
    refine MoveClosed.ite (fun hdue => ?_) fun _ => h
    have hstate : a.sequencer.state = .dwell := by
      simp only [Bool.and_eq_true, decide_eq_true_eq] at hdue
      exact hdue.1
    split
    · exact h
    · exact hA.askLent (hA.trans h ((hA.calm .t0).sequencer a _ rfl (by simp [hstate]))) _ hsub

theorem abortRunning (h : R s a) (r : TouchResult) : R s (a.abortRunning r) := by
  unfold State.abortRunning
  split
  · exact h
  · next u hsub => exact (hA.calm u).abortTouch h (decide_eq_true hsub) r

theorem timeLimitExpiry (h : R s a) : R s a.timeLimitExpiry := by
  unfold State.timeLimitExpiry
  split
  · exact h
  · next u hsub => exact MoveClosed.ite (fun _ => (hA.calm u).abortTouch h (decide_eq_true hsub) _) fun _ => h

theorem rejectTouch (h : R s a) (contact : Nat) : R s (a.rejectTouch t contact) := by
  have hreported (f : ZeroRecord → ZeroRecord) (hf : ∀ z, (f z).valid = z.valid) :=
    hA.causeEnd (hA.onset (hA.trans h ((hA.calm t).notes a f (hf _))) (code := .zeroRejected) (by decide) (.crusher t) none)
      (code := .zeroRejected) (by decide) (.crusher t)
  exact hreported _ fun _ => rfl

omit hA in
theorem acceptTouch_sequencer (a : State) (t : Train) (contact : Nat) :
    (a.acceptTouch t contact).sequencer = a.sequencer := by
  have hmoves (x : State) : ((x.removeReason t .noZero).evaluate (crusherOf t)).sequencer = x.sequencer := by
    have hrest := ((State.removeReason_moves x t .noZero).evaluate).rest
    exact (congrArg State.sequencer hrest :)
  have hmark (x : State) (sec : StoreSection) : (x.mark sec).sequencer = x.sequencer := by
    rw [State.mark_eq_withStore]
    rfl
  have hlimit (x : State) (stood : Bool) : (x.judgeWearLimit t stood).sequencer = x.sequencer := by
    unfold State.judgeWearLimit
    dsimp only
    split
    · rfl
    · split <;> rfl
  have hzero (x : State) (p : Prop) [Decidable p] :
      (if p then x else x.causeEnd .zeroUnset (.crusher t)).sequencer = x.sequencer := by
    split <;> rfl
  unfold State.acceptTouch
  dsimp only
  rw [hlimit, hzero, hmoves, hmark, hmark]
  rfl

theorem commitTouch (h : R s a) (hsub : a.isSubject t = true) (hstate : a.sequencer.state = .backoff) (contact : Nat) :
    R s (a.commitTouch t contact) := by
  have hcommit := hA.trans h ((hA.calm t).sequencer a (fun q => { q with state := .commit }) rfl (by simp [hstate]))
  refine MoveClosed.ite (fun _ => ?_) fun _ => ?_
  · exact (hA.calm t).mark (hA.trans (hA.rejectTouch hcommit contact) ((hA.calm t).endTouch _ hsub)) _
  · refine hA.trans (hA.trans hcommit (hA.acceptTouch _ t contact hsub)) ((hA.calm t).endTouch _ ?_)
    rw [State.isSubject, acceptTouch_sequencer]
    exact hsub

theorem judgeBackoff (h : R s a) (position : Nat) : R s (a.judgeBackoff t position) := by
  unfold State.judgeBackoff
  refine MoveClosed.ite (fun hback => ?_) fun _ => h
  obtain ⟨hsub, hstate⟩ : a.isSubject t = true ∧ a.sequencer.state = .backoff := by simpa using hback
  split
  · exact MoveClosed.ite (fun _ => hA.commitTouch h hsub hstate _) fun _ => h
  · exact h

/-! ### Readings and inputs -/

theorem positionInside (h : R s a) (position : Nat) : R s (a.positionInside t position) := by
  unfold State.positionInside
  dsimp only
  split
  · next hv => exact hA.trans h (hA.becomeValid a t _ (by simp [hv]))
  · next hv =>
    exact (hA.calm t).takeFirstReading (hA.trans h ((hA.calm t).measures a _ (.inr ⟨by simp [hv], by simp⟩)))
      (State.accepting_of_validity (by simp))
  · next hv =>
    exact (hA.calm t).takeFirstReading (hA.trans h ((hA.calm t).measures a _ (.inl rfl)))
      (State.accepting_of_validity (by simp [hv]))
  · exact hA.trans h ((hA.calm t).measures a _ (.inl rfl))

theorem positionArrival (h : R s a) (reading : Option (BitVec 16)) : R s (a.positionArrival t reading) := by
  have hout {x : State} (hx : R s x) := (hA.calm t).judgeJog (hA.trans hx (hA.positionOutside x t))
  unfold State.positionArrival
  cases reading with
  | none => exact MoveClosed.ite (fun _ => h) fun _ => hout h
  | some p =>
    have hkept := hA.trans h (hA.inputs a { a.inputs with position := a.inputs.position.set t (some p.toNat) })
    exact MoveClosed.ite (fun _ => hkept) fun _ => MoveClosed.ite
      (fun _ => hA.judgeBackoff ((hA.calm t).judgeJog (hA.positionInside hkept _)) _)
      fun _ => hA.judgeBackoff (hout hkept) _

theorem recoveryExpiry (h : R s a) : R s (a.recoveryExpiry t) := by
  unfold State.recoveryExpiry
  split
  · exact h
  · refine MoveClosed.ite (fun hdue => hA.trans h (hA.becomeValid a t _ ?_)) fun _ => h
    simp only [Bool.and_eq_true, decide_eq_true_eq] at hdue
    simp [hdue.1]

theorem onsets (t : Train) : ∀ b, R s b → R s (b.reliefOnset t) := fun b hb => hA.trans hb (hA.reliefOnset b t)

theorem pressureArrival (h : R s a) (loop : LoopReading) : R s (a.pressureArrival t loop) := by
  have hkept := hA.trans h (hA.inputs a { a.inputs with
    pressure := a.inputs.pressure.set t (some (analogOf loop (a.crusher t).pressureSpan)) })
  exact MoveClosed.ite (fun _ => (hA.calm t).judgeContact ((hA.calm t).judgePressure hkept (hA.onsets t) _) _)
    fun _ => hkept

theorem powerArrival (h : R s a) (loop : LoopReading) : R s (a.powerArrival t loop) := by
  have hkept := hA.trans h (hA.inputs a { a.inputs with
    power := a.inputs.power.set t (some (analogOf loop (a.crusher t).powerSpan)) })
  exact MoveClosed.ite (fun _ => (hA.calm t).judgeLoad
    (hA.trans ((hA.calm t).judgeOverload hkept _) (hA.judgePowerTrip _ t _)) _) fun _ => hkept

theorem surgeLevelArrival (h : R s a) (loop : LoopReading) : R s (a.surgeLevelArrival loop) := by
  have hkept := hA.trans h (hA.inputs a { a.inputs with surge := some (analogOf loop 1000) })
  exact forTrains (f := State.judgeLevel (analogOf loop 1000).scaled) (fun t _ ha => (hA.calm t).judgeLevel ha _) hkept

theorem conveyorCondition (h : R s a) {code : Code} (hcode : code.cls ≠ .trip) (running : Bool) :
    R s (a.conveyorCondition code running) :=
  MoveClosed.ite (fun _ => hA.causeEnd h hcode _) fun _ => hA.onset h hcode _ _

theorem deliverChange (h : R s a) (i : DigitalInput) (level : Bool) : R s (a.deliverChange i level) := by
  cases i with
  | running t => exact (hA.calm t).runningChanged h level
  | reliefSwitch t => exact MoveClosed.ite (fun _ => (hA.calm t).reliefSwitchChanged h (hA.onsets t)) fun _ => h
  | surgeConveyor => exact hA.conveyorCondition ((hA.calm .t0).conveyorHold h level) (by decide) level
  | productConveyor =>
    exact hA.conveyorCondition ((hA.calm .t3).conveyorHold ((hA.calm .t2).conveyorHold
      ((hA.calm .t1).conveyorHold h level) level) level) (by decide) level

theorem digitalChange (h : R s a) (i : DigitalInput) : R s (a.digitalChange i) :=
  MoveClosed.ite (fun _ => hA.deliverChange (hA.trans h (hA.inputs a _)) i _) fun _ => h

theorem estopAssert (h : R s a) : R s a.estopAssert := by
  refine MoveClosed.ite (fun _ => hA.onset (hA.abortRunning ?_ _) (by decide) _ _) fun _ => h
  exact expiries (f := fun b t => b.addHold t .estop) (fun t _ ha => (hA.calm t).addHold ha (by decide) (by decide))
    (expiries (f := fun b t => b.addReason t .estop) (fun t _ ha => (hA.calm t).addReason ha _)
      (hA.trans h (hA.inputs a { a.inputs with estop := a.inputs.estop.changed })))

theorem estopRelease (h : R s a) : R s a.estopRelease := by
  refine MoveClosed.ite (fun _ => hA.causeEnd ?_ (by decide) _) fun _ => h
  exact expiries (f := fun b t => b.removeHold t .estop) (fun t _ ha => (hA.calm t).removeHold ha (by decide) (by decide))
    (expiries (f := fun b t => b.removeReason t .estop) (fun t _ ha => (hA.calm t).removeReason ha _)
      (hA.trans h (hA.inputs a { a.inputs with estop := a.inputs.estop.changed })))

/-! ### The board -/

theorem keepLapse (h : R s a) (st : Station) : R s (a.keepLapse st) :=
  MoveClosed.ite (fun _ => hA.trans h (hA.releases a st)) fun _ => h

theorem waitExpiry (h : R s a) (i : Nat) : R s (a.waitExpiry i) :=
  MoveClosed.ite (fun _ => hA.trans h (hA.freed a i)) fun _ => h

/-! ### Requests -/

theorem lockLink (h : R s a) : R s (a.lockLink l) := hA.onset (hA.trans h (hA.link a l _)) (by decide) _ _

theorem unlockLink (h : R s a) : R s (a.unlockLink l) := by
  have hunlocked := hA.trans h (hA.link a l fun i => { i with locked := false })
  exact MoveClosed.ite (fun _ => hA.causeEnd hunlocked (by decide) _) fun _ => hunlocked

omit hA in
theorem decision {p : Prop} [Decidable p] {d e : Decision} (hd : p → R s d.state) (he : ¬p → R s e.state) :
    R s (if p then d else e).state := by
  split
  · next hp => exact hd hp
  · next hp => exact he hp

theorem judged (h : R s a) {kind : Kind} {ok : Bool} {owner : State → Decision}
    (howner : ∀ b, R s b → R s (owner b).state) : R s (a.judged l kind ok owner).state :=
  decision (fun _ => h) fun _ => decision (fun _ => hA.lockLink h) fun _ => decision (fun _ => h) fun _ => howner a h

theorem takeRequest (h : R s a) {tag : Byte} {kind : Kind} {ok : Bool} {owner : State → Decision}
    (howner : ∀ b, R s b → R s (owner b).state) : R s (a.takeRequest l tag kind ok owner) :=
  MoveClosed.ite (fun _ => hA.trans (hA.judged (hA.trans h (hA.link a l _)) howner) (hA.link _ l _)) fun _ => h

omit hA in
theorem withPresent (h : R s a) {n : Byte} {f : Station → Decision}
    (hf : ∀ st, a.present st.train = true → R s (f st).state) : R s (a.withPresent n f).state := by
  unfold State.withPresent
  split
  · exact h
  · exact decision (hf _) fun _ => h

omit hA in
theorem withPresentCrusher (h : R s a) {n : Byte} {f : Train → Decision}
    (hf : ∀ t, a.present t = true → R s (f t).state) : R s (a.withPresentCrusher n f).state := by
  unfold State.withPresentCrusher
  refine withPresent h fun st hst => ?_
  split
  · exact h
  · exact hf _ hst

theorem ownSetting (h : R s a) (role : Role) (q : SettingRequest) : R s (a.ownSetting role q).state :=
  withPresent h fun st _ => decision (fun _ => h) fun _ => decision (fun _ => hA.lockLink h) fun _ =>
    hA.trans (hA.keepLapse h st) (hA.decides _ st q)

theorem ownWithdraw (h : R s a) (l : Link) (n : Byte) : R s (a.ownWithdraw l n).state := by
  refine withPresent h fun st _ => ?_
  have hfreed := hA.trans h ((hA.calm .t0).frees a (Slot.isOf l st))
  exact MoveClosed.ite (fun _ => hA.trans hfreed (hA.releases _ st)) fun _ => hfreed

theorem ownSetMode (h : R s a) (n m : Byte) : R s (a.ownSetMode n m).state :=
  withPresent h fun st _ => decision (fun _ => h) fun hbusy => decision (fun _ => h) fun _ =>
    hA.trans h (hA.enterMode a st _ (by simpa using hbusy))

theorem startJog (h : R s a) (hsub : a.isSubject t = false) (hfault : (a.positioner t).state ≠ .fault)
    (d : Direction) (u r : Nat) : R s (a.startJog t d u r) := by
  have hjog := hA.trans h (hA.jogs a t ⟨d, u, r⟩ hsub hfault)
  have hstate : ((a.modPositioner t fun p => { p with jog := some ⟨d, u, r⟩, state := .jogging }).positioner t).state =
      .jogging := by simp
  exact MoveClosed.ite (fun _ => (hA.calm t).endJog hjog hstate) fun _ => hA.trans hjog (hA.jogAsked _ t d u hstate)

theorem ownJog (h : R s a) (n d : Byte) (u r : Half) : R s (a.ownJog n d u r).state :=
  withPresentCrusher h fun t _ => decision (fun _ => h) fun hsub => decision (fun _ => h) fun _ =>
    decision (fun _ => h) fun hbarred => hA.startJog h (by simpa using hsub)
      (by simp only [State.jogBarred, Bool.or_eq_true, decide_eq_true_eq, not_or] at hbarred; exact hbarred.1.1) _ _ _

theorem ownStartZero (h : R s a) (n : Byte) : R s (a.ownStartZero n).state :=
  withPresentCrusher h fun t ht => decision (fun _ => h) fun hidle => decision (fun _ => h) fun hposs =>
    hA.trans h (hA.startTouch a t ht (by simpa using hidle) (by simpa using hposs))

theorem ownAbortZero (h : R s a) (n : Byte) : R s (a.ownAbortZero n).state :=
  withPresentCrusher h fun t _ => decision (fun _ => h) fun hsub => (hA.calm t).abortTouch h (by simpa using hsub) _

theorem ownAcknowledge (h : R s a) (code sub : Byte) : R s (a.ownAcknowledge code sub).state := by
  unfold State.ownAcknowledge
  split
  · exact h
  · split
    · exact h
    · exact hA.trans h (hA.acknowledge a _ _)

/-! ### Parameters (R20, R21) -/

/-- A standing target brought within limits just written, and reported (R21). -/
theorem clampStanding (h : R s a) (st : Station) : R s (a.clampStanding st) := by
  have hclamped (n : Nat) := hA.trans h ((hA.calm st.train).record a st
    (fun r => { r with standing := { (a.station st).standing with target := n } }) rfl rfl rfl rfl rfl)
  obtain ⟨u, r⟩ := st
  refine MoveClosed.ite (fun _ => hclamped _) fun _ => ?_
  cases r with
  | feeder =>
    have hheld (n : Nat) : ((a.governor u).setBase n).holds = (a.governor u).holds :=
      ((a.governor u).rejudged_keeps { a.governor u with base := n }).1
    have hsame (f : StationRecord → StationRecord) : (a.modStation ⟨u, .feeder⟩ f).governor u = a.governor u :=
      State.modStation_governor_read ..
    refine hA.trans (hclamped _) ((hA.calm u).governor _ _ ?_ ?_) <;>
    · rw [hsame]
      exact congrArg _ (hheld _)
  | crusher => exact (hA.calm u).retarget (hclamped _)

theorem storeCrusher (h : R s a) {n : CrusherParam} (hn : n ≠ .deadTime) (v : Nat) : R s (a.storeCrusher t n v) := by
  have hput := hA.trans h (hA.crusherParam a t n v hn)
  cases n with
  | gapMin | gapMax => exact hA.clampStanding hput _
  | wearLimit => exact (hA.calm t).judgeWearLimit hput _
  | _ => exact hput

theorem storeFeeder (h : R s a) (n : FeederParam) (v : Nat) : R s (a.storeFeeder t n v) := by
  have hput := hA.trans h (hA.feederParam a t n v)
  cases n with
  | rateMin | rateMax => exact hA.clampStanding hput _
  | trimLimit =>
    exact hA.trans hput ((hA.calm t).governor (a.withFeeder t ((a.feeder t).put .trimLimit v)) (fun g =>
      { g with trim := clampTrim ((a.withFeeder t ((a.feeder t).put .trimLimit v)).feeder t).trimLimit g.trim }) rfl rfl)
  | _ => exact hput

theorem storeLine (h : R s a) {n : LineParam} {v : Nat} (hbusy : a.paramBusy (.line n) v = false) :
    R s (a.storeLine n v) := by
  cases n with
  | trainsPresent => exact hA.trans h (hA.trains a _ (by simpa [State.paramBusy] using hbusy))
  | surgeLow | surgeResume | surgeSlow | surgeHigh => exact hA.trans h (hA.lineParam a _ v (by decide))

/-- A write of a parameter other than a DEAD_TIME. -/
theorem storeParam (h : R s a) {p : Param} (hp : ∀ t, p ≠ .crusher t .deadTime) {v : Nat}
    (hbusy : a.paramBusy p v = false) : R s (a.storeParam p v) := by
  cases p with
  | crusher t n => exact hA.storeCrusher h (fun hn => hp t (by rw [hn])) v
  | feeder t n => exact hA.storeFeeder h n v
  | line n => exact hA.storeLine h hbusy

/-- A write that has named its parameter is a run of acts, or a DEAD_TIME written. -/
theorem writeParam (h : R s a) (p : Param) (v : Nat) :
    R s (a.writeParam p v).state ∨
      ∃ t n, (a.writeParam p v).state = a.withCrusher t ((a.crusher t).put .deadTime n) := by
  unfold State.writeParam
  by_cases hrefused : p.range.defined v = false ∨ a.paramModeOk p = false ∨ a.paramBusy p v = true
  · left
    refine decision (fun _ => h) fun hdefined => decision (fun _ => h) fun hmode => decision (fun _ => h) fun hbusy => ?_
    simp_all
  · simp only [not_or, Bool.not_eq_false, Bool.not_eq_true] at hrefused
    obtain ⟨hdefined, hmode, hbusy⟩ := hrefused
    simp only [hdefined, hmode, hbusy, Bool.not_true, Bool.false_eq_true, if_false]
    by_cases hp : ∃ t, p = .crusher t .deadTime
    · obtain ⟨t, rfl⟩ := hp
      exact .inr ⟨t, _, rfl⟩
    · refine .inl (hA.storeParam h (fun t ht => hp ⟨t, ht⟩) ?_)
      rcases p with ⟨t, n⟩ | ⟨t, n⟩ | n
      · exact hbusy
      · exact hbusy
      · cases n <;> exact hbusy

theorem ownSetParameter (h : R s a) (set number : Byte) (v : Half) :
    R s (a.ownSetParameter set number v).state ∨
      ∃ t n, (a.ownSetParameter set number v).state = a.withCrusher t ((a.crusher t).put .deadTime n) := by
  unfold State.ownSetParameter State.withParam
  split
  · exact .inl h
  · split
    · exact .inl h
    · exact hA.writeParam h _ _

end Acts

end Sys2Proof.Machine
end

section
/-! PROOFS. The commands as runs of acts: requests and frames, the events that fall due, the boundaries and the starts. -/

namespace Sys2Proof.Machine

variable {a b c s t : State} {l : Link}

/-- What a command does: a run of acts, which a DEAD_TIME written may end, a start, a loss of power, or a millisecond
boundary. -/
inductive Ends (R : State → State → Prop) (s : State) : State → Prop where
  | taken {t : State} (h : TakenBy R s t) : Ends R s t
  | starts (store : Store) (stamp : Stamp) : Ends R s (startFrom store stamp s.pending)
  | lost : Ends R s s.lossOfPower
  | ticks (x : Samples) : Ends R s (s.millisecondBoundary x)

namespace Acts

variable {R : State → State → Prop} (hA : Acts R)
include hA

theorem takenBy_trans (h : R s a) (k : TakenBy R a b) : TakenBy R s b := by
  rcases k with k | ⟨x, t, v, l, f, hx, rfl⟩
  · exact .inl (hA.trans h k)
  · exact .inr ⟨x, t, v, l, f, hA.trans h hx, rfl⟩

/-! ### Requests -/

/-- A SET PARAMETER taken: the write ends it, and the reply is given. -/
theorem takeSetParameter (h : R s a) (l : Link) (tag set number : Byte) (v : Half) :
    TakenBy R s (a.takeSetParameter l tag set number v) := by
  unfold State.takeSetParameter State.takeRequest
  split
  · have hbegun : R s (a.replyBegins l) := hA.trans h (hA.link a l fun i => { i with replyPending := true })
    have hlink {b : State} (hb : R s b) (f : LinkInterface → LinkInterface) : TakenBy R s (b.modLink l f) :=
      .inl (hA.trans hb (hA.link b l f))
    by_cases howned : ((a.replyBegins l).link l).locked = false ∧ Kind.setParameter.allowed l = true
    · obtain ⟨hunlocked, hallowed⟩ := howned
      have hjudged : (a.replyBegins l).judged l .setParameter true (State.ownSetParameter set number v) =
          (a.replyBegins l).ownSetParameter set number v := by
        simp [State.judged, hunlocked, hallowed]
      rw [hjudged]
      rcases hA.ownSetParameter hbegun set number v with hacts | ⟨u, n, hwritten⟩
      · exact hlink hacts _
      · refine .inr ⟨a.replyBegins l, u, n, l, fun i =>
        { i with reply := replyFrame tag Kind.setParameter.code (State.ownSetParameter set number v (a.replyBegins l)).answer },
        hbegun, ?_⟩
        rw [Decision.reply, hwritten]
        rfl
    · refine hlink ?_ _
      unfold State.judged
      refine decision (fun _ => hbegun) fun hlocked => decision (fun _ => hA.lockLink hbegun) fun hallowed => absurd ?_ howned
      simpa [Kind.isRead] using And.intro hlocked hallowed
  · exact .inl h

theorem takeCommand (h : R s a) (i : Instr) : TakenBy R s (a.takeCommand i) := by
  have hreads {l : Link} {tag : Byte} {k : Kind} {owner : State → Decision} (howner : ∀ b, (owner b).state = b) :
      TakenBy R s (a.takeRequest l tag k true owner) :=
    .inl (hA.takeRequest h fun b hb => by rwa [howner b])
  cases i with
  | setGap => exact .inl (hA.takeRequest h fun _ hb => hA.ownSetting hb _ _)
  | setRate => exact .inl (hA.takeRequest h fun _ hb => hA.ownSetting hb _ _)
  | withdraw => exact .inl (hA.takeRequest h fun _ hb => hA.ownWithdraw hb _ _)
  | setMode => exact .inl (hA.takeRequest h fun _ hb => hA.ownSetMode hb _ _)
  | setParameter => exact hA.takeSetParameter h _ _ _ _ _
  | jog => exact .inl (hA.takeRequest h fun _ hb => hA.ownJog hb _ _ _ _)
  | startZero => exact .inl (hA.takeRequest h fun _ hb => hA.ownStartZero hb _)
  | abortZero => exact .inl (hA.takeRequest h fun _ hb => hA.ownAbortZero hb _)
  | acknowledge => exact .inl (hA.takeRequest h fun _ hb => hA.ownAcknowledge hb _ _)
  | acknowledgeAll => exact .inl (hA.takeRequest h fun b hb => hA.trans hb (hA.acknowledgeAll b))
  | saveProfile => exact .inl (hA.takeRequest h fun _ hb => (hA.calm .t0).mark hb _)
  | restart => exact .inl (hA.takeRequest h fun b hb => hA.trans hb (hA.restart b _))
  | setClock => exact .inl (hA.takeRequest h fun b hb => hA.trans hb (hA.time b _ rfl rfl))
  | clearLock => exact .inl (hA.takeRequest h fun _ hb => hA.unlockLink hb)
  | readStation l tag n =>
    refine hreads fun b => ?_
    unfold State.ownReadStation
    split <;> rfl
  | readWaiting => exact hreads fun _ => rfl
  | readConditions => exact hreads fun _ => rfl
  | readParameter l tag set n =>
    refine hreads fun b => ?_
    unfold State.ownReadParameter State.withParam
    split
    · rfl
    · split <;> rfl
  | readZeroRecord l tag n =>
    refine hreads fun b => ?_
    unfold State.ownReadZeroRecord
    split
    · rfl
    · split <;> rfl
  | readClock => exact hreads fun _ => rfl
  | _ => exact .inl h

/-! ### Frames -/

theorem takeFrame (h : R s a) (tag k : Byte) (body : List Byte) : TakenBy R s (a.takeFrame l tag k body) := by
  unfold State.takeFrame
  split
  · have hbegun : R s (a.replyBegins l) := hA.trans h (hA.link a l fun i => { i with replyPending := true })
    exact .inl (hA.trans hbegun (hA.link (a.replyBegins l) l fun i =>
      { i with reply := replyFrame tag k (Answer.refuse .format) }))
  · exact hA.takeCommand h _

omit hA in
theorem takenBy_ite {p : Prop} [Decidable p] (h : TakenBy R s a) (k : TakenBy R s b) :
    TakenBy R s (if p then a else b) := by
  split
  · exact h
  · exact k

theorem completeFrame (h : R s a) (bytes : List Byte) : TakenBy R s (a.completeFrame l bytes) := by
  unfold State.completeFrame
  split
  · exact takenBy_ite (.inl h) (takenBy_ite (.inl h) (hA.takeFrame h _ _ _))
  · exact .inl h

theorem receiving (h : R s a) (r : Option Receiving) : R s (a.receiving l r) := hA.trans h (hA.link a l _)

theorem frameByte (h : R s a) (bytes : List Byte) : TakenBy R s (a.frameByte l bytes) := by
  unfold State.frameByte
  split
  · exact takenBy_ite (.inl (hA.receiving h _)) (.inl (hA.receiving h _))
  · exact takenBy_ite (hA.completeFrame (hA.receiving h _) _) (.inl (hA.receiving h _))
  · exact .inl (hA.receiving h _)

theorem interByteGap (h : R s a) (l : Link) : R s (a.interByteGap l) :=
  MoveClosed.ite (fun _ => hA.receiving h _) fun _ => h

theorem linkByte (h : R s a) (x : Byte) : TakenBy R s (a.linkByte l x) := by
  have hgap := hA.interByteGap h l
  refine takenBy_ite ?_ (.inl h)
  unfold State.takeByte
  split
  · exact takenBy_ite (hA.frameByte hgap _) (.inl hgap)
  · exact hA.frameByte hgap _

theorem replySent (h : R s a) (l : Link) : R s (a.replySent l) := by
  have hsent := hA.trans h (hA.link a l fun i => { i with replyPending := false })
  exact MoveClosed.ite (fun _ => MoveClosed.ite (fun _ => hA.trans hsent (hA.restart _ _)) fun _ => hsent) fun _ => h

/-! ### Boundaries -/

theorem settleCounts (h : R s a) : R s a.settleCounts :=
  foldl (f := State.waitExpiry) (fun i _ hb => hA.waitExpiry hb i) _
    (foldl (f := State.keepLapse) (fun st _ hb => hA.keepLapse hb st) _ (hA.trans h (hA.second a)))

theorem settleInputs (h : R s a) : R s a.settleInputs :=
  hA.estopRelease (hA.estopAssert (foldl (f := State.digitalChange) (fun i _ hb => hA.digitalChange hb i) _ h))

theorem settleTimers (h : R s a) : R s a.settleTimers := by
  have h1 := expiries (f := State.recoveryExpiry) (fun _ _ hb => hA.recoveryExpiry hb) h
  have h2 := expiries (f := State.clearingExpiry) (fun t b hb => hA.trans hb (hA.clearingExpiry b t)) h1
  have h3 := expiries (f := State.overloadDelayExpiry) (fun t _ hb => (hA.calm t).overloadDelayExpiry hb) h2
  have h4 := hA.timeLimitExpiry (hA.dwellExpiry h3)
  have h5 := expiries (f := State.drainExpiry) (fun t _ hb => (hA.calm t).drainExpiry hb) h4
  have h6 := expiries (f := State.deadTimeExpiry) (fun _ _ hb => hA.deadTimeExpiry hb) h5
  have h7 := expiries (f := State.moveTimerExpiry) (fun t b hb => hA.trans hb (hA.moveTimerExpiry b t)) h6
  have h8 := expiries (f := State.sampleExpiry) (fun t _ hb => (hA.calm t).sampleExpiry hb) h7
  have h9 := expiries (f := State.jogTimeEnd) (fun t _ hb => (hA.calm t).jogTimeEnd hb) h8
  have h10 := expiries (f := State.wearStep) (fun t _ hb => (hA.calm t).wearStep hb) h9
  exact expiries (f := State.updateExpiry) (fun t _ hb => (hA.calm t).updateExpiry hb) h10

theorem settling (h : R s a) : R s a.settling :=
  hA.interByteGap (hA.interByteGap (hA.interByteGap (hA.settleTimers (hA.settleInputs (hA.settleCounts h))) .lc) .op) .sv

theorem sampleInputs (h : R s a) (x : Samples) : R s (a.sampleInputs x) := by
  have hfirst : R s (DigitalInput.all.foldl State.firstLevel (a.withInputs (a.inputs.sampled x))) :=
    foldl (f := State.firstLevel) (fun i _ hb => MoveClosed.ite (fun _ => hA.digitalChange hb i) fun _ => hb) _
      (hA.trans h (hA.inputs a _))
  exact MoveClosed.ite (fun _ => hA.estopRelease (hA.estopAssert hfirst)) fun _ => hfirst

theorem countLoadeds (h : R s a) : R s (a.forTrains State.countLoaded) :=
  forTrains (f := State.countLoaded) (fun t _ hb => (hA.calm t).countLoaded hb) h

/-! ### Every command -/

omit hA in
theorem whenPowered {f : State → State} (hr : R s s) (hf : R s (f s)) (h : s.whenPowered f = .next t) :
    TakenBy R s t := by
  simp only [State.whenPowered, Host.Outcome.next.injEq] at h
  subst h
  exact .inl (MoveClosed.ite (fun _ => hf) fun _ => hr)

/-- Every command is a run of acts, with its end. -/
theorem exec_ends {i : Instr} (h : exec i s = .next t) : Ends R s t := by
  have hr := hA.refl s
  have powered {f : State → State} (h : s.whenPowered f = .next t) (hf : R s (f s)) : Ends R s t :=
    .taken (whenPowered hr hf h)
  cases hf : encodeRequest i with
  | some f =>
    rw [exec_request hf s, State.whenPowered, Host.Outcome.next.injEq] at h
    subst h
    exact .taken (takenBy_ite (hA.takeCommand hr i) (.inl hr))
  | none =>
    cases i with
    | powerOn => exact Host.Outcome.next.inj h ▸ .starts s.store.cutShort ⟨0, false⟩
    | restartStart =>
      rw [exec_restartStart, State.whenPowered, Host.Outcome.next.injEq] at h
      subst h
      unfold State.restartStart
      split
      · split
        · exact .starts s.store s.stamp
        · exact .taken (.inl hr)
      · exact .taken (.inl hr)
    | millisecondBoundary x =>
      rw [exec_millisecondBoundary, State.whenPowered, Host.Outcome.next.injEq] at h
      subst h
      split
      · exact .ticks x
      · exact .taken (.inl hr)
    | lossOfPower =>
      rw [exec_lossOfPower, State.whenPowered, Host.Outcome.next.injEq] at h
      subst h
      split
      · exact .lost
      · exact .taken (.inl hr)
    | linkByteReceived m x =>
      rw [exec_linkByteReceived, State.whenPowered, Host.Outcome.next.injEq] at h
      subst h
      exact .taken (takenBy_ite (hA.linkByte hr x) (.inl hr))
    | secondBoundary => exact powered (f := fun s => s.secondBoundary) h (hA.second s)
    | keepLapse st => exact powered (f := fun s => s.keepLapse st) h (hA.keepLapse hr st)
    | waitExpiry i => exact powered (f := fun s => s.waitExpiry i) h (hA.waitExpiry hr i)
    | digitalChange i => exact powered (f := fun s => s.digitalChange i) h (hA.digitalChange hr i)
    | estopAssert => exact powered (f := fun s => s.estopAssert) h (hA.estopAssert hr)
    | estopRelease => exact powered (f := fun s => s.estopRelease) h (hA.estopRelease hr)
    | positionArrival u r => exact powered (f := fun s => s.positionArrival u r) h (hA.positionArrival hr r)
    | recoveryExpiry u => exact powered (f := fun s => s.recoveryExpiry u) h (hA.recoveryExpiry hr)
    | pressureArrival u r => exact powered (f := fun s => s.pressureArrival u r) h (hA.pressureArrival hr r)
    | powerArrival u r => exact powered (f := fun s => s.powerArrival u r) h (hA.powerArrival hr r)
    | surgeLevelArrival r => exact powered (f := fun s => s.surgeLevelArrival r) h (hA.surgeLevelArrival hr r)
    | overloadDelayExpiry u => exact powered (f := fun s => s.overloadDelayExpiry u) h ((hA.calm u).overloadDelayExpiry hr)
    | clearingExpiry u => exact powered (f := fun s => s.clearingExpiry u) h (hA.clearingExpiry s u)
    | sampleExpiry u => exact powered (f := fun s => s.sampleExpiry u) h ((hA.calm u).sampleExpiry hr)
    | drainExpiry u => exact powered (f := fun s => s.drainExpiry u) h ((hA.calm u).drainExpiry hr)
    | deadTimeExpiry u => exact powered (f := fun s => s.deadTimeExpiry u) h (hA.deadTimeExpiry hr)
    | moveTimerExpiry u => exact powered (f := fun s => s.moveTimerExpiry u) h (hA.moveTimerExpiry s u)
    | jogTimeEnd u => exact powered (f := fun s => s.jogTimeEnd u) h ((hA.calm u).jogTimeEnd hr)
    | dwellExpiry => exact powered (f := fun s => s.dwellExpiry) h (hA.dwellExpiry hr)
    | timeLimitExpiry => exact powered (f := fun s => s.timeLimitExpiry) h (hA.timeLimitExpiry hr)
    | wearStep u => exact powered (f := fun s => s.wearStep u) h ((hA.calm u).wearStep hr)
    | updateExpiry u => exact powered (f := fun s => s.updateExpiry u) h ((hA.calm u).updateExpiry hr)
    | storeWriteComplete ok => exact powered (f := fun s => s.writeCompleted ok) h (hA.writeCompleted hr ok)
    | interByteGap m => exact powered (f := fun s => s.interByteGap m) h (hA.interByteGap hr m)
    | replySent m => exact powered (f := fun s => s.replySent m) h (hA.replySent hr m)
    | setGap | setRate | withdraw | setMode | setParameter | jog | startZero | abortZero
    | acknowledge | acknowledgeAll | saveProfile | restart | setClock | clearLock | readStation
    | readWaiting | readConditions | readParameter | readZeroRecord | readClock => simp [encodeRequest] at hf

end Acts

/-! ### Laws that every act keeps -/

/-- What a law that every act keeps needs beside: the writes of DEAD_TIME, the starts, the loss of power and the tick. -/
structure Kept (law : State → Prop) : Prop where
  acts : Acts fun a b => law a → law b
  waits : ∀ a u v, law a → law (a.withCrusher u ((a.crusher u).put .deadTime v))
  starts : ∀ store stamp q, law (startFrom store stamp q)
  lost : ∀ s : State, law s.lossOfPower
  ticks : ∀ a : State, law a → law (a.withTime a.time.advance).tickOutputs
  queue : ∀ (a : State) (q : List Instr), law a → law (a.withPending q)

namespace Kept

variable {law : State → Prop} (hK : Kept law)
include hK

theorem settle (h : law s) : law s.settle := by
  show law (if s.settling.restartDue then startFrom s.settling.store s.settling.stamp s.settling.pending else s.settling)
  split
  · exact hK.starts _ _ _
  · exact hK.acts.settling (hK.acts.refl s) h

theorem millisecondBoundary (h : law s) (x : Samples) : law (s.millisecondBoundary x) := by
  have hticked := hK.ticks _ (hK.settle h)
  exact hK.acts.countLoadeds (hK.acts.sampleInputs (hK.acts.refl _) x) hticked

/-- A law kept by the acts is kept by every step. -/
theorem step (h : step s = .next t) (h0 : law s) : law t := by
  have hends {a : State} (ha : law a) {i : Instr} (h : exec i a = .next t) : law t := by
    cases hK.acts.exec_ends h with
    | taken h =>
      rcases h with h | ⟨b, u, v, l, f, hb, rfl⟩
      · exact h ha
      · exact hK.acts.link _ l f (hK.waits b u v (hb ha))
    | starts => exact hK.starts _ _ _
    | lost => exact hK.lost _
    | ticks x => exact hK.millisecondBoundary ha x
  unfold Machine.step at h
  split at h
  · exact Host.Outcome.next.inj h ▸ h0
  · exact hends (hK.queue s _ h0) h

end Kept

end Sys2Proof.Machine
end

section
/-! PROOFS. What an operation on one train leaves of the rest of the part: the other trains' records, the parameters, the
inputs, the links and the time. -/

namespace Sys2Proof.Machine

variable {a b c s : State} {t u : Train}

/-! ### The evaluation of a feeder's predicate, in its cases (R8) -/

/-- The accepting predicate of a feeder evaluated, before a selection that it brings (R8). -/
def State.feederEvaluated (s : State) (u : Train) : State :=
  s.modStation (feederOf u) fun r => { r with lastAccepting := s.accepting (feederOf u) }

/-- An evaluation of a feeder's predicate selects nothing, or applies the best slot and sets the base rate. -/
theorem State.evaluate_feeder_cases (s : State) (u : Train) :
    (s.evaluate (feederOf u) = s.feederEvaluated u ∧
      (s.accepting (feederOf u) = true → (s.station (feederOf u)).lastAccepting = false → ∀ i r,
        bestSlot (feederOf u) 0 s.board.slots = some (i, r) →
          outranks r.priority r.sequence (s.station (feederOf u)).standing = false)) ∨
    ∃ i r, bestSlot (feederOf u) 0 s.board.slots = some (i, r) ∧
      outranks r.priority r.sequence (s.station (feederOf u)).standing = true ∧
      s.accepting (feederOf u) = true ∧ (s.station (feederOf u)).lastAccepting = false ∧
      (s.evaluate (feederOf u) = (s.feederEvaluated u).fed u i r ∨
        s.evaluate (feederOf u) = ((s.feederEvaluated u).fed u i r).modGovernor u fun g =>
          g.setBase (s.limited (feederOf u) r.value)) := by
  have hboard : (s.feederEvaluated u).board = s.board := State.modStation_board ..
  have hstanding : ((s.feederEvaluated u).station (feederOf u)).standing = (s.station (feederOf u)).standing := by
    rw [State.feederEvaluated, State.station_modStation]
  have heval : s.evaluate (feederOf u) =
      if s.accepting (feederOf u) && !(s.station (feederOf u)).lastAccepting then
        (s.feederEvaluated u).selectWith State.retarget (feederOf u) else s.feederEvaluated u := rfl
  rw [heval]
  by_cases hrises : s.accepting (feederOf u) = true ∧ (s.station (feederOf u)).lastAccepting = false
  · obtain ⟨hacc, hlast⟩ := hrises
    rw [if_pos (by simp [hacc, hlast]), State.selectWith, hboard, hstanding]
    cases hb : bestSlot (feederOf u) 0 s.board.slots with
    | none => exact .inl ⟨rfl, nofun⟩
    | some p =>
      obtain ⟨i, r⟩ := p
      dsimp only
      by_cases ho : outranks r.priority r.sequence (s.station (feederOf u)).standing = true
      · refine .inr ⟨i, r, rfl, ho, hacc, hlast, ?_⟩
        rw [if_pos ho, State.applyWith, State.writeStandingWith, bestSlot_station hb]
        dsimp only
        split
        · exact .inl rfl
        · exact .inr rfl
      · rw [if_neg ho]
        refine .inl ⟨rfl, fun _ _ j q hj => ?_⟩
        obtain ⟨-, rfl⟩ := Prod.mk.inj (Option.some.inj hj)
        exact Bool.eq_false_iff.mpr ho
  · rw [if_neg (by simpa using hrises)]
    exact .inl ⟨rfl, fun hacc hlast => absurd ⟨hacc, hlast⟩ hrises⟩

theorem State.fed_board (s : State) (u : Train) (i : Nat) (r : Slot) :
    (s.fed u i r).board = { s.board with slots := s.board.slots.set i none } := rfl

/-- The slots that wait after one is freed waited before it. -/
theorem mem_of_mem_set_none {slots : List (Option Slot)} {i : Nat} {r : Slot} (h : some r ∈ slots.set i none) :
    some r ∈ slots := (List.mem_or_eq_of_mem_set h).resolve_right (by simp)

theorem Board.mem_of_mem_freeWhere {x : Board} {gone : Slot → Bool} {r : Slot} (h : some r ∈ (x.freeWhere gone).slots) :
    some r ∈ x.slots ∧ gone r = false := by
  rw [Board.freeWhere_eq] at h
  obtain ⟨o, ho, hr⟩ := List.mem_map.mp h
  cases o with
  | none => cases hr
  | some q =>
    cases hgone : gone q with
    | false =>
      simp only [Option.any_some, hgone, Bool.false_eq_true, if_false, Option.some.injEq] at hr
      exact hr ▸ ⟨ho, hgone⟩
    | true => simp [hgone] at hr

theorem State.evaluate_feeder_slots (s : State) (u : Train) {r : Slot} (h : some r ∈ (s.evaluate (feederOf u)).board.slots) :
    some r ∈ s.board.slots := by
  have hboard : (s.feederEvaluated u).board = s.board := State.modStation_board ..
  rcases s.evaluate_feeder_cases u with ⟨he, -⟩ | ⟨i, q, -, -, -, -, he | he⟩
  · rwa [he, hboard] at h
  · rw [he, State.fed_board, hboard] at h
    exact mem_of_mem_set_none h
  · rw [he, State.modGovernor_board, State.fed_board, hboard] at h
    exact mem_of_mem_set_none h

/-! ### The rest of the part -/

/-- An operation on one train keeps the records of the others, and the part's parameters, inputs, links and time. -/
structure Elsewhere (t : Train) (a b : State) : Prop where
  rest : b = { a with
    feeders := b.feeders, crushers := b.crushers, board := b.board, gaps := b.gaps, positioners := b.positioners
    sequencer := b.sequencer, zeros := b.zeros, governors := b.governors, supervisors := b.supervisors
    conditions := b.conditions, store := b.store }
  others : a.othersKept b t
  slots : ∀ r, some r ∈ b.board.slots → some r ∈ a.board.slots

namespace Elsewhere

theorem refl (a : State) (t : Train) : Elsewhere t a a := ⟨rfl, .refl a t, fun _ h => h⟩

theorem trans (h : Elsewhere t a b) (k : Elsewhere t b c) : Elsewhere t a c :=
  ⟨by rw [k.rest, h.rest], h.others.trans k.others, fun r hr => h.slots r (k.slots r hr)⟩

theorem line (h : Elsewhere t a b) : b.line = a.line := by rw [h.rest]

theorem present (h : Elsewhere t a b) (u : Train) : b.present u = a.present u := by
  rw [State.present, h.line, State.present]

theorem crusher (h : Elsewhere t a b) (u : Train) : b.crusher u = a.crusher u := by
  rw [h.rest]
  rfl

theorem now (h : Elsewhere t a b) : b.now = a.now := by
  rw [h.rest]
  rfl

/-- A station of another train keeps its record. -/
theorem station (h : Elsewhere t a b) {st : Station} (hst : st.train ≠ t) : b.station st = a.station st := by
  obtain ⟨hfeeder, hcrusher, -⟩ := h.others st.train hst
  obtain ⟨u, r⟩ := st
  cases r
  · exact hfeeder
  · exact hcrusher

theorem accepting (h : Elsewhere t a b) {st : Station} (hst : st.train ≠ t) : b.accepting st = a.accepting st := by
  obtain ⟨-, -, hgap, hpositioner, hzero, -, hsupervisor⟩ := h.others st.train hst
  refine State.accepting_congr (h.present _) (by rw [h.station hst]) (by rw [hzero]) (by rw [hgap]) (by rw [hsupervisor])
    (by rw [hpositioner])

end Elsewhere

theorem State.modStation_elsewhere (s : State) {st : Station} (hst : st.train = t) (f : StationRecord → StationRecord) :
    Elsewhere t s (s.modStation st f) := by
  subst hst
  refine ⟨?_, s.othersKept_modStation st f, fun r h => by rwa [State.modStation_board] at h⟩
  obtain ⟨u, r⟩ := st
  cases r <;> rfl

theorem State.freeSlot_elsewhere (s : State) (t : Train) (i : Nat) : Elsewhere t s (s.freeSlot i) :=
  ⟨rfl, .refl s t, fun _ h => mem_of_mem_set_none h⟩

theorem elsewhere_moveClosed (t : Train) : MoveClosed t (Elsewhere t) where
  refl := fun a => .refl a t
  trans := Elsewhere.trans
  positioner := fun a f _ => ⟨rfl, a.othersKept_modPositioner t f, fun _ h => h⟩
  addGapMove := fun a => ⟨rfl, a.othersKept_modGovernor t _, fun _ h => h⟩
  removeGapMove := fun a => ⟨rfl, a.othersKept_modGovernor t _, fun _ h => h⟩
  episode := fun a _ => ⟨rfl, (a.othersKept_modSupervisor t fun v => { v with relief := .normal }).trans
    ((a.modSupervisor t fun v => { v with relief := .normal }).othersKept_modGovernor t fun g => g.release .relief),
    fun _ h => h⟩
  judged := fun a _ => a.modStation_elsewhere (st := crusherOf t) rfl _
  selected := fun a i r _ _ _ _ =>
    have hfreed := (a.modStation_elsewhere (st := crusherOf t) rfl fun r =>
      { r with lastAccepting := a.accepting (crusherOf t) }).trans ((a.evaluated t).freeSlot_elsewhere t i)
    have hnoted := hfreed.trans (State.modStation_elsewhere _ (st := crusherOf t) rfl fun rec =>
      { rec with lastApplied := some ⟨r.source, r.tag⟩ })
    hnoted.trans (State.modStation_elsewhere _ (st := crusherOf t) rfl _)

theorem elsewhere_trainClosed (t : Train) : TrainClosed t (Elsewhere t) where
  toMoveClosed := elsewhere_moveClosed t
  store := fun a x => ⟨rfl, .refl a t, fun _ h => h⟩
  reports := fun a f _ _ => ⟨rfl, .refl a t, fun _ h => h⟩
  sequencer := fun a f _ _ => ⟨rfl, .refl a t, fun _ h => h⟩
  governor := fun a f _ _ => ⟨rfl, a.othersKept_modGovernor t f, fun _ h => h⟩
  bars := fun a r => ⟨rfl, a.othersKept_modPositioner t _, fun _ h => h⟩
  measures := fun a f _ => ⟨rfl, a.othersKept_modGap t f, fun _ h => h⟩
  notes := fun a f _ => ⟨rfl, a.othersKept_modZero t f, fun _ h => h⟩
  supervises := fun a f _ _ _ => ⟨rfl, a.othersKept_modSupervisor t f, fun _ h => h⟩
  record := fun a st f hst _ _ _ _ => a.modStation_elsewhere hst f
  started := fun a st n hst _ => a.modStation_elsewhere hst _
  evaluates := fun a => by
    have heval := a.evaluate_feederEvaluates t
    exact ⟨by rw [heval.rest], heval.others, fun r h => a.evaluate_feeder_slots t h⟩
  frees := fun a gone => ⟨rfl, .refl a t, fun r h => (Board.mem_of_mem_freeWhere h).1⟩
  endTouch := fun a _ => ⟨rfl, (a.othersKept_modPositioner t (Positioner.returned a.now)).trans
    (State.othersKept_modGovernor _ t fun g => g.release .calibration), fun _ h => h⟩
  gap := fun a f => ⟨rfl, a.othersKept_modGap t f, fun _ h => h⟩
  zero := fun a f => ⟨rfl, a.othersKept_modZero t f, fun _ h => h⟩
  mode := fun a st m hst => a.modStation_elsewhere hst _
  starts := fun a st n hst => a.modStation_elsewhere hst _
  timeOut := fun a _ => ⟨rfl, a.othersKept_modPositioner t _, fun _ h => h⟩
  leaves := fun a _ => ⟨rfl, a.othersKept_modPositioner t _, fun _ h => h⟩
  trips := fun a b h => ⟨by rw [h.rest], h.others, fun r hr => by rwa [h.rest] at hr⟩

end Sys2Proof.Machine
end

section
/-! PROOFS. The law of the zero touch (R94, R98): one crusher at most is a subject, its drive alone is lent and its feeder
alone holds CALIBRATION, and a lost position, a relief or a mode never meets it. -/

namespace Sys2Proof.Machine

variable {a b c s : State} {t u : Train}

/-! ### A lent drive stays lent -/

theorem Positioner.askMove_state (p : Positioner) (now : Nat) (q : CrusherParams) (e : Int) :
    (p.askMove now q e).state = .driving ∨ (p.askMove now q e).state = .deadTime := by
  unfold Positioner.askMove
  dsimp only
  split
  · exact .inl rfl
  · exact .inr rfl

theorem Positioner.Step.lent_iff {now : Nat} {q : CrusherParams} {p p' : Positioner} (h : Positioner.Step now q p p') :
    p'.state = .lent ↔ p.state = .lent := by
  have hask (p : Positioner) (e : Int) : (p.askMove now q e).state ≠ .lent := by
    rcases p.askMove_state now q e with h | h <;> simp [h]
  cases h with
  | keeps state => rw [state]
  | asks e timer hstart =>
    have hne : p.state ≠ .lent := by
      rcases hstart with h | h | ⟨h, -⟩ <;> simp [h]
    exact iff_of_false (hask _ e) hne
  | drains timer hstart =>
    have hne : p.state ≠ .lent := by
      rcases hstart with h | h | ⟨h, -⟩ <;> simp [h]
    exact iff_of_false (by simp) hne
  | rests h => simp [h]
  | ends h => rcases h with h | h | h <;> simp [h, Positioner.ended]
  | endsJog h => simp [h]
  | steers e h =>
    refine iff_of_false ?_ (by simp [h])
    unfold Positioner.steer
    split
    · simp [h]
    · split
      · simp [h]
      · exact hask _ e
  | steersPending e h =>
    refine iff_of_false ?_ (by simp [h])
    unfold Positioner.steerPending
    split
    · simp [h]
    · split
      · simp [h]
      · exact hask _ e
  | without => rfl

theorem Positioner.suspend_lent (now : Nat) (p : Positioner) : (p.suspend now).state = .lent ↔ p.state = .lent := by
  unfold Positioner.suspend
  split <;> simp_all

theorem Positioner.barred_lent (now : Nat) (r : Reason) (p : Positioner) :
    (p.barred now r).state = .lent ↔ p.state = .lent := by
  unfold Positioner.barred
  split
  · next h => simp [h.2.1]
  · unfold Positioner.under
    split
    · rfl
    · dsimp only
      split
      · exact p.suspend_lent now
      · rfl

theorem Positioner.ask_state (p : Positioner) (now dead : Nat) (d : Direction) (u : Nat) :
    (p.ask now dead d u).state = p.state := by
  unfold Positioner.ask
  split <;> rfl

theorem Positioner.driveOff_state (now : Nat) (p : Positioner) : (p.driveOff now).state = p.state := by
  unfold Positioner.driveOff
  split <;> rfl

theorem Positioner.askDrive_state (p : Positioner) (now dead : Nat) (d : Direction) (u : Nat) :
    (p.askDrive now dead d u).state = p.state := by
  unfold Positioner.askDrive
  split
  · exact p.ask_state ..
  · split
    · rfl
    · rw [Positioner.ask_state, Positioner.driveOff_state]

theorem Positioner.beginPending_lent (p : Positioner) : p.beginPending.state = .lent ↔ p.state = .lent := by
  unfold Positioner.beginPending
  split
  · rfl
  · dsimp only
    split
    · next h => simp [h]
    · rfl

/-! ### The law, one train apart -/

/-- What a touch asks of its subject's crusher: present, in MAINTENANCE and NORMAL with a VALID position (R97). -/
def State.touchable (s : State) (u : Train) : Prop :=
  s.present u = true ∧ (s.station (crusherOf u)).mode = .maintenance ∧ (s.gap u).validity = .valid ∧
    (s.supervisor u).relief = .normal

/-- The law of the touch, but for what it asks of one train's crusher. -/
structure State.touchApart (t : Train) (s : State) : Prop where
  idle : s.sequencer.subject = none ↔ s.sequencer.state = .idle
  subject : ∀ u, u ≠ t → s.sequencer.subject = some u → s.touchable u
  lent : ∀ u, (s.positioner u).state = .lent ↔ s.sequencer.subject = some u
  calibration : ∀ u, (s.governor u).holds.calibration = true ↔ s.sequencer.subject = some u

theorem State.touchLawful_iff (t : Train) :
    s.touchLawful ↔ s.touchApart t ∧ (s.sequencer.subject = some t → s.touchable t) := by
  constructor
  · rintro ⟨hidle, hsubject, hlent⟩
    exact ⟨⟨hidle, fun u _ => hsubject u, fun u => (hlent u).1, fun u => (hlent u).2⟩, hsubject t⟩
  · rintro ⟨⟨hidle, hsubject, hlent, hcal⟩, ht⟩
    refine ⟨hidle, fun u hu => ?_, fun u => ⟨hlent u, hcal u⟩⟩
    by_cases hut : u = t
    · exact hut ▸ ht (hut ▸ hu)
    · exact hsubject u hut hu

theorem State.touchLawful_of_free (h : s.touchApart t) (hfree : s.sequencer.subject ≠ some t) : s.touchLawful :=
  (State.touchLawful_iff t).mpr ⟨h, fun hs => absurd hs hfree⟩

/-- An operation on a train keeps the law apart from that train, and leaves the subject or ends the touch. -/
structure TouchStep (t : Train) (a b : State) : Prop where
  law : a.touchApart t → b.touchApart t
  subject : b.sequencer.subject = a.sequencer.subject ∨ b.sequencer.subject = none

theorem TouchStep.refl (a : State) (t : Train) : TouchStep t a a := ⟨id, .inl rfl⟩

theorem TouchStep.trans (h : TouchStep t a b) (k : TouchStep t b c) : TouchStep t a c where
  law := fun ha => k.law (h.law ha)
  subject := by
    rcases k.subject with hk | hk
    · rw [hk]
      exact h.subject
    · exact .inr hk

/-- An operation on a train that leaves the Sequencer's subject, the lent drive and CALIBRATION keeps the law apart from
that train. -/
theorem TouchStep.of (he : Elsewhere t a b) (hsubject : b.sequencer.subject = a.sequencer.subject)
    (hidle : b.sequencer.state = .idle ↔ a.sequencer.state = .idle)
    (hlent : (b.positioner t).state = .lent ↔ (a.positioner t).state = .lent)
    (hcal : (b.governor t).holds.calibration = (a.governor t).holds.calibration) : TouchStep t a b where
  subject := .inl hsubject
  law := fun h => by
    refine ⟨by rw [hsubject, hidle, h.idle], fun u hu hs => ?_, fun u => ?_, fun u => ?_⟩
    · obtain ⟨hpresent, hmode, hvalid, hrelief⟩ := h.subject u hu (hsubject ▸ hs)
      obtain ⟨-, hstation, hgap, -, -, -, hsupervisor⟩ := he.others u hu
      exact ⟨(he.present u).trans hpresent, hstation ▸ hmode, hgap ▸ hvalid, hsupervisor ▸ hrelief⟩
    · rw [hsubject, ← h.lent u]
      by_cases hu : u = t
      · rw [hu, hlent]
      · obtain ⟨-, -, -, hpositioner, -⟩ := he.others u hu
        rw [hpositioner]
    · rw [hsubject, ← h.calibration u]
      by_cases hu : u = t
      · rw [hu, hcal]
      · obtain ⟨-, -, -, -, -, hgovernor, -⟩ := he.others u hu
        rw [hgovernor]

/-- An operation that moves a Positioner alone. -/
theorem TouchStep.positioner (a : State) {f : Positioner → Positioner}
    (hf : (f (a.positioner t)).state = .lent ↔ (a.positioner t).state = .lent) : TouchStep t a (a.modPositioner t f) :=
  .of ⟨rfl, a.othersKept_modPositioner t f, fun _ h => h⟩ rfl Iff.rfl (by rw [State.positioner_modPositioner]; exact hf) rfl

theorem TouchStep.governor (a : State) {f : Governor → Governor}
    (hf : (f (a.governor t)).holds.calibration = (a.governor t).holds.calibration) : TouchStep t a (a.modGovernor t f) :=
  .of ⟨rfl, a.othersKept_modGovernor t f, fun _ h => h⟩ rfl Iff.rfl Iff.rfl (by rw [State.governor_modGovernor]; exact hf)

theorem TouchStep.station (a : State) {st : Station} (hst : st.train = t) (f : StationRecord → StationRecord) :
    TouchStep t a (a.modStation st f) :=
  .of (a.modStation_elsewhere hst f) (by rw [State.modStation_sequencer]) (by rw [State.modStation_sequencer])
    (by rw [State.modStation_positioner_read]) (by rw [State.modStation_governor_read])

theorem Governor.hold_calibration (g : Governor) {c : Hold} (hc : c ≠ .calibration) :
    (g.hold c).holds.calibration = g.holds.calibration := by
  simpa [Holds.has, hc.symm] using (g.hold_keeps c).1 .calibration

theorem Governor.release_calibration (g : Governor) {c : Hold} (hc : c ≠ .calibration) :
    (g.release c).holds.calibration = g.holds.calibration := by
  simpa [Holds.has, hc.symm] using (g.release_keeps c).1 .calibration

theorem TouchStep.endTouch (h : a.isSubject t = true) : TouchStep t a (a.endTouch t) where
  subject := .inr rfl
  law := fun ha => by
    have hsub : a.sequencer.subject = some t := of_decide_eq_true h
    have hothers := (elsewhere_trainClosed t).endTouch a h
    have hother {u : Train} (hu : u ≠ t) : a.sequencer.subject ≠ some u := by
      rw [hsub]
      exact fun h => hu (Option.some.inj h).symm
    refine ⟨⟨fun _ => rfl, fun _ => rfl⟩, (nofun), fun u => iff_of_false ?_ nofun, fun u => iff_of_false ?_ nofun⟩
    · by_cases hu : u = t
      · subst hu
        rw [State.endTouch_eq]
        show ((a.positioners.set u _).get u).state ≠ _
        rw [Quad.get_set_self, Positioner.returned_eq]
        simp
      · obtain ⟨-, -, -, hpositioner, -⟩ := hothers.others u hu
        rw [hpositioner, ha.lent u]
        exact hother hu
    · by_cases hu : u = t
      · subst hu
        rw [State.endTouch_eq]
        show ¬((a.governors.set u _).get u).holds.calibration = true
        rw [Quad.get_set_self]
        simpa [Holds.has] using (a.governor u).release_has .calibration
      · obtain ⟨-, -, -, -, -, hgovernor, -⟩ := hothers.others u hu
        rw [hgovernor, ha.calibration u]
        exact hother hu

theorem touchStep_moveClosed (t : Train) : MoveClosed t (TouchStep t) where
  refl := fun a => .refl a t
  trans := TouchStep.trans
  positioner := fun a _ h => .positioner a h.lent_iff
  addGapMove := fun a => .governor a ((a.governor t).hold_calibration (by decide))
  removeGapMove := fun a => .governor a ((a.governor t).release_calibration (by decide))
  episode := fun a h => .of ((elsewhere_moveClosed t).episode a h) rfl Iff.rfl Iff.rfl
    ((congrArg (fun g => g.holds.calibration) (State.governor_modGovernor ..)).trans
      ((a.governor t).release_calibration (by decide)))
  judged := fun a _ => .station a (st := crusherOf t) rfl _
  selected := fun a i r _ _ _ _ =>
    have hfreed : TouchStep t (a.evaluated t) ((a.evaluated t).freeSlot i) :=
      .of ((a.evaluated t).freeSlot_elsewhere t i) rfl Iff.rfl Iff.rfl rfl
    (((TouchStep.station a (st := crusherOf t) rfl _).trans hfreed).trans (.station _ (st := crusherOf t) rfl _)).trans
      (.station _ (st := crusherOf t) rfl _)

theorem touchStep_trainClosed (t : Train) : TrainClosed t (TouchStep t) where
  toMoveClosed := touchStep_moveClosed t
  store := fun a x => .of ((elsewhere_trainClosed t).store a x) rfl Iff.rfl Iff.rfl rfl
  reports := fun a f h1 h2 => .of ((elsewhere_trainClosed t).reports a f h1 h2) rfl Iff.rfl Iff.rfl rfl
  sequencer := fun a f h1 h2 => .of ((elsewhere_trainClosed t).sequencer a f h1 h2) h1 h2 Iff.rfl rfl
  governor := fun a _ h _ => .governor a h
  bars := fun a r => .positioner a (Positioner.barred_lent ..)
  measures := fun a f h => .of ((elsewhere_trainClosed t).measures a f h) rfl Iff.rfl Iff.rfl rfl
  notes := fun a f h => .of ((elsewhere_trainClosed t).notes a f h) rfl Iff.rfl Iff.rfl rfl
  supervises := fun a f h1 h2 h3 => .of ((elsewhere_trainClosed t).supervises a f h1 h2 h3) rfl Iff.rfl Iff.rfl rfl
  record := fun a st f hst _ _ _ _ => .station a hst f
  started := fun a st n hst _ => .station a hst _
  evaluates := fun a => by
    have he := (elsewhere_trainClosed t).evaluates a
    have heval := a.evaluate_feederEvaluates t
    have hrest := heval.rest
    have hholds := heval.holds
    generalize a.evaluate (feederOf t) = b at *
    refine .of he ?_ ?_ ?_ (congrArg Holds.calibration hholds) <;> rw [hrest]
    rfl
  frees := fun a gone => .of ((elsewhere_trainClosed t).frees a gone) rfl Iff.rfl Iff.rfl rfl
  endTouch := fun _ => .endTouch
  gap := fun a f => .of ((elsewhere_trainClosed t).gap a f) rfl Iff.rfl Iff.rfl rfl
  zero := fun a f => .of ((elsewhere_trainClosed t).zero a f) rfl Iff.rfl Iff.rfl rfl
  mode := fun a _ _ hst => .station a hst _
  starts := fun a _ _ hst => .station a hst _
  timeOut := fun a h => .positioner a (iff_of_false (by simp [Positioner.timeOut]) (by rcases h with h | h <;> simp [h]))
  leaves := fun a h => .positioner a (by simp [h])
  trips := fun a b h => by
    have he := (elsewhere_trainClosed t).trips a b h
    have hcal := h.holds .calibration (by decide)
    have hrest := h.rest
    refine .of he ?_ ?_ ?_ hcal <;> rw [hrest]
    rfl

end Sys2Proof.Machine
end

section
/-! PROOFS. The law of the zero touch is kept by every step (R94, R98). -/

namespace Sys2Proof.Machine

variable {a b c s t : State} {u v : Train}

/-- The touch's law is kept. -/
def KeepsTouch (a b : State) : Prop := a.touchLawful → b.touchLawful

/-- What a touch asks of a train's crusher is kept where its mode, its position and NORMAL are. -/
theorem TouchStep.keeps (h : TouchStep u a b) (hpresent : b.present u = a.present u)
    (hmode : (b.station (crusherOf u)).mode = (a.station (crusherOf u)).mode)
    (hvalid : (a.gap u).validity = .valid → (b.gap u).validity = .valid)
    (hrelief : (a.supervisor u).relief = .normal → (b.supervisor u).relief = .normal) : KeepsTouch a b := by
  intro ha
  obtain ⟨hapart, hsubject⟩ := (State.touchLawful_iff u).mp ha
  refine (State.touchLawful_iff u).mpr ⟨h.law hapart, fun hs => ?_⟩
  rcases h.subject with hb | hb
  · obtain ⟨h1, h2, h3, h4⟩ := hsubject (hb ▸ hs)
    exact ⟨hpresent.trans h1, hmode.trans h2, hvalid h3, hrelief h4⟩
  · rw [hb] at hs
    cases hs

/-- An operation on a train that is no touch's subject. -/
theorem TouchStep.keeps_of_free (h : TouchStep u a b) (hfree : a.touchLawful → a.sequencer.subject ≠ some u) :
    KeepsTouch a b := by
  intro ha
  refine State.touchLawful_of_free (h.law ((State.touchLawful_iff u).mp ha).1) ?_
  rcases h.subject with hb | hb <;> rw [hb]
  · exact hfree ha
  · nofun

/-- An operation on a train that leaves it no touch's subject. -/
theorem TouchStep.keeps_of_ended (h : TouchStep u a b) (hfree : a.touchLawful → b.sequencer.subject ≠ some u) :
    KeepsTouch a b := fun ha =>
  State.touchLawful_of_free (h.law ((State.touchLawful_iff u).mp ha).1) (hfree ha)

theorem KeepsTouch.trans (h : KeepsTouch a b) (k : KeepsTouch b c) : KeepsTouch a c := fun ha => k (h ha)

theorem State.touchLawful.free_of_relief (h : a.touchLawful) (hr : (a.supervisor u).relief ≠ .normal) :
    a.sequencer.subject ≠ some u := fun hs => hr ((h.2.1 u hs).2.2.2)

theorem State.touchLawful.free_of_validity (h : a.touchLawful) (hv : (a.gap u).validity ≠ .valid) :
    a.sequencer.subject ≠ some u := fun hs => hv ((h.2.1 u hs).2.2.1)

theorem keepsTouch_moveClosed (u : Train) : MoveClosed u KeepsTouch where
  refl := fun _ h => h
  trans := KeepsTouch.trans
  positioner := fun a f h => ((touchStep_moveClosed u).positioner a f h).keeps rfl rfl id id
  addGapMove := fun a => ((touchStep_moveClosed u).addGapMove a).keeps rfl rfl id id
  removeGapMove := fun a => ((touchStep_moveClosed u).removeGapMove a).keeps rfl rfl id id
  episode := fun a h => ((touchStep_moveClosed u).episode a h).keeps rfl rfl id fun hn => by rw [hn] at h; cases h
  judged := fun a h => ((touchStep_moveClosed u).judged a h).keeps rfl (by rw [State.evaluated, State.station_modStation])
    id id
  selected := fun a i r h1 h2 h3 h4 => ((touchStep_moveClosed u).selected a i r h1 h2 h3 h4).keeps rfl
    (by rw [State.applied, State.station_modStation, State.station_modStation]; simp [State.freeSlot, State.evaluated]) id id

theorem KeepsTouch.station (a : State) {st : Station} (hst : st.train = u) {f : StationRecord → StationRecord}
    (hf : (f (a.station (crusherOf u))).mode = (a.station (crusherOf u)).mode ∨ st.role = .feeder) :
    KeepsTouch a (a.modStation st f) := by
  refine (TouchStep.station a hst f).keeps (State.modStation_present_read ..) ?_ (by rw [State.modStation_gap_read]; exact id)
    (by rw [State.modStation_supervisor_read]; exact id)
  obtain ⟨v, r⟩ := st
  obtain rfl : v = u := hst
  cases r with
  | feeder => rfl
  | crusher =>
    refine Eq.trans ?_ (hf.resolve_right nofun)
    exact congrArg StationRecord.mode (a.station_modStation (crusherOf v) f)

theorem keepsTouch_calm (u : Train) : Calm u KeepsTouch where
  toMoveClosed := keepsTouch_moveClosed u
  store := fun a x => ((touchStep_trainClosed u).store a x).keeps rfl rfl id id
  reports := fun a f h1 h2 => ((touchStep_trainClosed u).reports a f h1 h2).keeps rfl rfl id id
  sequencer := fun a f h1 h2 => ((touchStep_trainClosed u).sequencer a f h1 h2).keeps rfl rfl id id
  governor := fun a f h1 h2 => ((touchStep_trainClosed u).governor a f h1 h2).keeps rfl rfl id id
  bars := fun a r => ((touchStep_trainClosed u).bars a r).keeps rfl rfl id id
  measures := fun a f h => by
    have hstep := (touchStep_trainClosed u).measures a f h
    rcases h with h | ⟨h, -⟩
    · exact hstep.keeps rfl rfl (by rw [State.gap_modGap, h]; exact id) id
    · exact hstep.keeps_of_free fun ha => ha.free_of_validity h
  notes := fun a f h => ((touchStep_trainClosed u).notes a f h).keeps rfl rfl id id
  supervises := fun a f h1 h2 h3 => by
    have hstep := (touchStep_trainClosed u).supervises a f h1 h2 h3
    rcases h3 with h | ⟨h, -⟩
    · exact hstep.keeps rfl rfl id (by rw [State.supervisor_modSupervisor, h]; exact id)
    · exact hstep.keeps_of_free fun ha => ha.free_of_relief (by simp [h])
  record := fun a st f hst hmode _ _ _ => by
    obtain ⟨v, r⟩ := st
    obtain rfl : v = u := hst
    cases r with
    | feeder => exact .station a rfl (.inr rfl)
    | crusher => exact .station a rfl (.inl hmode)
  started := fun a st n hst _ => .station a hst (.inl rfl)
  evaluates := fun a => by
    have heval := a.evaluate_feederEvaluates u
    have hrest := heval.rest
    have hstep := (touchStep_trainClosed u).evaluates a
    generalize a.evaluate (feederOf u) = b at *
    refine hstep.keeps ?_ ?_ ?_ ?_ <;> rw [hrest]
    · rfl
    · rfl
    · exact id
    · exact id
  frees := fun a gone => ((touchStep_trainClosed u).frees a gone).keeps rfl rfl id id
  endTouch := fun a h => ((touchStep_trainClosed u).endTouch a h).keeps_of_ended fun _ => nofun

/-- An operation on a train that is no subject leaves it none. -/
theorem keepsTouch_of_step (h : TouchStep u a b) (hfree : a.isSubject u = false) : KeepsTouch a b :=
  h.keeps_of_free fun _ => of_decide_eq_false hfree

/-! ### The blocks -/

theorem State.onset_subject (a : State) (code : Code) (sub : Subject) (d : Option Detail) :
    (a.onset code sub d).sequencer = a.sequencer := rfl

/-- After an event that aborts a crusher's touch the crusher is no subject. -/
theorem State.abortIfSubject_free (a : State) (u : Train) (r : TouchResult) :
    (a.abortIfSubject u r).sequencer.subject ≠ some u := by
  unfold State.abortIfSubject
  split
  · rw [(a.abortTouch_aborts u r).rest]
    nofun
  · next hsub => simpa [State.isSubject] using hsub

theorem keepsTouch_reliefOnset (a : State) (u : Train) : KeepsTouch a (a.reliefOnset u) := by
  refine ((touchStep_trainClosed u).reliefOnset ((touchStep_trainClosed u).refl a)).keeps_of_ended fun _ => ?_
  exact State.abortIfSubject_free _ u .abortedRelief

theorem keepsTouch_positionOutside (a : State) (u : Train) : KeepsTouch a (a.positionOutside u) := by
  have hstep := (touchStep_trainClosed u).positionOutside ((touchStep_trainClosed u).refl a)
  by_cases hvalid : (a.gap u).validity = .valid
  · refine hstep.keeps_of_ended fun _ => ?_
    unfold State.positionOutside
    simp only [hvalid, if_true]
    split
    · exact State.abortIfSubject_free _ u _
    · rw [State.onset_subject]
      exact State.abortIfSubject_free _ u _
  · exact hstep.keeps_of_free fun ha => ha.free_of_validity hvalid

theorem keepsTouch_becomeValid (a : State) (u : Train) (gap : Option Nat) : KeepsTouch a (a.becomeValid u gap) :=
  ((keepsTouch_calm u).judges rfl).becomeValid
    (fun f _ hf => KeepsTouch.trans
      (((touchStep_trainClosed u).gap a f).keeps rfl rfl (fun _ => by rw [State.gap_modGap, hf]) id)
      (.station _ (st := crusherOf u) rfl (.inl rfl)))
    (((touchStep_trainClosed u).gap a _).keeps rfl rfl (fun _ => by rw [State.gap_modGap]) id)

theorem keepsTouch_judgePowerTrip (a : State) (u : Train) (power : Nat) : KeepsTouch a (a.judgePowerTrip u power) := by
  have hcause (x : State) (b : Bool) : KeepsTouch x (x.modSupervisor u fun v => { v with tripCause := b }) :=
    ((touchStep_trainClosed u).trips x _ (x.modSupervisor_tripStep u _)).keeps rfl rfl id
      (by rw [State.supervisor_modSupervisor]; exact id)
  refine Calm.judgePowerTrip ((hcause a true).trans ?_) (fun b hb => hb.trans ((hcause b false).trans ?_)) id
  · have hsets := (a.modSupervisor u fun v => { v with tripCause := true }).setLatch_sets u .powerTrip (some (.power power))
    have hstep := (touchStep_trainClosed u).trips _ _ hsets.tripStep
    have hrest := hsets.rest
    have hsupervisor := hsets.supervisor
    generalize (a.modSupervisor u fun v => { v with tripCause := true }).setLatch u .powerTrip (some (.power power)) = b at *
    refine hstep.keeps ?_ ?_ ?_ (by rw [hsupervisor]; exact id) <;> rw [hrest]
    · rfl
    · rfl
    · exact id
  · have hends := (b.modSupervisor u fun v => { v with tripCause := false }).endLatchCause_ends u .powerTrip
    have hstep := (touchStep_trainClosed u).trips _ _ hends.tripStep
    have hrest := hends.rest
    have hsupervisor := hends.supervisor
    rw [State.endTripCause]
    generalize (b.modSupervisor u fun v => { v with tripCause := false }).endLatchCause u .powerTrip = c at *
    refine hstep.keeps ?_ ?_ ?_ (by rw [hsupervisor]; exact id) <;> rw [hrest]
    · rfl
    · rfl
    · exact id

theorem keepsTouch_enterMode (a : State) (st : Station) (m : Mode) (hbusy : a.isBusy st = false) :
    KeepsTouch a (a.enterMode st m) := by
  obtain ⟨u, r⟩ := st
  cases r with
  | feeder =>
    exact ((keepsTouch_calm u).judges (st := ⟨u, .feeder⟩) rfl).enterMode rfl (.station a rfl (.inr rfl))
      fun _ => .station a rfl (.inr rfl)
  | crusher =>
    refine keepsTouch_of_step ((touchStep_trainClosed u).enterMode ((touchStep_trainClosed u).refl a)
      (st := ⟨u, .crusher⟩) rfl m) ?_
    simpa [State.isBusy] using hbusy

theorem keepsTouch_clearingExpiry (a : State) (u : Train) : KeepsTouch a (a.clearingExpiry u) := by
  by_cases hr : (a.supervisor u).relief = .clearing
  · exact ((touchStep_trainClosed u).clearingExpiry ((touchStep_trainClosed u).refl a)).keeps_of_free fun ha =>
      ha.free_of_relief (by simp [hr])
  · rw [State.clearingExpiry, if_neg (by simp [hr])]
    exact id

end Sys2Proof.Machine
end

section
/-! PROOFS. Settings applied and selected, in guarded steps; and the law of the zero touch is kept by every step. -/

namespace Sys2Proof.Machine

variable {a b c s t : State} {u v : Train} {st : Station}

/-! ### Settings applied and selected (R36, R42) -/

namespace Calm

variable {R : State → State → Prop} (hc : Calm u R)
include hc

/-- A request applied, after its setting is written. -/
theorem apply {r : Slot} (hst : r.station.train = u) (h : R s (a.given r)) : R s (a.apply r) := by
  subst hst
  rw [State.apply_eq]
  refine MoveClosed.ite (fun _ => h) fun _ => ?_
  split
  · refine hc.trans h (hc.governor _ _ ?_ ?_) <;>
    exact congrArg _ (Governor.rejudged_keeps ..).1
  · exact hc.retarget h

/-- A selection, after what the best slot is given. -/
theorem select (hst : st.train = u) (happlied : ∀ i r, bestSlot st 0 a.board.slots = some (i, r) →
    outranks r.priority r.sequence (a.station st).standing = true → R s ((a.freeSlot i).given r))
    (h : (∀ i r, bestSlot st 0 a.board.slots = some (i, r) →
      outranks r.priority r.sequence (a.station st).standing = false) → R s a) : R s (a.select st) := by
  unfold State.select State.selectWith
  split
  · next hb => exact h fun i r hi => by rw [hb] at hi; cases hi
  · next i r hb =>
    refine MoveClosed.ite (fun ho => hc.apply (by rw [bestSlot_station hb, hst]) (happlied i r hb ho)) fun ho =>
      h fun j q hj => ?_
    obtain ⟨-, rfl⟩ := Prod.mk.inj (Option.some.inj (hb.symm.trans hj))
    exact Bool.eq_false_iff.mpr ho

end Calm

/-- A board whose slots' change is known, with its numbers replaced by their places where the largest was given. -/
theorem State.decideSetting_state (s : State) (st : Station) (q : SettingRequest) :
    (s.decideSetting st q).state =
      ((s.numbered (s.slotOf st q)).place (s.slotOf st q)
        ((s.numbered (s.slotOf st q)).placement (s.slotOf st q))).renumberAfter s.board.counter :=
  congrArg Decision.state (State.decideSetting_placed rfl)

/-! ### What the law of the touch reads -/

/-- The law of the touch reads the Sequencer, the presence, the modes of crushers, the positions, the relief, the lent
drives and CALIBRATION. -/
theorem KeepsTouch.of_same (hsequencer : b.sequencer = a.sequencer) (hpresent : ∀ u, b.present u = a.present u)
    (hmode : ∀ u, (b.station (crusherOf u)).mode = (a.station (crusherOf u)).mode)
    (hvalid : ∀ u, (b.gap u).validity = (a.gap u).validity)
    (hrelief : ∀ u, (b.supervisor u).relief = (a.supervisor u).relief)
    (hlent : ∀ u, (b.positioner u).state = .lent ↔ (a.positioner u).state = .lent)
    (hcal : ∀ u, (b.governor u).holds.calibration = (a.governor u).holds.calibration) : KeepsTouch a b := by
  rintro ⟨h1, h2, h3⟩
  refine ⟨hsequencer ▸ h1, fun u hu => ?_, fun u => ?_⟩
  · obtain ⟨k1, k2, k3, k4⟩ := h2 u (hsequencer ▸ hu)
    exact ⟨(hpresent u).trans k1, (hmode u).trans k2, (hvalid u).trans k3, (hrelief u).trans k4⟩
  · rw [hlent u, hcal u, hsequencer]
    exact h3 u

theorem KeepsTouch.given (s : State) (r : Slot) : KeepsTouch s (s.given r) := by
  have hnoted : KeepsTouch s (s.modStation r.station fun rec => { rec with lastApplied := some ⟨r.source, r.tag⟩ }) :=
    .station s rfl (.inl rfl)
  exact hnoted.trans (.station _ rfl (.inl rfl))

theorem KeepsTouch.renumber (s : State) : KeepsTouch s s.renumber :=
  .of_same rfl (fun _ => rfl) (fun u => by rw [State.station_renumber]) (fun _ => rfl) (fun _ => rfl) (fun _ => Iff.rfl)
    fun _ => rfl

theorem keepsTouch_decides (a : State) (st : Station) (q : SettingRequest) :
    KeepsTouch a (a.decideSetting st q).state := by
  rw [State.decideSetting_state]
  generalize (a.numbered (a.slotOf st q)).placement (a.slotOf st q) = p
  have hnumbered : KeepsTouch a (a.numbered (a.slotOf st q)) := id
  have hplaced : KeepsTouch a ((a.numbered (a.slotOf st q)).place (a.slotOf st q) p) := by
    cases p with
    | applied => exact (keepsTouch_calm st.train).apply rfl (hnumbered.trans (.given _ _))
    | waiting i => exact hnumbered
    | outranked | notAccepting | boardFull => exact hnumbered
  exact MoveClosed.ite (fun _ => hplaced.trans (.renumber _)) fun _ => hplaced

theorem keepsTouch_releases (a : State) (st : Station) : KeepsTouch a (a.releaseStanding st) := by
  have hreleased : KeepsTouch a (a.modStation st fun r => { r with standing := r.standing.released }) :=
    .station a rfl (.inl rfl)
  refine MoveClosed.ite (fun _ => (keepsTouch_calm st.train).select rfl (fun i r _ _ => ?_) fun _ => hreleased) fun _ => hreleased
  exact hreleased.trans (KeepsTouch.trans (b := State.freeSlot _ i) id (.given _ r))

/-! ### Touches, latches and presence -/

theorem keepsTouch_positioner (a : State) (u : Train) {f : Positioner → Positioner}
    (hf : (f (a.positioner u)).state = .lent ↔ (a.positioner u).state = .lent) : KeepsTouch a (a.modPositioner u f) :=
  (TouchStep.positioner a hf).keeps rfl rfl id id

theorem State.touchPossible_touchable (hp : a.present u = true) (h : a.touchPossible u = true) : a.touchable u := by
  simp only [State.touchPossible, Bool.and_eq_true, decide_eq_true_eq] at h
  obtain ⟨⟨⟨⟨⟨⟨hmode, -⟩, -⟩, hrelief⟩, hvalid⟩, -⟩, -⟩ := h
  exact ⟨hp, hmode, hvalid, hrelief⟩

/-- A touch that starts makes its crusher the subject, its drive lent and its feeder under CALIBRATION (R98). -/
theorem keepsTouch_startTouch (a : State) (u : Train) (hp : a.present u = true) (hidle : a.sequencer.state = .idle)
    (hposs : a.touchPossible u = true) : KeepsTouch a (a.startTouch u) := by
  intro ha
  have hable := State.touchPossible_touchable hp hposs
  have hnone : a.sequencer.subject = none := ha.1.mpr hidle
  set b := ((a.modSequencer fun _ => { Sequencer.atStart with
      state := .approach, subject := some u, limitTimer := some (a.timer ((a.crusher u).zeroTimeLimit * 1000))
      start := some a.now }).lendDrive u).addHold u .calibration with hb
  have hlawful : b.touchLawful := by
    refine ⟨⟨nofun, nofun⟩, fun v hv => ?_, fun v => ?_⟩
    · obtain rfl : u = v := Option.some.inj hv
      exact hable
    · have hsub : b.sequencer.subject = some v ↔ v = u := by
        show some u = some v ↔ v = u
        rw [Option.some.injEq, eq_comm]
      have hold := ha.2.2 v
      rw [hnone] at hold
      rw [hsub]
      by_cases hv : v = u
      · subst hv
        refine ⟨iff_of_true ?_ rfl, iff_of_true ?_ rfl⟩
        · show ((a.positioners.set v _).get v).state = .lent
          rw [Quad.get_set_self]
        · show ((a.governors.set v _).get v).holds.has .calibration = true
          rw [Quad.get_set_self]
          exact Governor.hold_has _ .calibration
      · have hpositioner : b.positioner v = a.positioner v :=
          Quad.get_set_of_ne a.positioners hv _
        have hgovernor : b.governor v = a.governor v := State.governor_modGovernor_of_ne _ hv _
        rw [hpositioner, hgovernor]
        exact ⟨iff_of_false (fun h => nomatch hold.1.mp h) hv, iff_of_false (fun h => nomatch hold.2.mp h) hv⟩
  have hasked : KeepsTouch b (b.modPositioner u fun p => p.askDrive b.now (b.crusher u).deadTime .closing
      (b.crusher u).creepDuty) := keepsTouch_positioner b u (by rw [Positioner.askDrive_state])
  have hask : KeepsTouch b (b.askLent u .closing) := by
    refine MoveClosed.ite (fun _ => ?_) fun _ => hasked
    exact MoveClosed.ite (fun _ => hasked.trans (((keepsTouch_calm u).sequencer _ _ rfl Iff.rfl))) fun _ => hasked
  exact hask hlawful

theorem keepsTouch_ackOwner (a : State) (code : Code) (u : Train) : KeepsTouch a (a.ackOwner code u) := by
  have hlatch (w : TripLatch) : KeepsTouch a (a.ackLatch u w) := by
    have htakes := a.ackLatch_takes u (which := w) rfl
    have hstep := (touchStep_trainClosed u).trips _ _ (a.ackLatch_tripStep u w)
    have hrest := (a.ackLatch_tripStep u w).rest
    have hrelief := htakes.relief
    generalize a.ackLatch u w = b at *
    refine hstep.keeps ?_ ?_ ?_ (by rw [hrelief]; exact id) <;> rw [hrest]
    · rfl
    · rfl
    · exact id
  unfold State.ackOwner
  split
  · exact hlatch _
  · exact hlatch _
  · exact ((keepsTouch_calm u).judges rfl).clearFault (fun hfault => keepsTouch_positioner a u (by simp [hfault])) id
  · exact (keepsTouch_calm u).notes a _ rfl
  · exact (keepsTouch_calm u).notes a _ rfl
  all_goals exact id

/-- What the List's changes and the owners' acts keep, an acknowledgement keeps (R152). -/
theorem State.acknowledge_keeps {law : State → Prop} (hlist : ∀ a f, law a → law (a.modConditions f))
    (howner : ∀ a code u, law a → law (a.ackOwner code u)) (h : law a) (code : Code) (sub : Subject) :
    law (a.acknowledge code sub) := by
  have hlisted : law (a.modConditions fun l => l.acknowledged code sub) := hlist a _ h
  have howned : law ((a.modConditions fun l => l.acknowledged code sub).ackSubject code sub) := by
    unfold State.ackSubject
    split
    · exact howner _ _ _ hlisted
    all_goals exact hlisted
  exact hlist _ (fun l => l.withoutAnswered code sub) howned

/-- The same of an acknowledgement of all (R153). -/
theorem State.acknowledgeAll_keeps {law : State → Prop} (hlist : ∀ a f, law a → law (a.modConditions f))
    (howner : ∀ a code u, law a → law (a.ackOwner code u)) (h : law a) : law a.ownAcknowledgeAll.state := by
  have howners : law a.acknowledgeOwners := Acts.forTrains (R := fun _ b => law b) (s := a) (f := State.ackCrusher)
    (fun u b hb => howner _ _ u (howner _ _ u (howner _ _ u (howner _ _ u (howner b _ u hb)))))
    (hlist a ConditionList.allAcknowledged h)
  exact hlist a.acknowledgeOwners ConditionList.allAnswered howners

theorem keepsTouch_acknowledge (a : State) (code : Code) (sub : Subject) : KeepsTouch a (a.acknowledge code sub) :=
  fun h => State.acknowledge_keeps (fun _ _ h => h) keepsTouch_ackOwner h code sub

theorem keepsTouch_acknowledgeAll (a : State) : KeepsTouch a a.ownAcknowledgeAll.state :=
  State.acknowledgeAll_keeps (fun _ _ h => h) keepsTouch_ackOwner

/-- A write of TRAINS_PRESENT that keeps the subject's train makes no subject absent or present anew. -/
theorem keepsTouch_trains (a : State) (q : Quad Bool) (hq : a.leavesOutSubject q = false) :
    KeepsTouch a (a.storeTrains q) := by
  intro ha
  have hkeeps (b : State) (u : Train) (hb : b.touchLawful ∧ ∀ v, b.sequencer.subject = some v → a.present v = true) :
      (b.judgePresence a.line.trainsPresent u).touchLawful ∧
        ∀ v, (b.judgePresence a.line.trainsPresent u).sequencer.subject = some v → a.present v = true := by
    by_cases hsame : a.present u = b.present u
    · have hself : b.judgePresence a.line.trainsPresent u = b := by
        have hbefore : a.line.trainsPresent.get u = b.present u := hsame
        unfold State.judgePresence
        rw [hbefore]
        cases b.present u <;> rfl
      rw [hself]
      exact hb
    · have hfree : b.isSubject u = false := by
        refine decide_eq_false fun hsub => hsame ?_
        rw [hb.2 u hsub, (hb.1.2.1 u hsub).1]
      have hstep := (touchStep_trainClosed u).judgePresence ((touchStep_trainClosed u).refl b) a.line.trainsPresent
      refine ⟨keepsTouch_of_step hstep hfree hb.1, fun v hv => ?_⟩
      rcases hstep.subject with h | h
      · exact hb.2 v (h ▸ hv)
      · rw [h] at hv
        cases hv
  have hwritten : (a.withLine { a.line with trainsPresent := q }).touchLawful ∧
      ∀ v, (a.withLine { a.line with trainsPresent := q }).sequencer.subject = some v → a.present v = true := by
    refine ⟨⟨ha.1, fun v hv => ?_, ha.2.2⟩, fun v hv => (ha.2.1 v hv).1⟩
    obtain ⟨-, h⟩ := ha.2.1 v hv
    refine ⟨?_, h⟩
    show q.get v = true
    have hsubject : a.sequencer.subject = some v := hv
    simpa [State.leavesOutSubject, hsubject] using hq
  exact (hkeeps _ .t3 (hkeeps _ .t2 (hkeeps _ .t1 (hkeeps _ .t0 hwritten)))).1

theorem State.secondBoundary_station (s : State) (st : Station) :
    (s.secondBoundary.station st).mode = (s.station st).mode ∧
      (s.secondBoundary.station st).lastAccepting = (s.station st).lastAccepting ∧
      (s.secondBoundary.station st).standing.priority = (s.station st).standing.priority ∧
      (s.secondBoundary.station st).standing.origin = (s.station st).standing.origin := by
  unfold State.secondBoundary
  split
  · obtain ⟨u, r⟩ := st
    cases r <;> cases u <;> exact ⟨rfl, rfl, rfl, rfl⟩
  · exact ⟨rfl, rfl, rfl, rfl⟩

theorem keepsTouch_second (a : State) : KeepsTouch a a.secondBoundary := by
  rcases a.secondBoundary_eq with h | h <;>
    refine .of_same ?_ ?_ (fun u => (a.secondBoundary_station (crusherOf u)).1) ?_ ?_ ?_ ?_ <;> rw [h] <;> intros <;> rfl

theorem State.present_put (a : State) {n : LineParam} (hn : n ≠ .trainsPresent) (v : Nat) (u : Train) :
    (a.withLine (a.line.put n v)).present u = a.present u := by
  cases n
  case trainsPresent => exact absurd rfl hn
  all_goals rfl

theorem keepsTouch_acts : Acts KeepsTouch where
  calm := keepsTouch_calm
  link := fun _ _ _ => id
  restart := fun _ _ => id
  time := fun _ _ _ _ => id
  inputs := fun _ _ => id
  lentAsked := fun a u d _ => keepsTouch_positioner a u (by rw [Positioner.askDrive_state])
  begins := fun a u _ => keepsTouch_positioner a u (Positioner.beginPending_lent _)
  jogs := fun a u j hsub _ ha => keepsTouch_positioner a u (iff_of_false (by simp) fun h =>
    of_decide_eq_false hsub ((ha.2.2 u).1.mp h)) ha
  jogAsked := fun a u d n _ => keepsTouch_positioner a u (by rw [Positioner.askDrive_state])
  startTouch := keepsTouch_startTouch
  acceptTouch := fun a u contact _ => ((keepsTouch_calm u).judges rfl).acceptTouch
    (fun f => ((touchStep_trainClosed u).zero a f).keeps rfl rfl id id) contact
  moveTimerExpiry := fun a u => ((keepsTouch_calm u).judges rfl).moveTimerExpiry
    (fun h => keepsTouch_positioner a u (iff_of_false (by simp [Positioner.timeOut]) (by rcases h with h | h <;> simp [h]))) id
  reliefOnset := keepsTouch_reliefOnset
  clearingExpiry := keepsTouch_clearingExpiry
  judgePowerTrip := keepsTouch_judgePowerTrip
  positionOutside := keepsTouch_positionOutside
  becomeValid := fun a u gap _ => keepsTouch_becomeValid a u gap
  enterMode := keepsTouch_enterMode
  acknowledge := keepsTouch_acknowledge
  acknowledgeAll := keepsTouch_acknowledgeAll
  trains := keepsTouch_trains
  freed := fun _ _ => id
  releases := keepsTouch_releases
  decides := keepsTouch_decides
  second := keepsTouch_second
  crusherParam := fun _ _ _ _ _ => id
  feederParam := fun _ _ _ _ => id
  lineParam := fun a n v hn => .of_same rfl (fun u => State.present_put a hn v u) (fun _ => rfl)
    (fun _ => rfl) (fun _ => rfl) (fun _ => Iff.rfl) fun _ => rfl

theorem startFrom_touchLawful (store : Store) (stamp : Stamp) (q : List Instr) :
    (startFrom store stamp q).touchLawful := by
  rw [startFrom_eq]
  refine ⟨⟨fun _ => rfl, fun _ => rfl⟩, (nofun), fun u => ?_⟩
  cases u <;> exact ⟨⟨nofun, nofun⟩, ⟨nofun, nofun⟩⟩

theorem Positioner.tick_state (p : Positioner) : p.tickJog.tickValve.state = p.state := by
  have hvalve (p : Positioner) : p.tickValve.state = p.state := by
    unfold Positioner.tickValve
    split <;> rfl
  rw [hvalve]
  unfold Positioner.tickJog
  split
  · rfl
  · split <;> rfl

theorem State.tickOutputs_positioner (s : State) (u : Train) :
    s.tickOutputs.positioner u = (s.positioner u).tickJog.tickValve := Quad.get_map ..

theorem State.tickOutputs_governor (s : State) (u : Train) : s.tickOutputs.governor u = (s.governor u).tick := Quad.get_map ..

theorem touchLawful_kept : Kept State.touchLawful where
  acts := keepsTouch_acts
  waits := fun _ _ _ => id
  starts := startFrom_touchLawful
  lost := fun _ => State.reset_touchLawful
  ticks := fun a => KeepsTouch.of_same rfl (fun _ => rfl) (fun _ => rfl) (fun _ => rfl) (fun _ => rfl)
    (fun u => by rw [State.tickOutputs_positioner, Positioner.tick_state]; rfl)
    fun u => by rw [State.tickOutputs_governor]; rfl
  queue := fun _ _ => id

/-- Settles O10, by the acts of the blocks. -/
theorem touchLawKept : Obligations.TouchLawKept := fun _ _ h0 h => touchLawful_kept.step h h0

end Sys2Proof.Machine
end

section
/-! PROOFS. A relation that holds of every operation on a train, and of the few acts that are no train's, holds of every
act. -/

namespace Sys2Proof.Machine

variable {a b s : State} {t u : Train}

/-- A relation that composes holds of the calm steps where two that hold of them give it. -/
theorem Calm.meet {R1 R2 R : State → State → Prop} (h : Calm t R1) (k : Calm t R2)
    (hle : ∀ {a b}, R1 a b → R2 a b → R a b) (htrans : ∀ {a b c}, R a b → R b c → R a c) : Calm t R where
  refl := fun a => hle (h.refl a) (k.refl a)
  trans := htrans
  positioner := fun a f x => hle (h.positioner a f x) (k.positioner a f x)
  addGapMove := fun a => hle (h.addGapMove a) (k.addGapMove a)
  removeGapMove := fun a => hle (h.removeGapMove a) (k.removeGapMove a)
  episode := fun a x => hle (h.episode a x) (k.episode a x)
  judged := fun a x => hle (h.judged a x) (k.judged a x)
  selected := fun a i r x1 x2 x3 x4 => hle (h.selected a i r x1 x2 x3 x4) (k.selected a i r x1 x2 x3 x4)
  store := fun a x => hle (h.store a x) (k.store a x)
  reports := fun a f x1 x2 => hle (h.reports a f x1 x2) (k.reports a f x1 x2)
  sequencer := fun a f x1 x2 => hle (h.sequencer a f x1 x2) (k.sequencer a f x1 x2)
  governor := fun a f x1 x2 => hle (h.governor a f x1 x2) (k.governor a f x1 x2)
  bars := fun a r => hle (h.bars a r) (k.bars a r)
  measures := fun a f x => hle (h.measures a f x) (k.measures a f x)
  notes := fun a f x => hle (h.notes a f x) (k.notes a f x)
  supervises := fun a f x1 x2 x3 => hle (h.supervises a f x1 x2 x3) (k.supervises a f x1 x2 x3)
  record := fun a st f x1 x2 x3 x4 x5 => hle (h.record a st f x1 x2 x3 x4 x5) (k.record a st f x1 x2 x3 x4 x5)
  started := fun a st n x1 x2 => hle (h.started a st n x1 x2) (k.started a st n x1 x2)
  evaluates := fun a => hle (h.evaluates a) (k.evaluates a)
  frees := fun a gone => hle (h.frees a gone) (k.frees a gone)
  endTouch := fun a x => hle (h.endTouch a x) (k.endTouch a x)

/-- A coarser relation that composes holds of the calm steps. -/
theorem Calm.into {R R' : State → State → Prop} (h : Calm t R) (hle : ∀ {a b}, R a b → R' a b)
    (htrans : ∀ {a b c}, R' a b → R' b c → R' a c) : Calm t R' := h.meet h (fun x _ => hle x) htrans

/-- A coarser relation that composes holds of every step on a train's records. -/
theorem TrainClosed.into {R R' : State → State → Prop} (h : TrainClosed t R) (hle : ∀ {a b}, R a b → R' a b)
    (htrans : ∀ {a b c}, R' a b → R' b c → R' a c) : TrainClosed t R' where
  toCalm := h.toCalm.into hle htrans
  gap := fun a f => hle (h.gap a f)
  zero := fun a f => hle (h.zero a f)
  mode := fun a st m x => hle (h.mode a st m x)
  starts := fun a st n x => hle (h.starts a st n x)
  timeOut := fun a x => hle (h.timeOut a x)
  leaves := fun a x => hle (h.leaves a x)
  trips := fun a b x => hle (h.trips a b x)

/-- A relation that composes and holds of every step on a train's records, and of the acts that are no train's. -/
structure Freely (R : State → State → Prop) : Prop where
  closed : ∀ t : Train, TrainClosed t R
  conditions : ∀ (a : State) (f : ConditionList → ConditionList), R a (a.modConditions f)
  present : ∀ (a : State) (q : Quad Bool), R a (a.withLine { a.line with trainsPresent := q })
  link : ∀ (a : State) (l : Link) (f : LinkInterface → LinkInterface), R a (a.modLink l f)
  restart : ∀ (a : State) (x : RestartPhase), R a (a.withRestart x)
  time : ∀ (a : State) (x : TimeBase), x.seconds = a.time.seconds → x.millis = a.time.millis → R a (a.withTime x)
  inputs : ∀ (a : State) (x : FieldInputs), R a (a.withInputs x)
  lentAsked : ∀ (a : State) (t : Train) (d : Direction), a.sequencer.subject = some t →
    R a (a.modPositioner t fun p => p.askDrive a.now (a.crusher t).deadTime d (a.crusher t).creepDuty)
  begins : ∀ (a : State) (t : Train), a.deadTimeDue t = true → R a (a.modPositioner t Positioner.beginPending)
  jogs : ∀ (a : State) (t : Train) (j : Jog), a.isSubject t = false →
    R a (a.modPositioner t fun p => { p with jog := some j, state := .jogging })
  jogAsked : ∀ (a : State) (t : Train) (d : Direction) (u : Nat), (a.positioner t).state = .jogging →
    R a (a.modPositioner t fun p => p.askDrive a.now (a.crusher t).deadTime d u)
  startTouch : ∀ (a : State) (t : Train), R a (a.startTouch t)
  freed : ∀ (a : State) (i : Nat), R a (a.freeSlot i)
  selects : ∀ (a : State) (st : Station) (i : Nat) (r : Slot), bestSlot st 0 a.board.slots = some (i, r) →
    R a ((a.freeSlot i).given r)
  releases : ∀ (a : State) (st : Station), R a (a.modStation st fun r => { r with standing := r.standing.released })
  decides : ∀ (a : State) (st : Station) (q : SettingRequest), R a (a.decideSetting st q).state
  second : ∀ a : State, R a a.secondBoundary
  crusherParam : ∀ (a : State) (t : Train) (n : CrusherParam) (v : Nat), n ≠ .deadTime →
    R a (a.withCrusher t ((a.crusher t).put n v))
  feederParam : ∀ (a : State) (t : Train) (n : FeederParam) (v : Nat), R a (a.withFeeder t ((a.feeder t).put n v))
  lineParam : ∀ (a : State) (n : LineParam) (v : Nat), n ≠ .trainsPresent → R a (a.withLine (a.line.put n v))

namespace Freely

variable {R : State → State → Prop} (hR : Freely R)
include hR

theorem refl (a : State) : R a a := (hR.closed .t0).refl a

theorem trans {c : State} (h : R a b) (k : R b c) : R a c := (hR.closed .t0).trans h k

theorem acknowledge (a : State) (code : Code) (sub : Subject) : R a (a.acknowledge code sub) :=
  State.acknowledge_keeps (law := R a) (fun b f hb => hR.trans hb (hR.conditions b f))
    (fun _ _ u hb => (hR.closed u).ackOwner hb _) (hR.refl a) code sub

theorem acknowledgeAll (a : State) : R a a.ownAcknowledgeAll.state :=
  State.acknowledgeAll_keeps (law := R a) (fun b f hb => hR.trans hb (hR.conditions b f))
    (fun _ _ u hb => (hR.closed u).ackOwner hb _) (hR.refl a)

theorem storeTrains (a : State) (q : Quad Bool) : R a (a.storeTrains q) :=
  Acts.forTrains (f := fun u b => b.judgePresence a.line.trainsPresent u) (fun u _ hb => (hR.closed u).judgePresence hb _)
    (hR.present a q)

theorem releaseStanding (a : State) (st : Station) : R a (a.releaseStanding st) := by
  have hreleased := hR.releases a st
  exact MoveClosed.ite (fun _ => (hR.closed st.train).toCalm.select rfl
    (fun i r hb _ => hR.trans hreleased (hR.selects _ st i r hb)) fun _ => hreleased) fun _ => hreleased

theorem acts : Acts R where
  calm := fun t => (hR.closed t).toCalm
  link := hR.link
  restart := hR.restart
  time := hR.time
  inputs := hR.inputs
  lentAsked := hR.lentAsked
  begins := hR.begins
  jogs := fun a t j hfree _ => hR.jogs a t j hfree
  jogAsked := hR.jogAsked
  startTouch := fun a t _ _ _ => hR.startTouch a t
  acceptTouch := fun a t contact _ => (hR.closed t).acceptTouch (hR.refl a) contact
  moveTimerExpiry := fun a t => (hR.closed t).moveTimerExpiry (hR.refl a)
  reliefOnset := fun a t => (hR.closed t).reliefOnset (hR.refl a)
  clearingExpiry := fun a t => (hR.closed t).clearingExpiry (hR.refl a)
  judgePowerTrip := fun a t => (hR.closed t).judgePowerTrip (hR.refl a)
  positionOutside := fun a t => (hR.closed t).positionOutside (hR.refl a)
  becomeValid := fun a t gap _ => (hR.closed t).becomeValid (hR.refl a) gap
  enterMode := fun a st m _ => (hR.closed st.train).enterMode (hR.refl a) rfl m
  acknowledge := hR.acknowledge
  acknowledgeAll := hR.acknowledgeAll
  trains := fun a q _ => hR.storeTrains a q
  freed := hR.freed
  releases := hR.releaseStanding
  decides := hR.decides
  second := hR.second
  crusherParam := hR.crusherParam
  feederParam := hR.feederParam
  lineParam := hR.lineParam

end Freely

end Sys2Proof.Machine
end

section
/-! PROOFS. The law of a valve drive, and what every act does to it (R68, R71): each drive that begins has the direction of
the last drive end, or has waited out the dead time since. -/

namespace Sys2Proof.Machine

variable {carried : Direction → Prop} {wait nows : Nat → Prop} {p p' : Positioner} {now dead duty : Nat} {d : Direction}
  {q : CrusherParams}

/-- A drive's law, with how it has begun: it was carried over, has the direction of the last drive end, or a wait has
passed since that end at one of the times that count. -/
structure Positioner.Bound (carried : Direction → Prop) (wait nows : Nat → Prop) (p : Positioner) : Prop where
  lawful : p.driveLawful
  waits : ∀ e, p.pendingDrive = some e → wait e.deadTime.length
  begun : ∀ d, p.drive = some d → carried d.direction ∨ p.lastEnd.direction = some d.direction ∨
    ∃ w n, wait w ∧ nows n ∧ w ≤ elapsed n p.lastEnd.uptime

namespace Positioner.Bound

/-! ### A drive that is off -/

/-- A Positioner with its drive off and none pending. -/
theorem of_off (hd : p.drive = none) (hp : p.pendingDrive = none) (h1 : p.state ≠ .driving) (h2 : p.state ≠ .deadTime) :
    p.Bound carried wait nows where
  lawful := ⟨by simp [hd], by simp [hp], fun h => absurd h h1, fun h => absurd h h2⟩
  waits := by simp [hp]
  begun := by simp [hd]

variable (h : p.Bound carried wait nows)
include h

theorem keeps (hstate : p'.state = p.state) (hdrive : p'.drive = p.drive) (hpending : p'.pendingDrive = p.pendingDrive)
    (hend : p'.lastEnd = p.lastEnd) : p'.Bound carried wait nows := by
  obtain ⟨hlawful, hwaits, hbegun⟩ := h
  refine ⟨?_, ?_, ?_⟩
  · unfold Positioner.driveLawful
    rwa [hstate, hdrive, hpending, hend]
  · rwa [hpending]
  · rwa [hdrive, hend]

/-- In a state other than DRIVING, DEAD_TIME, JOGGING and LENT the drive is off and none is pending. -/
theorem off (h1 : p.state ≠ .driving) (h2 : p.state ≠ .deadTime) (h3 : p.state ≠ .jogging) (h4 : p.state ≠ .lent) :
    p.drive = none ∧ p.pendingDrive = none := by
  obtain ⟨hon, hpending, -⟩ := h.lawful
  refine ⟨Option.eq_none_iff_forall_not_mem.mpr fun d hd => ?_, Option.eq_none_iff_forall_not_mem.mpr fun e he => ?_⟩
  · exact absurd (hon d hd).2 (by simp [h1, h3, h4])
  · exact absurd (hpending e he).1 (by simp [h2, h3, h4])

theorem off_of_startable (hstart : p.startable) : p.drive = none ∧ p.pendingDrive = none := by
  rcases hstart with hs | hs | ⟨hs, -⟩ <;> exact h.off (by simp [hs]) (by simp [hs]) (by simp [hs]) (by simp [hs])

omit h in
theorem driveOff_drive (now : Nat) (p : Positioner) : (p.driveOff now).drive = none := by
  unfold Positioner.driveOff
  split
  · assumption
  · rfl

/-- A drive that goes on in another state. -/
theorem enters (hstate : p'.state = .jogging ∨ p'.state = .lent) (hdrive : p'.drive = p.drive)
    (hpending : p'.pendingDrive = p.pendingDrive) (hend : p'.lastEnd = p.lastEnd) : p'.Bound carried wait nows := by
  obtain ⟨⟨hon, hwaiting, -⟩, hwaits, hbegun⟩ := h
  refine ⟨⟨fun d hd => ?_, fun e he => ?_, ?_, ?_⟩, ?_, ?_⟩
  · exact ⟨hpending.trans (hon d (hdrive ▸ hd)).1, .inr hstate⟩
  · exact ⟨.inr hstate, hend ▸ (hwaiting e (hpending ▸ he)).2⟩
  · rcases hstate with hs | hs <;> simp [hs]
  · rcases hstate with hs | hs <;> simp [hs]
  · rwa [hpending]
  · rwa [hdrive, hend]

/-! ### A drive asked for -/

section asks

omit h
variable (hnow : nows now) (hdead : wait dead)
include hnow hdead

/-- A drive asked for with none on begins by the dead time, or waits for it. -/
theorem asked (hd : p.drive = none) (hdrive : p'.drive = (p.ask now dead d duty).drive)
    (hpending : p'.pendingDrive = (p.ask now dead d duty).pendingDrive)
    (hend : p'.lastEnd = (p.ask now dead d duty).lastEnd)
    (hon : p'.drive.isSome → p'.state = .driving ∨ p'.state = .jogging ∨ p'.state = .lent)
    (hoff : p'.drive = none → p'.state = .deadTime ∨ p'.state = .jogging ∨ p'.state = .lent) :
    p'.Bound carried wait nows := by
  unfold Positioner.ask at hdrive hpending hend
  by_cases hmay : p.mayBegin now dead d = true
  · rw [if_pos hmay] at hdrive hpending hend
    have hdrive : p'.drive = some ⟨d, duty⟩ := hdrive
    have hstate := hon (by simp [hdrive])
    refine ⟨⟨fun e he => ⟨hpending, hstate⟩, fun e he => ?_, fun _ => by simp [hdrive], fun hs => ?_⟩, fun e he => ?_,
      fun e he => .inr ?_⟩
    · cases hpending.symm.trans he
    · simp [hs] at hstate
    · cases hpending.symm.trans he
    · obtain rfl := Option.some.inj (hdrive.symm.trans he)
      rw [hend]
      exact (Positioner.mayBegin_iff.mp hmay).imp id fun hw => ⟨dead, now, hdead, hnow, hw⟩
  · rw [if_neg hmay] at hdrive hpending hend
    have hdrive : p'.drive = none := hdrive.trans hd
    have hstate := hoff hdrive
    have hend : p'.lastEnd = p.lastEnd := hend
    refine ⟨⟨fun e he => ?_, fun e he => ⟨hstate, ?_⟩, fun hs => ?_, fun _ => by simp [hpending]⟩, fun e he => ?_,
      fun e he => ?_⟩
    · cases hdrive.symm.trans he
    · obtain rfl := Option.some.inj (hpending.symm.trans he)
      rw [hend]
      exact ⟨fun h => hmay (Positioner.mayBegin_iff.mpr (.inl h)), rfl⟩
    · simp [hs] at hstate
    · obtain rfl := Option.some.inj (hpending.symm.trans he)
      exact hdead
    · cases hdrive.symm.trans he

theorem ask (hd : p.drive = none) (hstate : p.state = .jogging ∨ p.state = .lent) :
    (p.ask now dead d duty).Bound carried wait nows :=
  asked hnow hdead hd rfl rfl rfl (fun _ => .inr (by rwa [Positioner.ask_state]))
    fun _ => .inr (by rwa [Positioner.ask_state])

theorem askDrive (h : p.Bound carried wait nows) (hstate : p.state = .jogging ∨ p.state = .lent) :
    (p.askDrive now dead d duty).Bound carried wait nows := by
  unfold Positioner.askDrive
  split
  · next hd => exact ask hnow hdead hd hstate
  · next x hx =>
    split
    · next hdir =>
      obtain ⟨⟨hon, hwaiting, -⟩, hwaits, hbegun⟩ := h
      refine ⟨⟨fun e he => hon x hx, hwaiting, nofun, ?_⟩, hwaits, fun e he => ?_⟩
      · rcases hstate with hs | hs <;> simp [hs]
      · obtain rfl := Option.some.inj he
        exact hdir ▸ hbegun x hx
    · exact ask hnow hdead (driveOff_drive now p) (by rwa [Positioner.driveOff_state])

end asks

omit h in
theorem askMove {e : Int} (hnow : nows now) (hdead : wait q.deadTime) (hd : p.drive = none) :
    (p.askMove now q e).Bound carried wait nows :=
  asked hnow hdead hd rfl rfl rfl (fun hs => .inl (if_pos hs)) fun hn => .inl (if_neg (Option.not_isSome_iff_eq_none.mpr hn))

/-! ### The steps of a Positioner -/

theorem step (hnow : nows now) (hdead : wait q.deadTime) (hstep : Positioner.Step now q p p') :
    p'.Bound carried wait nows := by
  cases hstep with
  | keeps hstate hdrive hpending hend => exact h.keeps hstate hdrive hpending hend
  | asks e timer hstart => exact askMove hnow hdead (h.off_of_startable hstart).1
  | drains timer hstart => exact of_off (h.off_of_startable hstart).1 (h.off_of_startable hstart).2 nofun nofun
  | rests hs hr =>
    obtain ⟨hd, hp⟩ := h.off_of_startable (.inr (.inr ⟨hs, hr⟩))
    exact of_off hd hp nofun nofun
  | ends => exact of_off (driveOff_drive now p) rfl nofun nofun
  | endsJog => exact of_off (driveOff_drive now p) rfl nofun nofun
  | steers e hs =>
    unfold Positioner.steer
    split
    · exact h
    · next x hx =>
      split
      · obtain ⟨⟨hon, hwaiting, -, hdt⟩, hwaits, hbegun⟩ := h
        refine ⟨⟨fun y hy => hon x hx, hwaiting, nofun, hdt⟩, hwaits, fun y hy => ?_⟩
        obtain rfl := Option.some.inj hy
        exact hbegun x hx
      · exact askMove hnow hdead (driveOff_drive now p)
  | steersPending e hs =>
    unfold Positioner.steerPending
    split
    · exact h
    · next x hx =>
      split
      · obtain ⟨⟨hon, hwaiting, hdr, -⟩, hwaits, hbegun⟩ := h
        refine ⟨⟨fun y hy => ?_, fun y hy => ?_, hdr, nofun⟩, fun y hy => ?_, hbegun⟩
        · rw [(hon y hy).1] at hx
          cases hx
        · obtain rfl := Option.some.inj hy
          exact hwaiting x hx
        · obtain rfl := Option.some.inj hy
          exact hwaits x hx
      · refine askMove hnow hdead (Option.eq_none_iff_forall_not_mem.mpr fun y hy => ?_)
        rw [(h.lawful.1 y hy).1] at hx
        cases hx
  | without r => exact h.keeps rfl rfl rfl rfl

theorem suspend (now : Nat) : (p.suspend now).Bound carried wait nows := by
  have hoff (hs : p.state = .idle ∨ p.state = .draining) : p.drive = none ∧ p.pendingDrive = none :=
    h.off_of_startable (hs.imp id .inl)
  unfold Positioner.suspend
  split
  · next hs => exact of_off (hoff (.inl hs)).1 (hoff (.inl hs)).2 nofun nofun
  · next hs => exact of_off (hoff (.inr hs)).1 (hoff (.inr hs)).2 nofun nofun
  · next hs =>
    refine of_off (driveOff_drive now p) ?_ nofun nofun
    obtain ⟨x, hx⟩ := Option.ne_none_iff_exists'.mp (h.lawful.2.2.1 hs)
    rw [← (h.lawful.1 x hx).1]
    unfold Positioner.driveOff
    rw [hx]
  · next hs =>
    refine of_off (Option.eq_none_iff_forall_not_mem.mpr fun x hx => ?_) rfl nofun nofun
    simpa [hs] using (h.lawful.1 x hx).2
  all_goals exact h

theorem barred (now : Nat) (r : Reason) : (p.barred now r).Bound carried wait nows := by
  unfold Positioner.barred
  split
  · exact of_off (driveOff_drive ..) rfl nofun nofun
  · unfold Positioner.under
    split
    · exact h
    · dsimp only
      split
      · exact (h.suspend now).keeps rfl rfl rfl rfl
      · exact h.keeps rfl rfl rfl rfl

omit h in
theorem timeOut (now : Nat) (p : Positioner) : (p.timeOut now).Bound carried wait nows :=
  of_off (driveOff_drive now p) rfl nofun nofun

omit h in
theorem returned (now : Nat) (p : Positioner) : (p.returned now).Bound carried wait nows :=
  of_off (driveOff_drive now p) rfl nofun nofun

theorem lent (now : Nat) : (p.lent now).Bound carried wait nows := by
  unfold Positioner.lent
  dsimp only
  split
  · exact of_off (driveOff_drive now p) rfl nofun nofun
  · exact h.enters (.inr rfl) rfl rfl rfl

/-- A pending drive begins when its dead time has passed (R76). -/
theorem beginPending {e : PendingDrive} (hp : p.pendingDrive = some e) (hnow : nows now)
    (hdue : e.deadTime.expired now = true) : p.beginPending.Bound carried wait nows := by
  obtain ⟨hwaiting, hdir, hstart⟩ := h.lawful.2.1 e hp
  have hlong : e.deadTime.length ≤ elapsed now p.lastEnd.uptime := by
    rw [← hstart]
    exact of_decide_eq_true hdue
  unfold Positioner.beginPending
  rw [hp]
  refine ⟨⟨fun x hx => ⟨rfl, ?_⟩, nofun, nofun, fun hs => ?_⟩, nofun, fun x hx => .inr (.inr ?_)⟩
  · rcases hwaiting with hs | hs | hs <;> simp [hs]
  · dsimp only at hs
    split at hs
    · cases hs
    · next hne => exact absurd hs hne
  · exact ⟨e.deadTime.length, now, h.waits e hp, hnow, hlong⟩

theorem tick : p.tickJog.tickValve.Bound carried wait nows := by
  have hvalve (p : Positioner) : p.tickValve.drive = p.drive ∧ p.tickValve.pendingDrive = p.pendingDrive ∧
      p.tickValve.lastEnd = p.lastEnd := by
    unfold Positioner.tickValve
    split <;> exact ⟨rfl, rfl, rfl⟩
  have hjog : p.tickJog.drive = p.drive ∧ p.tickJog.pendingDrive = p.pendingDrive ∧ p.tickJog.lastEnd = p.lastEnd := by
    unfold Positioner.tickJog
    split
    · exact ⟨rfl, rfl, rfl⟩
    · split <;> exact ⟨rfl, rfl, rfl⟩
  obtain ⟨h1, h2, h3⟩ := hvalve p.tickJog
  obtain ⟨k1, k2, k3⟩ := hjog
  exact h.keeps p.tick_state (h1.trans k1) (h2.trans k2) (h3.trans k3)

end Positioner.Bound

end Sys2Proof.Machine
end

section
/-! PROOFS. The drives of a state keep their law under every act, each that begins by the dead time (R68, R71). -/

namespace Sys2Proof.Machine

variable {a b c s t : State} {u v : Train} {st : Station} {carried : Train → Direction → Prop} {wait : Train → Nat → Prop}
  {nows : Nat → Prop}

/-- Every drive keeps its law, and has begun as allowed; the subject's drive is lent. -/
structure State.DrivesBound (carried : Train → Direction → Prop) (wait : Train → Nat → Prop) (nows : Nat → Prop)
    (a : State) : Prop where
  now : nows a.now
  dead : ∀ u, wait u (a.crusher u).deadTime
  drives : ∀ u, (a.positioner u).Bound (carried u) (wait u) nows
  lent : ∀ u, a.sequencer.subject = some u → (a.positioner u).state = .lent

/-- The law of the drives is kept, whatever was carried over, waited for and counted. -/
def KeepsDrives (carried : Train → Direction → Prop) (wait : Train → Nat → Prop) (nows : Nat → Prop) (a b : State) : Prop :=
  a.DrivesBound carried wait nows → b.DrivesBound carried wait nows

namespace KeepsDrives

theorem trans (h : KeepsDrives carried wait nows a b) (k : KeepsDrives carried wait nows b c) : KeepsDrives carried wait nows a c := fun ha => k (h ha)

theorem of_same (hnow : b.now = a.now) (hdead : ∀ u, (b.crusher u).deadTime = (a.crusher u).deadTime)
    (hpositioner : ∀ u, b.positioner u = a.positioner u)
    (hsubject : b.sequencer.subject = a.sequencer.subject ∨ b.sequencer.subject = none) : KeepsDrives carried wait nows a b := by
  intro ha
  refine ⟨by rw [hnow]; exact ha.now, fun u => by rw [hdead]; exact ha.dead u,
    fun u => by rw [hpositioner]; exact ha.drives u, fun u hu => ?_⟩
  rcases hsubject with hs | hs
  · rw [hpositioner]
    exact ha.lent u (hs ▸ hu)
  · rw [hs] at hu
    cases hu

/-- A Positioner moved, its own law kept. -/
theorem positioner (a : State) {f : Positioner → Positioner}
    (hf : nows a.now → wait u (a.crusher u).deadTime → (a.positioner u).Bound (carried u) (wait u) nows →
      (f (a.positioner u)).Bound (carried u) (wait u) nows)
    (hlent : a.sequencer.subject = some u → ((f (a.positioner u)).state = .lent ↔ (a.positioner u).state = .lent)) :
    KeepsDrives carried wait nows a (a.modPositioner u f) := by
  intro ha
  refine ⟨ha.now, ha.dead, fun v => ?_, fun v hv => ?_⟩
  · by_cases hvu : v = u
    · subst hvu
      rw [State.positioner_modPositioner]
      exact hf ha.now (ha.dead v) (ha.drives v)
    · rw [State.positioner_modPositioner_of_ne a hvu]
      exact ha.drives v
  · by_cases hvu : v = u
    · subst hvu
      rw [State.positioner_modPositioner]
      exact (hlent hv).mpr (ha.lent v hv)
    · rw [State.positioner_modPositioner_of_ne a hvu]
      exact ha.lent v hv

/-- An operation that leaves the Positioners, the Sequencer, the time and the crushers' parameters. -/
theorem station (a : State) (st : Station) (f : StationRecord → StationRecord) : KeepsDrives carried wait nows a (a.modStation st f) := by
  obtain ⟨u, r⟩ := st
  cases r <;> exact .of_same rfl (fun _ => rfl) (fun _ => rfl) (.inl rfl)

theorem given (a : State) (r : Slot) : KeepsDrives carried wait nows a (a.given r) := (station a _ _).trans (station _ _ _)

end KeepsDrives

theorem keepsDrives_endTouch (a : State) (u : Train) : KeepsDrives carried wait nows a (a.endTouch u) := by
  intro ha
  refine ⟨ha.now, ha.dead, fun v => ?_, nofun⟩
  rw [State.endTouch_eq]
  by_cases hvu : v = u
  · subst hvu
    show ((a.positioners.set v _).get v).Bound _ _ _
    rw [Quad.get_set_self]
    exact Positioner.Bound.returned ..
  · show ((a.positioners.set u _).get v).Bound _ _ _
    rw [Quad.get_set_of_ne _ hvu]
    exact ha.drives v

theorem keepsDrives_moveClosed (u : Train) : MoveClosed u (KeepsDrives carried wait nows) where
  refl := fun _ h => h
  trans := KeepsDrives.trans
  positioner := fun a _ h => .positioner a (fun hnow hdead hp => hp.step hnow hdead h) fun _ => h.lent_iff
  addGapMove := fun _ => .of_same rfl (fun _ => rfl) (fun _ => rfl) (.inl rfl)
  removeGapMove := fun _ => .of_same rfl (fun _ => rfl) (fun _ => rfl) (.inl rfl)
  episode := fun _ _ => .of_same rfl (fun _ => rfl) (fun _ => rfl) (.inl rfl)
  judged := fun a _ => .station a _ _
  selected := fun a i _ _ _ _ _ =>
    have hfreed : KeepsDrives carried wait nows (a.evaluated u) ((a.evaluated u).freeSlot i) :=
      .of_same rfl (fun _ => rfl) (fun _ => rfl) (.inl rfl)
    (((KeepsDrives.station a _ _).trans hfreed).trans (.station _ _ _)).trans (.station _ _ _)

theorem keepsDrives_trainClosed (u : Train) : TrainClosed u (KeepsDrives carried wait nows) where
  toMoveClosed := keepsDrives_moveClosed u
  store := fun _ _ => .of_same rfl (fun _ => rfl) (fun _ => rfl) (.inl rfl)
  reports := fun _ _ _ _ => .of_same rfl (fun _ => rfl) (fun _ => rfl) (.inl rfl)
  sequencer := fun _ _ h _ => .of_same rfl (fun _ => rfl) (fun _ => rfl) (.inl h)
  governor := fun _ _ _ _ => .of_same rfl (fun _ => rfl) (fun _ => rfl) (.inl rfl)
  bars := fun a r => .positioner a (fun _ _ hp => hp.barred a.now r) fun _ => Positioner.barred_lent ..
  measures := fun _ _ _ => .of_same rfl (fun _ => rfl) (fun _ => rfl) (.inl rfl)
  notes := fun _ _ _ => .of_same rfl (fun _ => rfl) (fun _ => rfl) (.inl rfl)
  supervises := fun _ _ _ _ _ => .of_same rfl (fun _ => rfl) (fun _ => rfl) (.inl rfl)
  record := fun a st f _ _ _ _ _ => .station a st f
  started := fun a st n _ _ => .station a st _
  evaluates := fun a => by
    have hrest := (a.evaluate_feederEvaluates u).rest
    generalize a.evaluate (feederOf u) = b at *
    refine .of_same ?_ ?_ ?_ (.inl ?_) <;> rw [hrest] <;> intros <;> rfl
  frees := fun _ _ => .of_same rfl (fun _ => rfl) (fun _ => rfl) (.inl rfl)
  endTouch := fun a _ => keepsDrives_endTouch a u
  gap := fun _ _ => .of_same rfl (fun _ => rfl) (fun _ => rfl) (.inl rfl)
  zero := fun _ _ => .of_same rfl (fun _ => rfl) (fun _ => rfl) (.inl rfl)
  mode := fun a st _ _ => .station a st _
  starts := fun a st _ _ => .station a st _
  timeOut := fun a h => .positioner a (fun _ _ _ => .timeOut _ _)
    fun _ => iff_of_false (by simp [Positioner.timeOut]) (by rcases h with h | h <;> simp [h])
  leaves := fun a h => .positioner a (fun _ _ hp =>
    have hoff := hp.off (by simp [h]) (by simp [h]) (by simp [h]) (by simp [h])
    .of_off hoff.1 hoff.2 nofun nofun) fun _ => by simp [h]
  trips := fun a b h => by
    have hrest := h.rest
    refine .of_same ?_ ?_ ?_ (.inl ?_) <;> rw [hrest] <;> intros <;> rfl

theorem keepsDrives_askDrive (a : State) (u : Train) (d : Direction) (n : Nat)
    (hstate : a.DrivesBound carried wait nows →
      (a.positioner u).state = .jogging ∨ (a.positioner u).state = .lent) :
    KeepsDrives carried wait nows a (a.modPositioner u fun p => p.askDrive a.now (a.crusher u).deadTime d n) := by
  intro ha
  exact KeepsDrives.positioner a (fun hnow hdead hp => hp.askDrive hnow hdead (hstate ha))
    (fun _ => by rw [Positioner.askDrive_state]) ha

theorem keepsDrives_startTouch (a : State) (u : Train) : KeepsDrives carried wait nows a (a.startTouch u) := by
  intro ha
  set b := ((a.modSequencer fun _ => { Sequencer.atStart with
      state := .approach, subject := some u, limitTimer := some (a.timer ((a.crusher u).zeroTimeLimit * 1000))
      start := some a.now }).lendDrive u).addHold u .calibration with hb
  have hlent : b.DrivesBound carried wait nows := by
    refine ⟨ha.now, ha.dead, fun v => ?_, fun v hv => ?_⟩
    · show ((a.positioners.set u _).get v).Bound _ _ _
      by_cases hvu : v = u
      · subst hvu
        rw [Quad.get_set_self]
        exact (ha.drives v).lent a.now
      · rw [Quad.get_set_of_ne _ hvu]
        exact ha.drives v
    · obtain rfl : u = v := Option.some.inj hv
      show ((a.positioners.set u _).get u).state = .lent
      rw [Quad.get_set_self]
  have hasked := keepsDrives_askDrive (carried := carried) (wait := wait) (nows := nows) b u .closing (b.crusher u).creepDuty fun h => .inr (h.lent u rfl)
  have hask : KeepsDrives carried wait nows b (b.askLent u .closing) :=
    MoveClosed.ite (fun _ => MoveClosed.ite (fun _ => hasked.trans ((keepsDrives_trainClosed u).sequencer _ _ rfl Iff.rfl))
      fun _ => hasked) fun _ => hasked
  exact hask hlent

theorem keepsDrives_decides (a : State) (st : Station) (q : SettingRequest) :
    KeepsDrives carried wait nows a (a.decideSetting st q).state := by
  rw [State.decideSetting_state]
  generalize (a.numbered (a.slotOf st q)).placement (a.slotOf st q) = p
  have hboard (x : State) (d : Board) : KeepsDrives carried wait nows x (x.withBoard d) :=
    .of_same rfl (fun _ => rfl) (fun _ => rfl) (.inl rfl)
  have hnumbered : KeepsDrives carried wait nows a (a.numbered (a.slotOf st q)) := hboard a _
  have hplaced : KeepsDrives carried wait nows a ((a.numbered (a.slotOf st q)).place (a.slotOf st q) p) := by
    cases p with
    | applied => exact (keepsDrives_trainClosed st.train).toCalm.apply rfl (hnumbered.trans (.given _ _))
    | waiting i => exact hnumbered.trans (hboard _ _)
    | outranked | notAccepting | boardFull => exact hnumbered
  exact MoveClosed.ite (fun _ => hplaced.trans (.of_same rfl (fun _ => rfl) (fun _ => rfl) (.inl rfl))) fun _ => hplaced

theorem CrusherParams.deadTime_put (x : CrusherParams) {n : CrusherParam} (hn : n ≠ .deadTime) (v : Nat) :
    (x.put n v).deadTime = x.deadTime := by
  cases n
  case deadTime => exact absurd rfl hn
  all_goals rfl

theorem keepsDrives_freely : Freely (KeepsDrives carried wait nows) where
  closed := keepsDrives_trainClosed
  conditions := fun _ _ => .of_same rfl (fun _ => rfl) (fun _ => rfl) (.inl rfl)
  present := fun _ _ => .of_same rfl (fun _ => rfl) (fun _ => rfl) (.inl rfl)
  link := fun _ _ _ => .of_same rfl (fun _ => rfl) (fun _ => rfl) (.inl rfl)
  restart := fun _ _ => .of_same rfl (fun _ => rfl) (fun _ => rfl) (.inl rfl)
  time := fun a x hs hm => .of_same (by show x.seconds * 1000 + x.millis = _; rw [hs, hm]; rfl) (fun _ => rfl)
    (fun _ => rfl) (.inl rfl)
  inputs := fun _ _ => .of_same rfl (fun _ => rfl) (fun _ => rfl) (.inl rfl)
  lentAsked := fun a u d hsub => keepsDrives_askDrive a u d _ fun h => .inr (h.lent u hsub)
  begins := fun a u hdue => by
    refine .positioner a (fun hnow _ hp => ?_) fun _ => Positioner.beginPending_lent _
    unfold State.deadTimeDue at hdue
    split at hdue
    · cases hdue
    · next e he => exact hp.beginPending he hnow hdue
  jogs := fun a u j hfree => .positioner a (fun _ _ hp => hp.enters (.inl rfl) rfl rfl rfl)
    fun hs => absurd hs (of_decide_eq_false hfree)
  jogAsked := fun a u d n h => keepsDrives_askDrive a u d n fun _ => .inl h
  startTouch := keepsDrives_startTouch
  freed := fun _ _ => .of_same rfl (fun _ => rfl) (fun _ => rfl) (.inl rfl)
  selects := fun a st i r _ =>
    KeepsDrives.trans (b := a.freeSlot i) (.of_same rfl (fun _ => rfl) (fun _ => rfl) (.inl rfl)) (.given _ r)
  releases := fun a st => .station a st _
  decides := keepsDrives_decides
  second := fun a => by
    rcases a.secondBoundary_eq with h | h <;> rw [h]
    · exact .of_same rfl (fun _ => rfl) (fun _ => rfl) (.inl rfl)
    · exact .of_same rfl (fun _ => rfl) (fun _ => rfl) (.inl rfl)
  crusherParam := fun a u n v hn => .of_same rfl (fun w => by
    by_cases hwu : w = u
    · subst hwu
      rw [show (a.withCrusher w ((a.crusher w).put n v)).crusher w = (a.crusher w).put n v from Quad.get_set_self ..]
      exact CrusherParams.deadTime_put _ hn v
    · rw [show (a.withCrusher u ((a.crusher u).put n v)).crusher w = a.crusher w from Quad.get_set_of_ne _ hwu _])
    (fun _ => rfl) (.inl rfl)
  feederParam := fun _ _ _ _ => .of_same rfl (fun _ => rfl) (fun _ => rfl) (.inl rfl)
  lineParam := fun _ _ _ _ => .of_same rfl (fun _ => rfl) (fun _ => rfl) (.inl rfl)

end Sys2Proof.Machine
end

section
/-! PROOFS. A part at its start has its drives off, and the inputs first sampled start none; the law of the drives is kept
by every step (R68, R71). -/

namespace Sys2Proof.Machine

variable {a b c s t : State} {u v : Train} {st : Station}

/-! ### At rest -/

/-- A Positioner suspended under POSITION with its drive off. -/
def Positioner.Parked (p : Positioner) : Prop := p.state = .suspended ∧ p.reasons.position = true ∧ p.drive = none

/-- No touch runs, and no position is VALID: every Positioner is suspended under POSITION with its drive off. -/
structure State.AtRest (a : State) : Prop where
  idle : a.sequencer.subject = none
  lost : ∀ u, (a.gap u).validity ≠ .valid
  parked : ∀ u, (a.positioner u).Parked

namespace State.AtRest

theorem of_same (h : a.AtRest) (hsequencer : b.sequencer = a.sequencer)
    (hgap : ∀ u, (b.gap u).validity = (a.gap u).validity) (hpositioner : ∀ u, b.positioner u = a.positioner u) : b.AtRest :=
  ⟨hsequencer ▸ h.idle, fun u => hgap u ▸ h.lost u, fun u => hpositioner u ▸ h.parked u⟩

variable (h : a.AtRest)
include h

theorem free (u : Train) : a.isSubject u = false := by
  simp [State.isSubject, h.idle]

theorem positioner {f : Positioner → Positioner} (hf : (f (a.positioner u)).Parked) : (a.modPositioner u f).AtRest := by
  refine ⟨h.idle, h.lost, fun v => ?_⟩
  by_cases hvu : v = u
  · subst hvu
    rwa [State.positioner_modPositioner]
  · rw [State.positioner_modPositioner_of_ne a hvu]
    exact h.parked v

theorem addReason (u : Train) (r : Reason) : (a.addReason u r).AtRest := by
  obtain ⟨hs, hp, hd⟩ := h.parked u
  rw [State.addReason_barred]
  refine h.positioner ?_
  unfold Positioner.barred
  rw [if_neg (by simp [hs])]
  unfold Positioner.under
  split
  · exact h.parked u
  · rw [if_neg (by simp [Reasons.isEmpty, hp])]
    refine ⟨hs, ?_, hd⟩
    cases r <;> simp [Reasons.put, hp]

theorem removeReason (u : Train) {r : Reason} (hr : r ≠ .position) : (a.removeReason u r).AtRest := by
  obtain ⟨hs, hp, hd⟩ := h.parked u
  have hkept : ((a.positioner u).reasons.put r false).has .position = true := by
    rw [Reasons.has_put, if_neg (Ne.symm hr)]
    exact hp
  rw [State.removeReason_eq (.inr (Bool.eq_false_iff.mpr fun hempty => by
    rw [(Reasons.isEmpty_iff _).mp hempty] at hkept
    cases hkept))]
  exact h.positioner ⟨hs, hkept, hd⟩

theorem station (st : Station) (f : StationRecord → StationRecord) : (a.modStation st f).AtRest := by
  obtain ⟨u, r⟩ := st
  cases r <;> exact h.of_same rfl (fun _ => rfl) fun _ => rfl

theorem evaluate (u : Train) : (a.evaluate (crusherOf u)).AtRest := by
  rw [State.evaluate_eq (.inl (State.accepting_of_validity (h.lost u)))]
  exact h.station _ _

theorem abortIfSubject (u : Train) (r : TouchResult) : (a.abortIfSubject u r).AtRest := by
  rw [State.abortIfSubject, h.free u]
  exact h

theorem reliefOnset (u : Train) : (a.reliefOnset u).AtRest := by
  have hbegun : (a.reliefBegun u).AtRest := by
    have hrest := (a.reliefBegun_tripStep u).rest
    generalize a.reliefBegun u = b at *
    refine h.of_same ?_ ?_ ?_ <;> rw [hrest] <;> intros <;> rfl
  have hheld : ((a.reliefBegun u).floorAndHold u .relief).AtRest := hbegun.of_same rfl (fun _ => rfl) fun _ => rfl
  exact (((hheld.addReason u .relief).evaluate u).abortIfSubject u .abortedRelief).of_same rfl (fun _ => rfl) fun _ => rfl

theorem setDetector (u : Train) (active : Bool) : (a.setDetector u active).AtRest := by
  have hlevel : (a.modSupervisor u fun v => { v with detectorActive := active }).AtRest :=
    h.of_same rfl (fun _ => rfl) fun _ => rfl
  have hend : ((a.modSupervisor u fun v => { v with detectorActive := active }).reliefEnd u).AtRest := by
    unfold State.reliefEnd
    split
    · exact hlevel.of_same rfl (fun _ => rfl) fun _ => rfl
    · exact hlevel
  unfold State.setDetector
  dsimp only
  split
  · exact h
  · split
    · exact hlevel.reliefOnset u
    · exact hend

theorem conveyorHold (running : Bool) (u : Train) : (a.conveyorHold running u).AtRest := by
  unfold State.conveyorHold
  split <;> exact h.of_same rfl (fun _ => rfl) fun _ => rfl

theorem conveyorCondition (code : Code) (running : Bool) : (a.conveyorCondition code running).AtRest := by
  unfold State.conveyorCondition
  split <;> exact h.of_same rfl (fun _ => rfl) fun _ => rfl

theorem runningChanged (u : Train) (running : Bool) : (a.runningChanged u running).AtRest := by
  have hheld : (a.crusherRunningChanged u running).AtRest := by
    unfold State.crusherRunningChanged
    split <;> exact h.of_same rfl (fun _ => rfl) fun _ => rfl
  unfold State.runningChanged
  split
  · exact h
  · dsimp only
    split
    · exact hheld
    · exact hheld.abortIfSubject u _

theorem deliverChange (i : DigitalInput) (level : Bool) : (a.deliverChange i level).AtRest := by
  cases i with
  | running u => exact h.runningChanged u level
  | reliefSwitch u =>
    show State.AtRest (if _ then _ else _)
    split
    · unfold State.reliefSwitchChanged
      split
      · exact h
      · unfold State.judgeSwitch
        split
        · exact h
        · exact h.setDetector u _
    · exact h
  | surgeConveyor => exact (h.conveyorHold level .t0).conveyorCondition _ _
  | productConveyor =>
    exact (((h.conveyorHold level .t1).conveyorHold level .t2).conveyorHold level .t3).conveyorCondition _ _

theorem digitalChange (i : DigitalInput) : (a.digitalChange i).AtRest := by
  unfold State.digitalChange
  dsimp only
  split
  · have hinputs : (a.withInputs (a.inputs.putDigital i (a.inputs.digital i).changed)).AtRest :=
      h.of_same rfl (fun _ => rfl) fun _ => rfl
    exact hinputs.deliverChange i _
  · exact h

theorem estopAssert : a.estopAssert.AtRest := by
  unfold State.estopAssert
  dsimp only
  split
  · have hinputs : (a.withInputs { a.inputs with estop := a.inputs.estop.changed }).AtRest :=
      h.of_same rfl (fun _ => rfl) fun _ => rfl
    have hreasons := Acts.forTrains (R := fun _ b => b.AtRest) (s := a) (f := fun t s => s.addReason t .estop)
      (fun t b hb => hb.addReason t .estop) hinputs
    have hholds := Acts.forTrains (R := fun _ b => b.AtRest) (s := a) (f := fun t s => s.addHold t .estop)
      (fun t b hb => hb.of_same rfl (fun _ => rfl) fun _ => rfl) hreasons
    unfold State.abortRunning
    rw [hholds.idle]
    exact hholds.of_same rfl (fun _ => rfl) fun _ => rfl
  · exact h

theorem estopRelease : a.estopRelease.AtRest := by
  unfold State.estopRelease
  dsimp only
  split
  · have hinputs : (a.withInputs { a.inputs with estop := a.inputs.estop.changed }).AtRest :=
      h.of_same rfl (fun _ => rfl) fun _ => rfl
    have hreasons := Acts.forTrains (R := fun _ b => b.AtRest) (s := a) (f := fun t s => s.removeReason t .estop)
      (fun t b hb => hb.removeReason t (by decide)) hinputs
    have hholds := Acts.forTrains (R := fun _ b => b.AtRest) (s := a) (f := fun t s => s.removeHold t .estop)
      (fun t b hb => hb.of_same rfl (fun _ => rfl) fun _ => rfl) hreasons
    exact hholds.of_same rfl (fun _ => rfl) fun _ => rfl
  · exact h

theorem sampleInputs (x : Samples) : (a.sampleInputs x).AtRest := by
  have hlevel (i : DigitalInput) (b : State) (hb : b.AtRest) : (b.firstLevel i).AtRest := by
    unfold State.firstLevel
    split
    · exact hb.digitalChange i
    · exact hb
  have hfirst : (DigitalInput.all.foldl State.firstLevel (a.withInputs (a.inputs.sampled x))).AtRest :=
    Acts.foldl (R := fun _ b => b.AtRest) (s := a) (f := State.firstLevel) hlevel _
      (h.of_same rfl (fun _ => rfl) fun _ => rfl)
  unfold State.sampleInputs State.firstEstop
  split
  · exact hfirst.estopAssert.estopRelease
  · exact hfirst

theorem countLoadeds : (a.forTrains State.countLoaded).AtRest := by
  refine Acts.forTrains (R := fun _ b => b.AtRest) (s := a) (fun t b hb => ?_) h
  unfold State.countLoaded
  split
  · refine hb.of_same rfl (fun v => ?_) fun _ => rfl
    by_cases hvt : v = t
    · subst hvt
      rw [State.gap_modGap]
    · rw [State.gap_modGap_of_ne b hvt]
  · exact hb

omit h in
theorem startFrom (store : Store) (stamp : Stamp) (q : List Instr) : (startFrom store stamp q).AtRest := by
  rw [startFrom_eq]
  refine ⟨rfl, fun u => ?_, fun u => ?_⟩
  · cases u <;> nofun
  · cases u <;> exact ⟨rfl, rfl, rfl⟩

theorem tickOutputs (x : TimeBase) : (a.withTime x).tickOutputs.AtRest := by
  refine ⟨h.idle, h.lost, fun u => ?_⟩
  obtain ⟨hs, hp, hd⟩ := h.parked u
  have hsame : ((a.withTime x).positioner u) = a.positioner u := rfl
  rw [State.tickOutputs_positioner, hsame]
  refine ⟨by rw [Positioner.tick_state, hs], ?_⟩
  have hjog : (a.positioner u).tickJog = a.positioner u := by
    unfold Positioner.tickJog
    split
    · rfl
    · simp [hd]
  rw [hjog, Positioner.tickValve, hd]
  exact ⟨hp, hd⟩

end State.AtRest

/-! ### Every step -/

/-- The law of the drives, with nothing asked of how each began. -/
def State.drivesFree (s : State) : Prop := s.DrivesBound (fun _ _ => True) (fun _ _ => True) fun _ => True

theorem State.drivesFree_iff :
    s.drivesFree ↔ s.drivesLawful ∧ ∀ u, s.sequencer.subject = some u → (s.positioner u).state = .lent :=
  ⟨fun h => ⟨fun u => (h.drives u).lawful, h.lent⟩, fun h =>
    ⟨trivial, fun _ => trivial, fun u => ⟨h.1 u, fun _ _ => trivial, fun _ _ => .inl trivial⟩, h.2⟩⟩

/-- The outputs of a millisecond, at any time that counts. -/
theorem KeepsDrives.ticks {carried : Train → Direction → Prop} {wait : Train → Nat → Prop} {nows : Nat → Prop}
    (h : a.DrivesBound carried wait nows) {x : TimeBase} (hnow : nows (x.seconds * 1000 + x.millis)) :
    (a.withTime x).tickOutputs.DrivesBound carried wait nows where
  now := hnow
  dead := h.dead
  drives := fun u => by
    rw [State.tickOutputs_positioner]
    exact (h.drives u).tick
  lent := fun u hu => by
    rw [State.tickOutputs_positioner, Positioner.tick_state]
    exact h.lent u hu

theorem State.AtRest.drivesFree (h : a.AtRest) (hp : ∀ u, (a.positioner u).pendingDrive = none) : a.drivesFree :=
  State.drivesFree_iff.mpr ⟨fun u => (Positioner.Bound.of_off (carried := fun _ => True) (wait := fun _ => True)
    (nows := fun _ => True) (h.parked u).2.2 (hp u) (by simp [(h.parked u).1]) (by simp [(h.parked u).1])).lawful,
    fun u hu => by rw [h.idle] at hu; cases hu⟩

theorem drivesFree_kept : Kept State.drivesFree where
  acts := keepsDrives_freely.acts
  waits := fun a u v h => ⟨trivial, fun _ => trivial, h.drives, h.lent⟩
  starts := fun store stamp q => (State.AtRest.startFrom store stamp q).drivesFree fun u => by
    rw [startFrom_eq]
    cases u <;> rfl
  lost := fun s => State.drivesFree_iff.mpr
    ⟨fun u => by cases u <;> exact ⟨nofun, nofun, nofun, nofun⟩, nofun⟩
  ticks := fun a h => KeepsDrives.ticks h trivial
  queue := fun _ _ h => ⟨trivial, fun _ => trivial, h.drives, h.lent⟩

end Sys2Proof.Machine
end

section
/-! PROOFS. Every step keeps the law of the valve drives, and every drive that begins in it begins by the dead time (R68,
R71). -/

namespace Sys2Proof.Machine

variable {a b s t : State} {u : Train}

/-- The directions of the drives that are on. -/
def State.onIn (s : State) (u : Train) (d : Direction) : Prop := ∃ e, (s.positioner u).drive = some e ∧ e.direction = d

/-- The DEAD_TIME in force, and that of a pending drive. -/
def State.waitsFor (s : State) (u : Train) (w : Nat) : Prop :=
  w = (s.crusher u).deadTime ∨ ∃ e, (s.positioner u).pendingDrive = some e ∧ w = e.deadTime.length

/-- The drives of a state keep their law, with what was on, pending and in force at an earlier one, up to now. -/
def State.drivesSince (s : State) (nows : Nat → Prop) : State → Prop := State.DrivesBound s.onIn s.waitsFor nows

theorem State.drivesSince_self {nows : Nat → Prop} (hnow : nows s.now) (ht : s.touchLawful) (hd : s.drivesLawful) :
    s.drivesSince nows s where
  now := hnow
  dead := fun _ => .inl rfl
  drives := fun u => ⟨hd u, fun e he => .inr ⟨e, he, rfl⟩, fun d hd => .inl ⟨d, hd, rfl⟩⟩
  lent := fun u hu => ((ht.2.2 u).1).mpr hu

theorem Positioner.Bound.beginsByDeadTime
    (h : (t.positioner u).Bound (s.onIn u) (s.waitsFor u) fun n => n = s.now ∨ n = t.now) : s.beginsByDeadTime t u := by
  intro d hd
  refine (h.begun d hd).imp id (Or.imp id ?_)
  rintro ⟨w, n, hw, hn, hlong⟩
  refine ⟨w, hw, ?_⟩
  rcases hn with rfl | rfl
  · exact .inl hlong
  · exact .inr hlong

theorem State.beginsByDeadTime_of_off (h : (t.positioner u).drive = none) : s.beginsByDeadTime t u := by
  intro d hd
  cases h.symm.trans hd

theorem State.settle_eq (s : State) :
    s.settle = if s.settling.restartDue then startFrom s.settling.store s.settling.stamp s.settling.pending
      else s.settling := by
  unfold State.settle State.restartStart State.settling
  rfl

theorem State.millisecondBoundary_eq (s : State) (x : Samples) :
    s.millisecondBoundary x =
      (((s.settle.withTime s.settle.time.advance).tickOutputs).sampleInputs x).forTrains State.countLoaded := by
  unfold State.millisecondBoundary
  rfl

/-- What a millisecond boundary begins: outstanding drives, and those of the inputs first sampled at the new time. -/
theorem State.millisecondBoundary_begins (x : Samples) (ht : s.touchLawful) (hd : s.drivesLawful) (u : Train) :
    s.beginsByDeadTime (s.millisecondBoundary x) u := by
  rw [State.millisecondBoundary_eq]
  by_cases hdue : s.settling.restartDue = true
  · have hrest : s.settle.AtRest := by
      rw [State.settle_eq, if_pos hdue]
      exact State.AtRest.startFrom s.settling.store s.settling.stamp s.settling.pending
    exact State.beginsByDeadTime_of_off ((((hrest.tickOutputs s.settle.time.advance).sampleInputs x).countLoadeds).parked u).2.2
  · rw [State.settle_eq, if_neg hdue]
    set q := (s.settling.withTime s.settling.time.advance).tickOutputs with hq
    have hlast {carried : Train → Direction → Prop} {wait : Train → Nat → Prop} {nows : Nat → Prop} :
        KeepsDrives carried wait nows q ((q.sampleInputs x).forTrains State.countLoaded) :=
      keepsDrives_freely.acts.countLoadeds (keepsDrives_freely.acts.sampleInputs (keepsDrives_freely.refl q) x)
    have hsince (nows : Nat → Prop) (hnow : nows s.now) (hq : nows q.now) : s.drivesSince nows q :=
      KeepsDrives.ticks (keepsDrives_freely.acts.settling (keepsDrives_freely.refl s)
        (State.drivesSince_self hnow ht hd)) hq
    have hnow : ((q.sampleInputs x).forTrains State.countLoaded).now = q.now :=
      (hlast (carried := fun _ _ => True) (wait := fun _ _ => True) (nows := (· = q.now))
        ⟨rfl, fun _ => trivial, fun u => ⟨((hsince (fun _ => True) trivial trivial).drives u).lawful, fun _ _ => trivial,
          fun _ _ => .inl trivial⟩, (hsince (fun _ => True) trivial trivial).lent⟩).now
    refine Positioner.Bound.beginsByDeadTime ((hlast (hsince _ (.inl rfl) (.inr ?_))).drives u)
    exact hnow.symm

/-- Every drive that begins in a step begins by the dead time. -/
theorem step_beginsByDeadTime (ht : s.touchLawful) (hd : s.drivesLawful) (h : step s = .next t) (u : Train) :
    s.beginsByDeadTime t u := by
  have hends {a : State} (ht : a.touchLawful) (hd : a.drivesLawful) {i : Instr} (h : exec i a = .next t) :
      a.beginsByDeadTime t u := by
    have hacts : Acts (KeepsDrives a.onIn a.waitsFor fun n => n = a.now ∨ n = t.now) := keepsDrives_freely.acts
    have hself : a.drivesSince (fun n => n = a.now ∨ n = t.now) a := State.drivesSince_self (.inl rfl) ht hd
    cases hacts.exec_ends h with
    | taken h =>
      rcases h with h | ⟨b, v, w, l, f, hb, rfl⟩
      · exact ((h hself).drives u).beginsByDeadTime
      · exact ((hb hself).drives u).beginsByDeadTime
    | starts store stamp =>
      exact State.beginsByDeadTime_of_off ((State.AtRest.startFrom store stamp a.pending).parked u).2.2
    | lost =>
      refine State.beginsByDeadTime_of_off ?_
      cases u <;> rfl
    | ticks x => exact a.millisecondBoundary_begins x ht hd u
  unfold Machine.step at h
  split at h
  · obtain rfl := Host.Outcome.next.inj h
    exact fun d hd => .inl ⟨d, hd, rfl⟩
  · next i rest _ =>
    have hlaw : (s.withPending rest).touchLawful := ht
    have hlaws : (s.withPending rest).drivesLawful := hd
    exact fun d hon => hends hlaw hlaws h d hon

/-- The OPEN and the CLOSE output are never active together: one direction is driven at most. -/
theorem Positioner.outputActive_exclusive (p : Positioner) :
    p.outputActive .opening = false ∨ p.outputActive .closing = false := by
  unfold Positioner.outputActive
  rcases p.drive with _ | ⟨_ | _, _⟩
  · exact .inl rfl
  · exact .inr rfl
  · exact .inl rfl

/-- Settles O9, by the law of the drives that every act keeps. -/
theorem driveLawKept : Obligations.DriveLawKept := by
  refine ⟨fun s t ht hd h => ⟨?_, step_beginsByDeadTime ht hd h⟩, fun s u => (s.positioner u).outputActive_exclusive⟩
  exact (State.drivesFree_iff.mp (drivesFree_kept.step h
    (State.drivesFree_iff.mpr ⟨hd, fun u hu => ((ht.2.2 u).1).mpr hu⟩))).1

end Sys2Proof.Machine
end

section
/-! PROOFS. The numbers of waiting requests and of standing settings stay distinct and below the counter (R27, R28). -/

namespace Sys2Proof.Machine

variable {a b c s t : State} {u : Train} {st : Station} {x n : Nat}

/-! ### The live numbers, counted -/

/-- The slots that wait under a number. -/
def Board.waitingAt (d : Board) (x : Nat) : Nat := d.slots.countP fun o => o.any fun r => decide (r.sequence = x)

/-- The standing settings under a number. -/
def State.standingAt (s : State) (x : Nat) : Nat :=
  Station.all.countP fun st => decide ((s.station st).standing.sequence = some x)

theorem State.count_liveNumbers (s : State) (x : Nat) : s.liveNumbers.count x = s.board.waitingAt x + s.standingAt x := by
  rw [State.liveNumbers, List.count_append, List.count_filterMap, List.count_filterMap]
  congr 1
  · refine List.countP_congr fun o _ => ?_
    cases o <;> simp
  · refine List.countP_congr fun st _ => ?_
    simp

theorem State.numbersLawful_iff :
    s.numbersLawful ↔ ∀ x, s.liveNumbers.count x ≤ 1 ∧ (0 < s.liveNumbers.count x → 1 ≤ x ∧ x < s.board.counter) := by
  rw [State.numbersLawful, List.nodup_iff_count_le_one, ← forall_and]
  exact forall_congr' fun x => and_congr_right fun _ => by rw [List.count_pos_iff]

/-- One station's number replaced. -/
theorem countP_station_le {p q : Station → Bool} (h : ∀ z, z ≠ st → p z = true → q z = true) :
    Station.all.countP p ≤ Station.all.countP q + if p st then 1 else 0 := by
  have hsplit : Station.all.countP p ≤ Station.all.countP (fun z => q z || (p st && decide (z = st))) :=
    List.countP_mono_left fun z _ hz => by
      by_cases hst : z = st
      · subst hst
        simp [hz]
      · simp [h z hst hz]
  have hor {f : Station → Bool} (l : List Station) : l.countP (fun z => q z || f z) ≤ l.countP q + l.countP f := by
    induction l with
    | nil => simp
    | cons z l ih =>
      simp only [List.countP_cons]
      cases q z <;> cases f z <;> simp <;> omega
  have hone : Station.all.countP (fun z => p st && decide (z = st)) ≤ if p st then 1 else 0 := by
    cases p st
    · simp
    · obtain ⟨v, r⟩ := st
      cases v <;> cases r <;> decide
  exact hsplit.trans ((hor _).trans (Nat.add_le_add_left hone _))

/-! ### Operations that bring no number -/

/-- No number is live that was not, and the counter stays. -/
structure Fewer (a b : State) : Prop where
  counter : b.board.counter = a.board.counter
  live : ∀ x, b.liveNumbers.count x ≤ a.liveNumbers.count x

namespace Fewer

theorem refl (a : State) : Fewer a a := ⟨rfl, fun _ => le_rfl⟩

theorem trans (h : Fewer a b) (k : Fewer b c) : Fewer a c :=
  ⟨k.counter.trans h.counter, fun x => (k.live x).trans (h.live x)⟩

theorem of_parts (hcounter : b.board.counter = a.board.counter) (hslots : ∀ x, b.board.waitingAt x ≤ a.board.waitingAt x)
    (hstanding : ∀ x, b.standingAt x ≤ a.standingAt x) : Fewer a b :=
  ⟨hcounter, fun x => by rw [State.count_liveNumbers, State.count_liveNumbers]; exact Nat.add_le_add (hslots x) (hstanding x)⟩

theorem of_same (hboard : b.board = a.board) (hstanding : ∀ st, (b.station st).standing.origin = (a.station st).standing.origin) :
    Fewer a b :=
  .of_parts (by rw [hboard]) (fun x => by rw [hboard]) fun x => le_of_eq <| List.countP_congr fun st _ => by
    rw [Standing.sequence, Standing.sequence, hstanding]

theorem board (a : State) {d : Board} (hcounter : d.counter = a.board.counter)
    (hslots : ∀ x, d.waitingAt x ≤ a.board.waitingAt x) : Fewer a (a.withBoard d) :=
  .of_parts hcounter hslots fun _ => le_rfl

/-- A record written, its setting of the same source or START. -/
theorem station (a : State) (st : Station) {f : StationRecord → StationRecord}
    (hf : (f (a.station st)).standing.origin = (a.station st).standing.origin ∨ (f (a.station st)).standing.origin = .start) :
    Fewer a (a.modStation st f) := by
  refine .of_parts (by rw [State.modStation_board]) (fun x => by rw [State.modStation_board]) fun x => ?_
  refine List.countP_mono_left fun z _ hz => ?_
  by_cases hst : z = st
  · subst hst
    rw [State.station_modStation] at hz
    rcases hf with hf | hf
    · rwa [Standing.sequence, hf] at hz
    · simp [Standing.sequence, hf] at hz
  · rwa [State.station_modStation_of_ne a hst] at hz

theorem freeSlot (a : State) (i : Nat) : Fewer a (a.freeSlot i) :=
  .board a rfl fun _ => countP_set_none_le a.board.slots i _ rfl

theorem freeWhere (a : State) (gone : Slot → Bool) : Fewer a (a.withBoard (a.board.freeWhere gone)) := by
  refine .board a rfl fun x => ?_
  rw [Board.waitingAt, Board.freeWhere_eq, List.countP_map]
  refine List.countP_mono_left fun o _ ho => ?_
  rw [Function.comp_apply] at ho
  split at ho
  · cases ho
  · exact ho

end Fewer

/-! ### A request that becomes the standing setting -/

theorem State.applied_given (s : State) {i : Nat} {r : Slot} (hst : r.station = crusherOf u) :
    s.applied u i r = (s.freeSlot i).given r := by
  rw [State.given, hst]
  rfl

theorem State.fed_given (s : State) {i : Nat} {r : Slot} (hst : r.station = feederOf u) :
    s.fed u i r = (s.freeSlot i).given r := by
  rw [State.given, hst]
  rfl

/-- What is given to a station takes the number of its setting's place. -/
theorem State.given_live (s : State) (r : Slot) (x : Nat) :
    (s.given r).board = s.board ∧
      (s.given r).standingAt x ≤ s.standingAt x + if r.sequence = x then 1 else 0 := by
  refine ⟨by rw [State.given, State.modStation_board, State.modStation_board], ?_⟩
  have hone := countP_station_le (st := r.station)
    (p := fun z => decide (((s.given r).station z).standing.sequence = some x))
    (q := fun z => decide ((s.station z).standing.sequence = some x)) fun z hz h => by
      rwa [State.given, State.station_modStation_of_ne _ hz, State.station_modStation_of_ne _ hz] at h
  refine hone.trans (Nat.add_le_add_left (le_of_eq ?_) _)
  rw [State.given, State.station_modStation]
  simp [Standing.sequence]

/-- The best slot freed and its request given bring no number. -/
theorem Fewer.selected {i : Nat} {r : Slot} (h : bestSlot st 0 s.board.slots = some (i, r)) :
    Fewer s ((s.freeSlot i).given r) := by
  obtain ⟨k, hk, hslot, -⟩ := bestSlot_mem h
  obtain rfl : i = k := by omega
  have hboard := ((s.freeSlot i).given_live r 0).1
  refine ⟨by rw [hboard]; rfl, fun x => ?_⟩
  obtain ⟨-, hgiven⟩ := (s.freeSlot i).given_live r x
  obtain ⟨hlen, hget⟩ := List.getElem?_eq_some_iff.mp hslot
  have hfreed : (s.freeSlot i).board.waitingAt x + (if r.sequence = x then 1 else 0) = s.board.waitingAt x := by
    show (s.board.slots.set i none).countP _ + _ = s.board.slots.countP _
    rw [List.countP_set hlen, hget]
    have hpos : (if r.sequence = x then 1 else 0) ≤ s.board.slots.countP fun o => o.any fun r => decide (r.sequence = x) := by
      split
      · next hx => exact List.countP_pos_iff.mpr ⟨some r, hget ▸ List.getElem_mem hlen, by simpa using hx⟩
      · exact Nat.zero_le _
    simp only [Option.any_some, Option.any_none, decide_eq_true_eq, Bool.false_eq_true, if_false]
    omega
  rw [State.count_liveNumbers, State.count_liveNumbers, hboard]
  have hsame : (s.freeSlot i).standingAt x = s.standingAt x := rfl
  omega

end Sys2Proof.Machine
end

section
/-! PROOFS. Every step keeps the numbers of requests and settings distinct and below the counter (R27, R28). -/

namespace Sys2Proof.Machine

variable {a b c s t : State} {u : Train} {st : Station} {x n : Nat}

/-! ### A train's operations bring no number -/

theorem fewer_moveClosed (u : Train) : MoveClosed u Fewer where
  refl := .refl
  trans := .trans
  positioner := fun _ _ _ => .of_same rfl fun _ => rfl
  addGapMove := fun _ => .of_same rfl fun _ => rfl
  removeGapMove := fun _ => .of_same rfl fun _ => rfl
  episode := fun _ _ => .of_same rfl fun _ => rfl
  judged := fun a _ => .station a _ (.inl rfl)
  selected := fun a i r _ _ hb _ => by
    have hevaluated : Fewer a (a.evaluated u) := .station a _ (.inl rfl)
    rw [State.applied_given _ (bestSlot_station hb)]
    refine hevaluated.trans (.selected (st := crusherOf u) ?_)
    rwa [State.evaluated, State.modStation_board]

/-- An evaluation of a feeder's predicate gives the best slot's request at most. -/
theorem Fewer.evaluate_feeder (a : State) (u : Train) : Fewer a (a.evaluate (feederOf u)) := by
  have hevaluated : Fewer a (a.feederEvaluated u) := .station a _ (.inl rfl)
  rcases a.evaluate_feeder_cases u with ⟨he, -⟩ | ⟨i, r, hb, -, -, -, he⟩
  · rwa [he]
  · have hfed : Fewer a ((a.feederEvaluated u).fed u i r) := by
      rw [State.fed_given _ (bestSlot_station hb)]
      refine hevaluated.trans (.selected (st := feederOf u) ?_)
      rwa [State.feederEvaluated, State.modStation_board]
    rcases he with he | he <;> rw [he]
    · exact hfed
    · exact hfed.trans (.of_same rfl fun _ => rfl)

theorem fewer_trainClosed (u : Train) : TrainClosed u Fewer where
  toMoveClosed := fewer_moveClosed u
  store := fun _ _ => .of_same rfl fun _ => rfl
  reports := fun _ _ _ _ => .of_same rfl fun _ => rfl
  sequencer := fun _ _ _ _ => .of_same rfl fun _ => rfl
  governor := fun _ _ _ _ => .of_same rfl fun _ => rfl
  bars := fun _ _ => .of_same rfl fun _ => rfl
  measures := fun _ _ _ => .of_same rfl fun _ => rfl
  notes := fun _ _ _ => .of_same rfl fun _ => rfl
  supervises := fun _ _ _ _ _ => .of_same rfl fun _ => rfl
  record := fun a st _ _ _ _ _ h => .station a st (.inl h)
  started := fun a st _ _ _ => .station a st (.inr rfl)
  evaluates := fun a => .evaluate_feeder a u
  frees := .freeWhere
  endTouch := fun _ _ => .of_same rfl fun _ => rfl
  gap := fun _ _ => .of_same rfl fun _ => rfl
  zero := fun _ _ => .of_same rfl fun _ => rfl
  mode := fun a st _ _ => .station a st (.inl rfl)
  starts := fun a st _ _ => .station a st (.inr rfl)
  timeOut := fun _ _ => .of_same rfl fun _ => rfl
  leaves := fun _ _ => .of_same rfl fun _ => rfl
  trips := fun a b h => by
    have hrest := h.rest
    exact .of_same (by rw [hrest]) fun st => by rw [hrest]; rfl

/-! ### The law -/

/-- The live numbers are distinct, and lie from 1 to below a bound. -/
def State.numbersBelow (n : Nat) (s : State) : Prop :=
  ∀ x, s.liveNumbers.count x ≤ 1 ∧ (0 < s.liveNumbers.count x → 1 ≤ x ∧ x < n)

/-- The law of the numbers, with a counter that numbers can be given from. -/
def State.numbered_lawful (s : State) : Prop := s.numbersBelow s.board.counter ∧ 1 ≤ s.board.counter

theorem Fewer.keeps (h : Fewer a b) (ha : a.numbered_lawful) : b.numbered_lawful := by
  obtain ⟨hbelow, hpos⟩ := ha
  refine ⟨fun x => ?_, h.counter ▸ hpos⟩
  obtain ⟨hone, hrange⟩ := hbelow x
  have hle := h.live x
  rw [h.counter]
  exact ⟨hle.trans hone, fun hx => hrange (hx.trans_le hle)⟩

/-! ### Renumbering -/

theorem Standing.renumbered_sequence (live : List Nat) (x : Standing) :
    (x.renumbered live).sequence = x.sequence.map (rankIn live) := by
  obtain ⟨target, priority, origin, keep⟩ := x
  cases origin <;> rfl

theorem State.renumber_liveNumbers (s : State) : s.renumber.liveNumbers = s.liveNumbers.map (rankIn s.liveNumbers) := by
  have hslots : s.renumber.board.slots =
      s.board.slots.map fun o => o.map fun r => { r with sequence := rankIn s.liveNumbers r.sequence } := rfl
  rw [State.liveNumbers, hslots]
  conv_rhs => rw [State.liveNumbers, List.map_append, List.map_filterMap, List.map_filterMap]
  rw [List.filterMap_map]
  congr 1
  · refine List.filterMap_congr fun o _ => ?_
    cases o <;> rfl
  · refine List.filterMap_congr fun st _ => ?_
    rw [State.station_renumber, Standing.renumbered_sequence]
    rfl

/-- The ranks of numbers keep their order. -/
theorem rankIn_lt {live : List Nat} {p q : Nat} (hp : p ∈ live) (h : p < q) : rankIn live p < rankIn live q := by
  rw [rankIn_eq, rankIn_eq, Nat.add_lt_add_iff_right]
  have hle : live.countP (fun m => decide (m < p)) ≤ live.countP (fun m => decide (m < q) && !decide (m = p)) :=
    List.countP_mono_left fun m _ hm => by
      simp only [decide_eq_true_eq] at hm
      simp only [Bool.and_eq_true, Bool.not_eq_true', decide_eq_false_iff_not, decide_eq_true_eq]
      omega
  have hsplit : live.countP (fun m => decide (m < q)) =
      live.countP (fun m => decide (m < q) && decide (m = p)) +
        live.countP (fun m => decide (m < q) && !decide (m = p)) := by
    rw [List.countP_eq_countP_filter_add live _ fun m => decide (m = p), List.countP_filter, List.countP_filter]
  have hone : 0 < live.countP fun m => decide (m < q) && decide (m = p) :=
    List.countP_pos_iff.mpr ⟨p, hp, by simpa using h⟩
  omega

theorem rankIn_le {live : List Nat} {q : Nat} (hq : q ∈ live) : rankIn live q < live.length + 1 := by
  rw [rankIn_eq]
  have hlt : live.countP (fun m => decide (m < q)) < live.length :=
    List.countP_lt_length_iff.mpr ⟨q, hq, by simp⟩
  omega

theorem State.renumber_lawful (h : s.numbersBelow n) : s.renumber.numbered_lawful := by
  have hnodup : s.liveNumbers.Nodup := List.nodup_iff_count_le_one.mpr fun x => (h x).1
  have hmapped : (s.liveNumbers.map (rankIn s.liveNumbers)).Nodup := by
    refine hnodup.map_on fun p hp q hq hpq => ?_
    rcases Nat.lt_trichotomy p q with hlt | heq | hgt
    · exact absurd hpq (rankIn_lt hp hlt).ne
    · exact heq
    · exact absurd hpq (rankIn_lt hq hgt).ne'
  refine ⟨fun x => ?_, Nat.succ_le_succ (Nat.zero_le _)⟩
  rw [State.renumber_liveNumbers]
  refine ⟨List.nodup_iff_count_le_one.mp hmapped x, fun hx => ?_⟩
  obtain ⟨q, hq, rfl⟩ := List.mem_map.mp (List.count_pos_iff.mp hx)
  exact ⟨Nat.succ_le_succ (Nat.zero_le _), rankIn_le hq⟩

/-! ### A setting request -/

/-- A request decided takes its number at most, which none has. -/
theorem State.placed_numbersBelow (r : Slot) (hr : r.sequence = a.board.counter) (ha : a.numbered_lawful) (p : Placement) :
    ((a.numbered r).place r p).numbersBelow (a.board.counter + 1) ∧
      ((a.numbered r).place r p).board.counter =
        if a.board.counter = 4294967295 then a.board.counter else a.board.counter + 1 := by
  obtain ⟨hbelow, hpos⟩ := ha
  have hslots (x : Nat) : (a.numbered r).board.waitingAt x ≤ a.board.waitingAt x := by
    have hfree := (Fewer.freeWhere a (Slot.isOf r.source r.station)).live x
    rw [State.count_liveNumbers, State.count_liveNumbers, Board.freeWhere_eq] at hfree
    exact Nat.le_of_add_le_add_right (b := a.standingAt x) hfree
  have hlive (b : State) (hb : ∀ x, b.liveNumbers.count x ≤ a.liveNumbers.count x + if r.sequence = x then 1 else 0) :
      b.numbersBelow (a.board.counter + 1) := by
    intro x
    have hle := hb x
    obtain ⟨hone, hrange⟩ := hbelow x
    split at hle
    · next hx =>
      have hfresh : a.liveNumbers.count x = 0 := by
        by_contra hne
        have := (hrange (Nat.pos_of_ne_zero hne)).2
        omega
      exact ⟨by omega, fun _ => by omega⟩
    · refine ⟨by omega, fun hpositive => ?_⟩
      have := hrange (by omega)
      omega
  have hnone : (a.numbered r).numbersBelow (a.board.counter + 1) := hlive _ fun x => by
    have hx := hslots x
    have hsame : (a.numbered r).standingAt x = a.standingAt x := rfl
    rw [State.count_liveNumbers, State.count_liveNumbers]
    omega
  cases p with
  | applied =>
    have hgiven (x : Nat) := (a.numbered r).given_live r x
    have happly : Fewer ((a.numbered r).given r) ((a.numbered r).apply r) :=
      (fewer_trainClosed r.station.train).toCalm.apply rfl (.refl _)
    refine ⟨hlive _ fun x => (happly.live x).trans ?_, happly.counter.trans (by rw [(hgiven 0).1]; rfl)⟩
    have hx := hslots x
    have hstanding := (hgiven x).2
    have hsame : (a.numbered r).standingAt x = a.standingAt x := rfl
    rw [State.count_liveNumbers, State.count_liveNumbers, (hgiven x).1]
    omega
  | waiting i =>
    refine ⟨hlive _ fun x => ?_, rfl⟩
    have hx := hslots x
    have hplaced : (((a.numbered r).place r (.waiting i)).board.waitingAt x) ≤
        (a.numbered r).board.waitingAt x + if r.sequence = x then 1 else 0 := by
      show ((a.numbered r).board.slots.set i (some r)).countP _ ≤ (a.numbered r).board.slots.countP _ + _
      by_cases hi : i < (a.numbered r).board.slots.length
      · rw [List.countP_set hi]
        simp only [Option.any_some, decide_eq_true_eq]
        omega
      · rw [List.set_eq_of_length_le (not_lt.mp hi)]
        exact Nat.le_add_right _ _
    have hsame : ((a.numbered r).place r (.waiting i)).standingAt x = a.standingAt x := rfl
    rw [State.count_liveNumbers, State.count_liveNumbers]
    omega
  | outranked | notAccepting | boardFull => exact ⟨hnone, rfl⟩

theorem State.decideSetting_numbered (a : State) (st : Station) (q : SettingRequest) (ha : a.numbered_lawful) :
    (a.decideSetting st q).state.numbered_lawful := by
  rw [State.decideSetting_state]
  generalize (a.numbered (a.slotOf st q)).placement (a.slotOf st q) = p
  obtain ⟨hbelow, hcounter⟩ := State.placed_numbersBelow (a.slotOf st q) rfl ha p
  unfold State.renumberAfter
  split
  · exact State.renumber_lawful hbelow
  · next hmax =>
    have hcounter := hcounter.trans (if_neg hmax)
    exact ⟨by rwa [hcounter], by rw [hcounter]; exact Nat.succ_le_succ (Nat.zero_le _)⟩

/-! ### Every step -/

theorem Fewer.startTouch (a : State) (u : Train) : Fewer a (a.startTouch u) := by
  have hask (b : State) (hb : Fewer a b) : Fewer a (b.askLent u .closing) := by
    have hasked := hb.trans (.of_same (b := b.modPositioner u fun p =>
      p.askDrive b.now (b.crusher u).deadTime .closing (b.crusher u).creepDuty) rfl fun _ => rfl)
    refine MoveClosed.ite (fun _ => ?_) fun _ => hasked
    exact MoveClosed.ite (fun _ => hasked.trans (.of_same rfl fun _ => rfl)) fun _ => hasked
  exact hask (((a.modSequencer fun _ => { Sequencer.atStart with
      state := .approach, subject := some u, limitTimer := some (a.timer ((a.crusher u).zeroTimeLimit * 1000))
      start := some a.now }).lendDrive u).addHold u .calibration) (.of_same rfl fun _ => rfl)

theorem keepsNumbers_freely : Freely fun a b => a.numbered_lawful → b.numbered_lawful where
  closed := fun u => (fewer_trainClosed u).into Fewer.keeps fun h k ha => k (h ha)
  conditions := fun _ _ => Fewer.keeps (.of_same rfl fun _ => rfl)
  present := fun _ _ => Fewer.keeps (.of_same rfl fun _ => rfl)
  link := fun _ _ _ => Fewer.keeps (.of_same rfl fun _ => rfl)
  restart := fun _ _ => Fewer.keeps (.of_same rfl fun _ => rfl)
  time := fun _ _ _ _ => Fewer.keeps (.of_same rfl fun _ => rfl)
  inputs := fun _ _ => Fewer.keeps (.of_same rfl fun _ => rfl)
  lentAsked := fun _ _ _ _ => Fewer.keeps (.of_same rfl fun _ => rfl)
  begins := fun _ _ _ => Fewer.keeps (.of_same rfl fun _ => rfl)
  jogs := fun _ _ _ _ => Fewer.keeps (.of_same rfl fun _ => rfl)
  jogAsked := fun _ _ _ _ _ => Fewer.keeps (.of_same rfl fun _ => rfl)
  startTouch := fun a u => (Fewer.startTouch a u).keeps
  freed := fun a i => (Fewer.freeSlot a i).keeps
  selects := fun _ _ _ _ hb => (Fewer.selected hb).keeps
  releases := fun a st => (Fewer.station a st (.inl rfl)).keeps
  decides := State.decideSetting_numbered
  second := fun a => Fewer.keeps (by
    rcases a.secondBoundary_eq with h | h
    · rw [h]
      exact .refl a
    · have hstation := fun st => (a.secondBoundary_station st).2.2.2
      have hboard : a.secondBoundary.board = a.board.countWaits := by rw [h]
      refine .of_parts (by rw [hboard]; rfl) (fun x => ?_) fun x => ?_
      · rw [hboard, Board.waitingAt, Board.countWaits, List.countP_map]
        refine List.countP_mono_left fun o _ ho => ?_
        cases o
        · cases ho
        · exact ho
      · refine le_of_eq (List.countP_congr fun st _ => ?_)
        rw [Standing.sequence, Standing.sequence, hstation])
  crusherParam := fun _ _ _ _ _ => Fewer.keeps (.of_same rfl fun _ => rfl)
  feederParam := fun _ _ _ _ => Fewer.keeps (.of_same rfl fun _ => rfl)
  lineParam := fun _ _ _ _ => Fewer.keeps (.of_same rfl fun _ => rfl)

/-- A board and settings at their start have no number. -/
theorem State.numbered_lawful_of_none (h : s.liveNumbers = []) (hcounter : s.board.counter = 1) : s.numbered_lawful :=
  ⟨fun x => by simp [h], hcounter.ge⟩

theorem numbersLawful_kept : Kept State.numbered_lawful where
  acts := keepsNumbers_freely.acts
  waits := fun _ _ _ => Fewer.keeps (.of_same rfl fun _ => rfl)
  starts := fun store stamp q => by
    rw [startFrom_eq]
    exact State.numbered_lawful_of_none rfl rfl
  lost := fun _ => State.numbered_lawful_of_none rfl rfl
  ticks := fun _ => Fewer.keeps (.of_same rfl fun _ => rfl)
  queue := fun _ _ => Fewer.keeps (.of_same rfl fun _ => rfl)

/-- Every step keeps the law of the numbers. -/
theorem step_keeps_numbersLawful (hboard : s.board.lawful) (h0 : s.numbersLawful) (h : step s = .next t) :
    t.numbersLawful :=
  State.numbersLawful_iff.mpr (numbersLawful_kept.step h ⟨State.numbersLawful_iff.mp h0, hboard.2.2.1⟩).1

end Sys2Proof.Machine
end

section
/-! PROOFS. What a selection rests on at one station, and what calm steps do to it: the accepting predicate as evaluated,
and the requests that wait against the standing setting (R8, R43). -/

namespace Sys2Proof.Machine

variable {a b c s : State} {t u : Train} {st z : Station}

/-! ### FAULT is neither entered nor left -/

theorem Positioner.Step.fault_iff {now : Nat} {q : CrusherParams} {p p' : Positioner} (h : Positioner.Step now q p p') :
    p'.state = .fault ↔ p.state = .fault := by
  have hask (p : Positioner) (e : Int) : (p.askMove now q e).state ≠ .fault := by
    rcases p.askMove_state now q e with h | h <;> simp [h]
  have hstart {p : Positioner} (hstart : p.startable) : p.state ≠ .fault := by
    rcases hstart with h | h | ⟨h, -⟩ <;> simp [h]
  cases h with
  | keeps state => rw [state]
  | asks e timer h => exact iff_of_false (hask _ e) (hstart h)
  | drains timer h => exact iff_of_false (by simp) (hstart h)
  | rests h => simp [h]
  | ends h => rcases h with h | h | h <;> simp [h, Positioner.ended]
  | endsJog h => simp [h]
  | steers e h =>
    refine iff_of_false ?_ (by simp [h])
    unfold Positioner.steer
    split
    · simp [h]
    · split
      · simp [h]
      · exact hask _ e
  | steersPending e h =>
    refine iff_of_false ?_ (by simp [h])
    unfold Positioner.steerPending
    split
    · simp [h]
    · split
      · simp [h]
      · exact hask _ e
  | without => rfl

theorem Positioner.barred_fault (now : Nat) (r : Reason) (p : Positioner) :
    (p.barred now r).state = .fault ↔ p.state = .fault := by
  have hsuspend : (p.suspend now).state = .fault ↔ p.state = .fault := by
    unfold Positioner.suspend
    split <;> simp_all
  unfold Positioner.barred
  split
  · next h => simp [h.2.1]
  · unfold Positioner.under
    split
    · rfl
    · dsimp only
      split
      · exact hsuspend
      · rfl

/-! ### The accepting predicate -/

theorem State.accepting_modPositioner {f : Positioner → Positioner}
    (hf : (f (s.positioner t)).state = .fault ↔ (s.positioner t).state = .fault) :
    (s.modPositioner t f).accepting z = s.accepting z := by
  refine State.accepting_congr rfl rfl rfl Iff.rfl rfl ?_
  by_cases hz : z.train = t
  · rw [hz, State.positioner_modPositioner]
    exact hf
  · rw [State.positioner_modPositioner_of_ne s hz]

theorem State.accepting_modGap {f : GapMeasurement → GapMeasurement}
    (hf : (f (s.gap t)).validity = .valid ↔ (s.gap t).validity = .valid) :
    (s.modGap t f).accepting z = s.accepting z := by
  refine State.accepting_congr rfl rfl rfl ?_ rfl Iff.rfl
  by_cases hz : z.train = t
  · rw [hz, State.gap_modGap]
    exact hf
  · rw [State.gap_modGap_of_ne s hz]

theorem State.accepting_modZero {f : ZeroRecord → ZeroRecord} (hf : (f (s.zero t)).valid = (s.zero t).valid) :
    (s.modZero t f).accepting z = s.accepting z := by
  refine State.accepting_congr rfl rfl ?_ Iff.rfl rfl Iff.rfl
  by_cases hz : z.train = t
  · rw [hz, State.zero_modZero]
    exact hf
  · rw [State.zero_modZero_of_ne s hz]

theorem State.accepting_modSupervisor {f : Supervisor → Supervisor}
    (hf : (f (s.supervisor t)).relief.accepts = (s.supervisor t).relief.accepts) :
    (s.modSupervisor t f).accepting z = s.accepting z := by
  refine State.accepting_congr rfl rfl rfl Iff.rfl ?_ Iff.rfl
  by_cases hz : z.train = t
  · rw [hz, State.supervisor_modSupervisor]
    exact hf
  · rw [State.supervisor_modSupervisor_of_ne s hz]

theorem State.accepting_modStation_of {f : StationRecord → StationRecord} (hf : (f (s.station st)).mode = (s.station st).mode) :
    (s.modStation st f).accepting z = s.accepting z := by
  refine State.accepting_congr (State.modStation_present_read ..) ?_ (by rw [State.modStation_zero_read])
    (by rw [State.modStation_gap_read]) (by rw [State.modStation_supervisor_read]) (by rw [State.modStation_positioner_read])
  by_cases hz : z = st
  · subst hz
    rw [State.station_modStation]
    exact hf
  · rw [State.station_modStation_of_ne s hz]

/-! ### The selection at one station -/

/-- Where a station accepts as it did when last evaluated, no waiting request outranks its setting. -/
def State.heldAt (z : Station) (s : State) : Prop :=
  (s.station z).lastAccepting = true → s.accepting z = true → s.chosen z

/-- The predicate is as last evaluated, and where it holds no waiting request outranks the setting (R43). -/
def State.madeAt (z : Station) (s : State) : Prop :=
  (s.station z).lastAccepting = s.accepting z ∧ (s.accepting z = true → s.chosen z)

/-- What a step that leaves the accepting predicate does to a station's selection. -/
structure Sees (z : Station) (a b : State) : Prop where
  mode : (b.station z).mode = (a.station z).mode
  accepting : b.accepting z = a.accepting z
  last : (b.station z).lastAccepting = (a.station z).lastAccepting ∨ (b.station z).lastAccepting = b.accepting z
  held : a.heldAt z → b.heldAt z

theorem State.chosen_of (hslots : ∀ r, some r ∈ b.board.slots → some r ∈ a.board.slots)
    (hpriority : (b.station z).standing.priority = (a.station z).standing.priority)
    (horigin : (b.station z).standing.origin = (a.station z).standing.origin) (h : a.chosen z) : b.chosen z := by
  intro r hr hz
  have := h r (hslots r hr) hz
  rwa [outranks, hpriority, horigin]

namespace Sees

theorem refl (a : State) (z : Station) : Sees z a a := ⟨rfl, rfl, .inl rfl, id⟩

theorem trans (h : Sees z a b) (k : Sees z b c) : Sees z a c where
  mode := k.mode.trans h.mode
  accepting := k.accepting.trans h.accepting
  last := by
    rcases k.last with hk | hk
    · rw [hk, k.accepting]
      exact h.last
    · exact .inr hk
  held := fun ha => k.held (h.held ha)

theorem made (h : Sees z a b) (ha : a.madeAt z) : b.madeAt z := by
  obtain ⟨hlast, hchosen⟩ := ha
  have hagree : (b.station z).lastAccepting = b.accepting z := by
    rcases h.last with hl | hl
    · rw [hl, hlast, h.accepting]
    · exact hl
  exact ⟨hagree, fun hacc => h.held (fun _ => hchosen) (hagree.trans hacc) hacc⟩

/-- A step that leaves a station's record, its predicate and the board. -/
theorem of_same (hstation : b.station z = a.station z) (haccepting : b.accepting z = a.accepting z)
    (hboard : b.board = a.board) : Sees z a b where
  mode := by rw [hstation]
  accepting := haccepting
  last := .inl (by rw [hstation])
  held := fun h hl hacc => State.chosen_of (fun r hr => by rwa [hboard] at hr) (by rw [hstation]) (by rw [hstation])
    (h (by rwa [hstation] at hl) (haccepting ▸ hacc))

/-- A step that leaves a station's record and its predicate, and brings no waiting request. -/
theorem of_fewer (hstation : b.station z = a.station z) (haccepting : b.accepting z = a.accepting z)
    (hslots : ∀ r, some r ∈ b.board.slots → some r ∈ a.board.slots) : Sees z a b where
  mode := by rw [hstation]
  accepting := haccepting
  last := .inl (by rw [hstation])
  held := fun h hl hacc => State.chosen_of hslots (by rw [hstation]) (by rw [hstation])
    (h (by rwa [hstation] at hl) (haccepting ▸ hacc))

/-- A record written, in what the selection does not read. -/
theorem record (a : State) (st z : Station) {f : StationRecord → StationRecord}
    (hmode : (f (a.station st)).mode = (a.station st).mode)
    (hlast : (f (a.station st)).lastAccepting = (a.station st).lastAccepting)
    (hpriority : (f (a.station st)).standing.priority = (a.station st).standing.priority)
    (horigin : (f (a.station st)).standing.origin = (a.station st).standing.origin) : Sees z a (a.modStation st f) := by
  have hacc : (a.modStation st f).accepting z = a.accepting z := State.accepting_modStation_of hmode
  have hboard : (a.modStation st f).board = a.board := State.modStation_board ..
  by_cases hz : z = st
  · subst hz
    have hstation := a.station_modStation z f
    refine ⟨by rw [hstation, hmode], hacc, .inl (by rw [hstation, hlast]), fun h hl hacc' => ?_⟩
    exact State.chosen_of (fun r hr => hboard ▸ hr) (by rw [hstation, hpriority]) (by rw [hstation, horigin])
      (h (by rwa [hstation, hlast] at hl) (hacc ▸ hacc'))
  · exact .of_same (State.station_modStation_of_ne a hz f) hacc hboard

/-- A START setting at a station that is not accepting. -/
theorem started (a : State) (st z : Station) (x : Standing) (hno : a.accepting st = false) :
    Sees z a (a.modStation st fun r => { r with standing := x }) := by
  have hacc : (a.modStation st fun r => { r with standing := x }).accepting z = a.accepting z :=
    State.accepting_modStation_of rfl
  by_cases hz : z = st
  · subst hz
    have hstation := a.station_modStation z fun r => { r with standing := x }
    refine ⟨by rw [hstation], hacc, .inl (by rw [hstation]), fun _ _ hyes => ?_⟩
    rw [hacc, hno] at hyes
    cases hyes
  · exact .of_same (State.station_modStation_of_ne a hz _) hacc (State.modStation_board ..)

end Sees

/-! ### Evaluations -/

/-- Where the best slot does not outrank the setting, none does. -/
theorem State.chosen_of_best (h : ∀ i r, bestSlot z 0 s.board.slots = some (i, r) →
    outranks r.priority r.sequence (s.station z).standing = false) : s.chosen z := by
  intro q hq hz
  cases hb : bestSlot z 0 s.board.slots with
  | none => exact absurd hz (bestSlot_eq_none_iff.mp hb q hq)
  | some p =>
    obtain ⟨i, r⟩ := p
    have hbest := bestSlot_best hb hq hz
    have hno := h i r hb
    rw [← Bool.not_eq_true, Slot.better_iff] at hbest
    rw [← Bool.not_eq_true, outranks_iff] at hno ⊢
    rintro (hlt | ⟨heq, hseq⟩)
    · exact hno (.inl (by omega))
    · refine hno (.inr ⟨by omega, fun l tag n ho => ?_⟩)
      have := hseq l tag n ho
      omega

/-- An evaluation that selects nothing (R8). -/
theorem Sees.evaluated (a : State) (st z : Station) (h : a.accepting st = true → (a.station st).lastAccepting = false →
    ∀ i r, bestSlot st 0 a.board.slots = some (i, r) →
      outranks r.priority r.sequence (a.station st).standing = false) :
    Sees z a (a.modStation st fun r => { r with lastAccepting := a.accepting st }) := by
  have hacc : (a.modStation st fun r => { r with lastAccepting := a.accepting st }).accepting z = a.accepting z :=
    State.accepting_modStation_of rfl
  by_cases hz : z = st
  · subst hz
    have hstation := a.station_modStation z fun r => { r with lastAccepting := a.accepting z }
    refine ⟨by rw [hstation], hacc, .inr (by rw [hacc, hstation]), fun hheld _ hyes => ?_⟩
    have hyes : a.accepting z = true := hacc ▸ hyes
    refine State.chosen_of (a := a) (fun r hr => by rwa [State.modStation_board] at hr) (by rw [hstation]) (by rw [hstation]) ?_
    cases hl : (a.station z).lastAccepting with
    | true => exact hheld hl hyes
    | false => exact State.chosen_of_best (h hyes hl)
  · exact .of_same (State.station_modStation_of_ne a hz _) hacc (State.modStation_board ..)

/-- The best slot freed and its request given leaves none that outranks it. -/
theorem State.given_chosen {i : Nat} {r : Slot} (hb : bestSlot st 0 s.board.slots = some (i, r)) :
    ((s.freeSlot i).given r).chosen st := by
  intro q hq hst
  have hboard := ((s.freeSlot i).given_live r 0).1
  rw [hboard] at hq
  have hbest := bestSlot_best hb (mem_of_mem_set_none hq) hst
  have hstanding : (((s.freeSlot i).given r).station st).standing =
      ⟨(s.freeSlot i).limited r.station r.value, r.priority, .request r.source r.tag r.sequence, r.keep⟩ := by
    rw [← bestSlot_station hb, State.given, State.station_modStation]
  rw [← Bool.not_eq_true, Slot.better_iff] at hbest
  rw [hstanding, ← Bool.not_eq_true, outranks_iff]
  rintro (h | ⟨h, hseq⟩)
  · dsimp only at h
    omega
  · have := hseq r.source r.tag r.sequence rfl
    dsimp only at h
    omega

/-- The best slot's request given to its station. -/
theorem Sees.given {i : Nat} {r : Slot} (a : State) (z : Station) (hb : bestSlot st 0 a.board.slots = some (i, r)) :
    Sees z a ((a.freeSlot i).given r) := by
  have hst : r.station = st := bestSlot_station hb
  have hboard := ((a.freeSlot i).given_live r 0).1
  have hacc : ((a.freeSlot i).given r).accepting z = a.accepting z :=
    (State.accepting_modStation_of rfl).trans ((State.accepting_modStation_of rfl).trans rfl)
  have hslots : ∀ q, some q ∈ ((a.freeSlot i).given r).board.slots → some q ∈ a.board.slots := fun q hq => by
    rw [hboard] at hq
    exact mem_of_mem_set_none hq
  by_cases hz : z = st
  · subst hz
    have hkept : (((a.freeSlot i).given r).station z).mode = (a.station z).mode ∧
        (((a.freeSlot i).given r).station z).lastAccepting = (a.station z).lastAccepting := by
      rw [State.given, hst, State.station_modStation, State.station_modStation]
      exact ⟨rfl, rfl⟩
    exact ⟨hkept.1, hacc, .inl hkept.2, fun _ _ _ => State.given_chosen hb⟩
  · refine .of_fewer ?_ hacc hslots
    rw [State.given, hst, State.station_modStation_of_ne _ hz, State.station_modStation_of_ne _ hz]
    rfl

/-- An evaluation that finds the station accepting anew, and gives it the best slot's request (R8). -/
theorem Sees.selected {i : Nat} {r : Slot} (a : State) (z : Station) (hb : bestSlot st 0 a.board.slots = some (i, r)) :
    Sees z a (((a.modStation st fun x => { x with lastAccepting := a.accepting st }).freeSlot i).given r) := by
  have hacc : (a.modStation st fun x => { x with lastAccepting := a.accepting st }).accepting z = a.accepting z :=
    State.accepting_modStation_of rfl
  have hbest : bestSlot st 0 (a.modStation st fun x => { x with lastAccepting := a.accepting st }).board.slots =
      some (i, r) := by rwa [State.modStation_board]
  have hgiven := Sees.given _ z hbest
  by_cases hz : z = st
  · subst hz
    have hstation := a.station_modStation z fun x => { x with lastAccepting := a.accepting z }
    have hlast : (((a.modStation z fun x => { x with lastAccepting := a.accepting z }).freeSlot i).given r).station z =
        { ((((a.modStation z fun x => { x with lastAccepting := a.accepting z }).freeSlot i).given r).station z) with
          lastAccepting := a.accepting z } := by
      rw [State.given, bestSlot_station hb, State.station_modStation, State.station_modStation]
      simp [State.freeSlot]
    refine ⟨hgiven.mode.trans (by rw [hstation]), hgiven.accepting.trans hacc, .inr ?_,
      fun _ _ _ => State.given_chosen hbest⟩
    rw [hgiven.accepting, hacc, hlast]
  · exact (Sees.of_same (State.station_modStation_of_ne a hz _) hacc (State.modStation_board ..)).trans hgiven

end Sys2Proof.Machine
end

section
/-! PROOFS. Calm steps keep the selections made, and a block that changes an accepting predicate makes them again by its
evaluation (R8, R43). -/

namespace Sys2Proof.Machine

variable {a b c s : State} {t u : Train} {st z : Station}

/-! ### Calm steps -/

/-- The subject's drive is lent. -/
def State.subjectLent (s : State) : Prop := ∀ u, s.sequencer.subject = some u → (s.positioner u).state = .lent

theorem State.touchLawful.subjectLent (h : s.touchLawful) : s.subjectLent := fun u hu => ((h.2.2 u).1).mpr hu

theorem State.subjectLent.modStation (h : s.subjectLent) (st : Station) (f : StationRecord → StationRecord) :
    (s.modStation st f).subjectLent := fun u hu => by
  rw [State.modStation_positioner_read]
  rw [State.modStation_sequencer] at hu
  exact h u hu

/-- Where the subject's drive is lent, a step leaves it so, and leaves the accepting predicates. -/
def Watches (a b : State) : Prop := a.subjectLent → b.subjectLent ∧ ∀ z, Sees z a b

namespace Watches

theorem trans (h : Watches a b) (k : Watches b c) : Watches a c := fun ha => by
  obtain ⟨hb, hz⟩ := h ha
  obtain ⟨hc, kz⟩ := k hb
  exact ⟨hc, fun z => (hz z).trans (kz z)⟩

theorem of_still (hpositioner : b.positioners = a.positioners) (hsubject : b.sequencer.subject = a.sequencer.subject)
    (h : ∀ z, Sees z a b) : Watches a b :=
  fun ha => ⟨fun u hu => by rw [State.positioner, hpositioner]; exact ha u (hsubject ▸ hu), h⟩

theorem of_same (hpositioner : b.positioners = a.positioners) (hsubject : b.sequencer.subject = a.sequencer.subject)
    (hboard : b.board = a.board) (hstation : ∀ z, b.station z = a.station z) (hacc : ∀ z, b.accepting z = a.accepting z) :
    Watches a b := .of_still hpositioner hsubject fun z => .of_same (hstation z) (hacc z) hboard

theorem positioner (a : State) {f : Positioner → Positioner}
    (hlent : a.sequencer.subject = some t → (a.positioner t).state = .lent → (f (a.positioner t)).state = .lent)
    (hfault : (f (a.positioner t)).state = .fault ↔ (a.positioner t).state = .fault) : Watches a (a.modPositioner t f) := by
  refine fun ha => ⟨fun u hu => ?_, fun z => .of_same rfl (State.accepting_modPositioner hfault) rfl⟩
  by_cases hut : u = t
  · subst hut
    rw [State.positioner_modPositioner]
    exact hlent hu (ha u hu)
  · rw [State.positioner_modPositioner_of_ne a hut]
    exact ha u hu

theorem station (a : State) (st : Station) {f : StationRecord → StationRecord} (h : ∀ z, Sees z a (a.modStation st f)) :
    Watches a (a.modStation st f) :=
  .of_still (State.modStation_positioners a st f) (by rw [State.modStation_sequencer]) h

theorem given (a : State) {i : Nat} {r : Slot} (hb : bestSlot st 0 a.board.slots = some (i, r)) :
    Watches a ((a.freeSlot i).given r) :=
  .of_still (by rw [State.given, State.modStation_positioners, State.modStation_positioners]; rfl)
    (by rw [State.given, State.modStation_sequencer, State.modStation_sequencer]; rfl) fun z => .given a z hb

end Watches

theorem watches_moveClosed (t : Train) : MoveClosed t Watches where
  refl := fun a h => ⟨h, fun z => .refl a z⟩
  trans := Watches.trans
  positioner := fun a _ h => .positioner a (fun _ => h.lent_iff.mpr) h.fault_iff
  addGapMove := fun _ => .of_same rfl rfl rfl (fun _ => rfl) fun _ => rfl
  removeGapMove := fun _ => .of_same rfl rfl rfl (fun _ => rfl) fun _ => rfl
  episode := fun a h => .of_same rfl rfl rfl (fun _ => rfl) fun z =>
    (State.accepting_modSupervisor (s := a) (t := t) (z := z) (f := fun v => { v with relief := .normal }) (by rw [h]; rfl) :)
  judged := fun a h => .station a _ fun z => .evaluated a (crusherOf t) z h
  selected := fun a i r _ _ hb _ => by
    rw [State.applied_given _ (bestSlot_station hb)]
    refine .of_still ?_ ?_ fun z => .selected a z hb <;>
    · rw [State.given, bestSlot_station hb]
      rfl

theorem watches_evaluate_feeder (a : State) (t : Train) : Watches a (a.evaluate (feederOf t)) := by
  have hrest := (a.evaluate_feederEvaluates t).rest
  refine .of_still (by rw [hrest]) (by rw [hrest]) fun z => ?_
  rcases a.evaluate_feeder_cases t with ⟨he, hno⟩ | ⟨i, r, hb, -, -, -, he⟩
  · rw [he]
    exact .evaluated a (feederOf t) z hno
  · have hfed : Sees z a ((a.feederEvaluated t).fed t i r) := by
      rw [State.fed_given _ (bestSlot_station hb)]
      exact .selected a z hb
    rcases he with he | he <;> rw [he]
    · exact hfed
    · exact hfed.trans (.of_same rfl rfl rfl)

theorem watches_endTouch (h : a.isSubject t = true) : Watches a (a.endTouch t) := by
  intro ha
  refine ⟨nofun, fun z => .of_same rfl (State.accepting_congr rfl rfl rfl Iff.rfl rfl ?_) rfl⟩
  rw [State.endTouch_eq]
  show ((a.positioners.set t _).get z.train).state = .fault ↔ _
  by_cases hz : z.train = t
  · have hlent := ha t (of_decide_eq_true h)
    rw [hz, Quad.get_set_self]
    exact iff_of_false (by simp [Positioner.returned_eq]) (by simp [hlent])
  · rw [Quad.get_set_of_ne _ hz]
    exact Iff.rfl

theorem watches_calm (t : Train) : Calm t Watches where
  toMoveClosed := watches_moveClosed t
  store := fun _ _ => .of_same rfl rfl rfl (fun _ => rfl) fun _ => rfl
  reports := fun _ _ _ _ => .of_same rfl rfl rfl (fun _ => rfl) fun _ => rfl
  sequencer := fun _ _ h _ => .of_same rfl h rfl (fun _ => rfl) fun _ => rfl
  governor := fun _ _ _ _ => .of_same rfl rfl rfl (fun _ => rfl) fun _ => rfl
  bars := fun a r => .positioner a (fun _ => (Positioner.barred_lent ..).mpr) (Positioner.barred_fault ..)
  measures := fun a f h => .of_same rfl rfl rfl (fun _ => rfl) fun _ => State.accepting_modGap (by
    rcases h with h | ⟨h, k⟩
    · rw [h]
    · exact iff_of_false k h)
  notes := fun _ _ h => .of_same rfl rfl rfl (fun _ => rfl) fun _ => State.accepting_modZero h
  supervises := fun a f _ _ h => .of_same rfl rfl rfl (fun _ => rfl) fun _ => State.accepting_modSupervisor (by
    rcases h with h | ⟨h, k⟩
    · rw [h]
    · rw [h, k]
      rfl)
  record := fun a st f _ h1 h2 h3 h4 => .station a st fun z => .record a st z h1 h2 h3 h4
  started := fun a st n _ hno => .station a st fun z => .started a st z _ hno
  evaluates := fun a => watches_evaluate_feeder a t
  frees := fun a gone => .of_still rfl rfl fun z => .of_fewer rfl rfl fun _ hr => (Board.mem_of_mem_freeWhere hr).1
  endTouch := fun _ h => watches_endTouch h

/-! ### Laws that calm steps keep -/

/-- The selections are made at every station, and the subject's drive is lent. -/
def State.allMade (s : State) : Prop := s.subjectLent ∧ ∀ z, s.madeAt z

/-- They are made but at one station, which is to be evaluated. -/
def State.openAt (st : Station) (s : State) : Prop := s.subjectLent ∧ (∀ z, z ≠ st → s.madeAt z) ∧ s.heldAt st

theorem allMade_calm (t : Train) : Calm t fun a b => a.allMade → b.allMade :=
  (watches_calm t).into (fun h ha => ⟨(h ha.1).1, fun z => ((h ha.1).2 z).made (ha.2 z)⟩) fun h k ha => k (h ha)

theorem openAt_calm (t : Train) (st : Station) : Calm t fun a b => a.openAt st → b.openAt st :=
  (watches_calm t).into
    (fun h ha => ⟨(h ha.1).1, fun z hz => ((h ha.1).2 z).made (ha.2.1 z hz), ((h ha.1).2 st).held ha.2.2⟩)
    fun h k ha => k (h ha)

theorem State.evaluate_eq_ite (s : State) (st : Station) :
    s.evaluate st =
      if s.accepting st && !(s.station st).lastAccepting then
        (s.modStation st fun r => { r with lastAccepting := s.accepting st }).select st
      else s.modStation st fun r => { r with lastAccepting := s.accepting st } := rfl

/-- A selection at a station whose predicate is as last evaluated makes the selections, where the others are made. -/
theorem State.select_made (hlent : s.subjectLent) (hmade : ∀ z, z ≠ st → s.madeAt z)
    (hlast : (s.station st).lastAccepting = s.accepting st) : (s.select st).allMade := by
  have hkept (hbest : ∀ i r, bestSlot st 0 s.board.slots = some (i, r) →
      outranks r.priority r.sequence (s.station st).standing = false) : s.allMade := by
    refine ⟨hlent, fun z => ?_⟩
    by_cases hz : z = st
    · subst hz
      exact ⟨hlast, fun _ => State.chosen_of_best hbest⟩
    · exact hmade z hz
  unfold State.select State.selectWith
  split
  · next hb => exact hkept fun i r hi => by rw [hb] at hi; cases hi
  · next i r hb =>
    split
    · have hgiven : ((s.freeSlot i).given r).allMade := by
        refine ⟨(Watches.given s hb hlent).1, fun z => ?_⟩
        have hsees := Sees.given s z hb
        by_cases hz : z = st
        · subst hz
          refine ⟨?_, fun _ => State.given_chosen hb⟩
          rcases hsees.last with hl | hl
          · rw [hl, hlast, hsees.accepting]
          · exact hl
        · exact hsees.made (hmade z hz)
      exact (allMade_calm r.station.train).apply rfl ((allMade_calm r.station.train).refl _) hgiven
    · next ho =>
      refine hkept fun j q hj => ?_
      obtain ⟨-, rfl⟩ := Prod.mk.inj (Option.some.inj (hb.symm.trans hj))
      exact Bool.eq_false_iff.mpr ho

/-- An evaluation makes the selection of its station (R8, R43). -/
theorem State.openAt.evaluate (h : s.openAt st) : (s.evaluate st).allMade := by
  obtain ⟨hlent, hmade, hheld⟩ := h
  set e := s.modStation st fun r => { r with lastAccepting := s.accepting st } with he
  have hacc (z : Station) : e.accepting z = s.accepting z := State.accepting_modStation_of rfl
  have hlast : (e.station st).lastAccepting = e.accepting st := by rw [he, State.station_modStation, ← he, hacc]
  have hboard : e.board = s.board := State.modStation_board ..
  have hlent' : e.subjectLent := hlent.modStation _ _
  have hmade' (z : Station) (hz : z ≠ st) : e.madeAt z :=
    (Sees.of_same (State.station_modStation_of_ne s hz _) (hacc z) hboard).made (hmade z hz)
  rw [State.evaluate_eq_ite]
  split
  · exact State.select_made hlent' hmade' hlast
  · next hno =>
    have hsees := Sees.evaluated s st st fun hyes hl => absurd (by simp [hyes, hl]) hno
    refine ⟨hlent', fun z => ?_⟩
    by_cases hz : z = st
    · subst hz
      exact ⟨hlast, fun hyes => hsees.held hheld (hlast.trans hyes) hyes⟩
    · exact hmade' z hz

/-! ### Blocks that end with an evaluation -/

theorem State.allMade.opens (h : s.allMade) (st : Station) : s.openAt st :=
  ⟨h.1, fun z _ => h.2 z, fun _ hyes => (h.2 st).2 hyes⟩

/-- Steps of a train that leave the selections open at one station, up to its evaluation. -/
theorem State.allMade.judges (h : s.allMade) (t : Train) (st : Station) :
    Judges t st (fun a b => a.openAt st → b.openAt st) (fun a b => a.allMade → b.allMade) s s where
  before := openAt_calm t st
  after := allMade_calm t
  evaluate := fun _ hb _ => (hb (h.opens st)).evaluate

/-- A step that leaves the records, the board and the predicates of other stations leaves one station open. -/
theorem State.allMade.opensAt (h : s.allMade) (hlent : b.subjectLent) (hboard : b.board = s.board)
    (hstation : ∀ z, z ≠ st → b.station z = s.station z)
    (hlast : (b.station st).lastAccepting = (s.station st).lastAccepting)
    (hstanding : (b.station st).standing = (s.station st).standing)
    (hacc : ∀ z, z ≠ st → b.accepting z = s.accepting z) : b.openAt st := by
  refine ⟨hlent, fun z hz => (Sees.of_same (hstation z hz) (hacc z hz) hboard).made (h.2 z), fun hl _ => ?_⟩
  refine State.chosen_of (fun r hr => by rwa [hboard] at hr) (by rw [hstanding]) (by rw [hstanding]) ((h.2 st).2 ?_)
  rw [← (h.2 st).1, ← hlast, hl]

/-- The predicates of the other stations do not read the records of a train's crusher (R6, R7). -/
theorem State.accepting_apart (hz : z ≠ crusherOf t) (hpresent : ∀ u, b.present u = a.present u)
    (hstation : b.station z = a.station z) (hothers : a.othersKept b t) : b.accepting z = a.accepting z := by
  obtain ⟨u, r⟩ := z
  cases r with
  | feeder => simp only [State.accepting, hpresent, hstation]
  | crusher =>
    have hut : u ≠ t := fun hut => hz (by rw [hut]; rfl)
    obtain ⟨-, -, hgap, hpositioner, hzero, -, hsupervisor⟩ := hothers u hut
    exact State.accepting_congr (hpresent u) (by rw [hstation]) (by rw [hzero]) (by rw [hgap]) (by rw [hsupervisor])
      (by rw [hpositioner])

/-- A step on the records of a train's crusher that leaves its station's. -/
theorem State.allMade.opensCrusher (h : s.allMade) (hlent : b.subjectLent) (hboard : b.board = s.board)
    (hpresent : ∀ u, b.present u = s.present u) (hstation : ∀ z, b.station z = s.station z) (hothers : s.othersKept b t) :
    b.openAt (crusherOf t) :=
  h.opensAt hlent hboard (fun z _ => hstation z) (by rw [hstation]) (by rw [hstation]) fun z hz =>
    State.accepting_apart hz hpresent (hstation z) hothers

theorem allMade_reliefOnset (a : State) (t : Train) (h : a.allMade) : (a.reliefOnset t).allMade := by
  refine (h.judges t (crusherOf t)).reliefOnset (fun _ => ?_) h
  have hrest := (a.reliefBegun_tripStep t).rest
  have hothers := (a.reliefBegun_tripStep t).others
  generalize a.reliefBegun t = b at *
  refine h.opensCrusher ?_ ?_ ?_ ?_ hothers
  · rw [hrest]
    exact h.1
  all_goals rw [hrest]
  all_goals intro _; rfl

theorem allMade_clearingExpiry (a : State) (t : Train) (h : a.allMade) : (a.clearingExpiry t).allMade := by
  refine (h.judges t (crusherOf t)).clearingExpiry (fun _ _ => ?_) id h
  have hrest := (a.restoring_tripStep t).rest
  have hothers := (a.restoring_tripStep t).others
  generalize a.restoring t = b at *
  refine h.opensCrusher ?_ ?_ ?_ ?_ hothers
  · rw [hrest]
    exact h.1
  all_goals rw [hrest]
  all_goals intro _; rfl

theorem allMade_positionOutside (a : State) (t : Train) (h : a.allMade) : (a.positionOutside t).allMade :=
  (h.judges t (crusherOf t)).positionOutside
    (fun _ => h.opensCrusher h.1 rfl (fun _ => rfl) (fun _ => rfl) (a.othersKept_modGap t _)) h

theorem allMade_moveTimerExpiry (a : State) (t : Train) (h : a.allMade) : (a.moveTimerExpiry t).allMade := by
  refine (h.judges t (crusherOf t)).moveTimerExpiry (fun hstate _ => ?_) id h
  refine h.opensCrusher (fun u hu => ?_) rfl (fun _ => rfl) (fun _ => rfl) (a.othersKept_modPositioner t _)
  have hlent := h.1 u hu
  have hut : u ≠ t := by
    rintro rfl
    rw [hlent] at hstate
    simp at hstate
  rwa [State.positioner_modPositioner_of_ne a hut]

theorem allMade_acceptTouch (a : State) (t : Train) (contact : Nat) (h : a.allMade) : (a.acceptTouch t contact).allMade :=
  (h.judges t (crusherOf t)).acceptTouch
    (fun f _ => h.opensCrusher h.1 rfl (fun _ => rfl) (fun _ => rfl) (a.othersKept_modZero t f)) contact h

theorem allMade_becomeValid (a : State) (t : Train) (gap : Option Nat) (hlost : (a.gap t).validity ≠ .valid)
    (h : a.allMade) : (a.becomeValid t gap).allMade := by
  have hopen (f : GapMeasurement → GapMeasurement) : (a.modGap t f).openAt (crusherOf t) :=
    h.opensCrusher h.1 rfl (fun _ => rfl) (fun _ => rfl) (a.othersKept_modGap t f)
  have hlast : (a.station (crusherOf t)).lastAccepting = false := by
    rw [(h.2 _).1, State.accepting_of_validity hlost]
  refine (h.judges t (crusherOf t)).becomeValid (fun f n _ _ => ?_) (fun _ => hopen _) h
  obtain ⟨hlent, hmade, -⟩ := hopen f
  refine ⟨hlent, fun z hz => ?_, fun hl => ?_⟩
  · exact (Sees.of_same (State.station_modStation_of_ne _ hz _) (State.accepting_modStation_of rfl)
      (State.modStation_board ..)).made (hmade z hz)
  · rw [State.station_modStation] at hl
    rw [show ((a.modGap t f).station (crusherOf t)).lastAccepting = _ from hlast] at hl
    cases hl

theorem allMade_clearFault (a : State) (t : Train) (h : a.allMade) : (a.clearFault t).allMade := by
  refine (h.judges t (crusherOf t)).clearFault (fun hfault _ => ?_) id h
  refine h.opensCrusher (fun u hu => ?_) rfl (fun _ => rfl) (fun _ => rfl) (a.othersKept_modPositioner t _)
  have hlent := h.1 u hu
  have hut : u ≠ t := by
    rintro rfl
    rw [hlent] at hfault
    cases hfault
  rwa [State.positioner_modPositioner_of_ne a hut]

theorem allMade_enterMode (a : State) (st : Station) (m : Mode) (h : a.allMade) : (a.enterMode st m).allMade := by
  have hstation := a.station_modStation st fun r => { r with mode := m }
  have hlent : (a.modStation st fun r => { r with mode := m }).subjectLent := h.1.modStation _ _
  refine (h.judges st.train st).enterMode rfl (fun _ => ?_) (fun hsame h => ?_) h
  · refine h.opensAt hlent (State.modStation_board ..) (fun z hz => State.station_modStation_of_ne a hz _)
      (by rw [hstation]) (by rw [hstation]) fun z hz => ?_
    exact State.accepting_congr (State.modStation_present_read ..) (by rw [State.station_modStation_of_ne a hz])
      (by rw [State.modStation_zero_read]) (by rw [State.modStation_gap_read]) (by rw [State.modStation_supervisor_read])
      (by rw [State.modStation_positioner_read])
  · exact ⟨hlent, fun z => (Sees.record a st z hsame.symm rfl rfl rfl).made (h.2 z)⟩

end Sys2Proof.Machine
end

section
/-! PROOFS. The selections of requests decided, renumbered and released, and of trains made absent and present, are made
(R8, R23, R24, R28, R43). -/

namespace Sys2Proof.Machine

variable {a b c s : State} {t u : Train} {st z : Station}

theorem Watches.keeps (h : Watches a b) (ha : a.allMade) : b.allMade :=
  ⟨(h ha.1).1, fun z => ((h ha.1).2 z).made (ha.2 z)⟩

/-! ### Releases -/

theorem allMade_releases (a : State) (st : Station) (h : a.allMade) : (a.releaseStanding st).allMade := by
  set w := a.modStation st fun r => { r with standing := r.standing.released } with hw
  have hacc (z : Station) : w.accepting z = a.accepting z := State.accepting_modStation_of rfl
  have hboard : w.board = a.board := State.modStation_board ..
  have hstation : w.station st = { a.station st with standing := (a.station st).standing.released } :=
    State.station_modStation ..
  have hlast : (w.station st).lastAccepting = w.accepting st := by rw [hstation, hacc, ← (h.2 st).1]
  have hlent : w.subjectLent := h.1.modStation _ _
  have hmade (z : Station) (hz : z ≠ st) : w.madeAt z :=
    (Sees.of_same (State.station_modStation_of_ne a hz _) (hacc z) hboard).made (h.2 z)
  show (if w.accepting st then w.select st else w).allMade
  split
  · exact State.select_made hlent hmade hlast
  · next hno =>
    refine ⟨hlent, fun z => ?_⟩
    by_cases hz : z = st
    · subst hz
      exact ⟨hlast, fun hyes => absurd hyes hno⟩
    · exact hmade z hz

/-! ### Decisions -/

/-- What a request outranks, a setting written by one that outranked it outranks no less. -/
theorem outranks_of_outranked {x y : Standing} {p n q m : Nat} {l : Link} {tag : Byte} (hp : x.priority = p)
    (ho : x.origin = .request l tag n) (hr : outranks p n y = true) (hq : outranks q m y = false) :
    outranks q m x = false := by
  rw [outranks_iff] at hr
  rw [← Bool.not_eq_true, outranks_iff] at hq ⊢
  rintro (hlt | ⟨heq, hseq⟩)
  · exact hq (.inl (by omega))
  · have hlater := hseq l tag n ho
    refine hq (hr.imp (fun h => by omega) fun ⟨hy, hn⟩ => ⟨by omega, fun k g i hi => ?_⟩)
    have := hn k g i hi
    omega

/-- A request that outranks a station's setting, given to it. -/
theorem State.allMade.given (h : s.allMade) {r : Slot}
    (ho : outranks r.priority r.sequence (s.station r.station).standing = true) (hacc : s.accepting r.station = true) :
    (s.given r).allMade := by
  have hboard : (s.given r).board = s.board := (s.given_live r 0).1
  have haccs (z : Station) : (s.given r).accepting z = s.accepting z :=
    (State.accepting_modStation_of rfl).trans (State.accepting_modStation_of rfl)
  have hlent : (s.given r).subjectLent := (h.1.modStation _ _).modStation _ _
  refine ⟨hlent, fun z => ?_⟩
  by_cases hz : z = r.station
  · subst hz
    have hlast : ((s.given r).station r.station).lastAccepting = (s.station r.station).lastAccepting := by
      rw [State.given, State.station_modStation, State.station_modStation]
    have hstanding : ((s.given r).station r.station).standing =
        ⟨s.limited r.station r.value, r.priority, .request r.source r.tag r.sequence, r.keep⟩ := by
      rw [State.given, State.station_modStation]
    refine ⟨by rw [hlast, haccs, (h.2 _).1], fun _ q hq hqst => ?_⟩
    rw [hboard] at hq
    rw [hstanding]
    exact outranks_of_outranked rfl rfl ho ((h.2 r.station).2 hacc q hq hqst)
  · refine (Sees.of_same ?_ (haccs z) hboard).made (h.2 z)
    rw [State.given, State.station_modStation_of_ne _ hz, State.station_modStation_of_ne _ hz]

/-- A request placed in a slot, which its station does not take. -/
theorem State.allMade.placed (h : s.allMade) (i : Nat) {r : Slot}
    (hno : s.accepting r.station = true → outranks r.priority r.sequence (s.station r.station).standing = false) :
    (s.place r (.waiting i)).allMade := by
  refine ⟨h.1, fun z => ⟨(h.2 z).1, fun hacc q hq hz => ?_⟩⟩
  rcases List.mem_or_eq_of_mem_set hq with hmem | heq
  · exact (h.2 z).2 hacc q hmem hz
  · obtain rfl := Option.some.inj heq
    subst hz
    exact hno hacc

theorem outranks_renumbered {live : List Nat} {x : Standing} {p q : Nat}
    (h : outranks p (rankIn live q) (x.renumbered live) = true) : outranks p q x = true := by
  have hrank {m n : Nat} (hmn : m ≤ n) : rankIn live m ≤ rankIn live n := by
    rw [rankIn_eq, rankIn_eq]
    refine Nat.succ_le_succ (List.countP_mono_left fun k _ hk => ?_)
    simp only [decide_eq_true_eq] at hk ⊢
    omega
  obtain ⟨target, priority, origin, keep⟩ := x
  rw [outranks_iff] at h ⊢
  cases origin with
  | start => exact h.imp id fun hp => ⟨hp.1, nofun⟩
  | request l tag n =>
    refine h.imp id fun ⟨hp, hseq⟩ => ⟨hp, fun k g m hm => ?_⟩
    obtain ⟨-, -, rfl⟩ := Origin.request.inj hm
    by_contra hle
    exact absurd (hseq l tag _ rfl) (not_lt.mpr (hrank (not_lt.mp hle)))

theorem State.allMade.renumbered (h : s.allMade) : s.renumber.allMade := by
  refine ⟨h.1, fun z => ?_⟩
  have hstation := s.station_renumber z
  have hacc : s.renumber.accepting z = s.accepting z :=
    State.accepting_congr rfl (by rw [hstation]) rfl Iff.rfl rfl Iff.rfl
  refine ⟨by rw [hstation, hacc, (h.2 z).1], fun hyes q hq hz => ?_⟩
  obtain ⟨o, ho, hqo⟩ := List.mem_map.mp
    (show some q ∈ s.board.slots.map fun o => o.map fun r => { r with sequence := rankIn s.liveNumbers r.sequence } from hq)
  obtain ⟨r, rfl, rfl⟩ := Option.map_eq_some_iff.mp hqo
  have hno := (h.2 z).2 (hacc ▸ hyes) r ho hz
  rw [hstation, ← Bool.not_eq_true]
  intro hyes
  have := outranks_renumbered hyes
  rw [hno] at this
  cases this

theorem State.numbered_watches (s : State) (r : Slot) : Watches s (s.numbered r) := by
  refine .of_still rfl rfl fun z => .of_fewer rfl rfl fun q hq => ?_
  refine (Board.mem_of_mem_freeWhere (gone := Slot.isOf r.source r.station) ?_).1
  rwa [Board.freeWhere_eq]

theorem allMade_decides (a : State) (st : Station) (q : SettingRequest) (h : a.allMade) :
    (a.decideSetting st q).state.allMade := by
  rw [State.decideSetting_state]
  have hnumbered : (a.numbered (a.slotOf st q)).allMade := (State.numbered_watches a _).keeps h
  generalize a.numbered (a.slotOf st q) = w at *
  generalize a.slotOf st q = r
  have hplaced : (w.place r (w.placement r)).allMade := by
    unfold State.placement
    split
    · next hyes =>
      simp only [Bool.and_eq_true] at hyes
      exact (allMade_calm r.station.train).apply rfl ((allMade_calm r.station.train).refl _)
        (hnumbered.given hyes.2 hyes.1)
    · next hno =>
      split
      · split <;> exact hnumbered
      · split
        · exact hnumbered
        · refine hnumbered.placed _ fun hacc => ?_
          simpa [hacc] using hno
  unfold State.renumberAfter
  split
  · exact hplaced.renumbered
  · exact hplaced

end Sys2Proof.Machine
end

section
/-! PROOFS. A train made absent or present is left in a mode other than RUN, with its stations not accepting (R23, R24). -/

namespace Sys2Proof.Machine

variable {a b c s : State} {t u : Train} {st z : Station} {m : Mode} {q before : Quad Bool}

/-! ### Stations out of RUN -/

/-- A station out of RUN whose predicate was last found not to hold; the subject's drive is lent. -/
def State.idleAt (z : Station) (s : State) : Prop :=
  s.subjectLent ∧ (s.station z).mode ≠ .run ∧ (s.station z).lastAccepting = false

/-- A station whose predicate was last found not to hold where it is out of RUN; the subject's drive is lent. -/
def State.readyAt (z : Station) (s : State) : Prop :=
  s.subjectLent ∧ ((s.station z).mode ≠ .run → (s.station z).lastAccepting = false)

theorem State.idleAt.ready (h : s.idleAt z) : s.readyAt z := ⟨h.1, fun _ => h.2.2⟩

theorem State.idleAt.made (h : s.idleAt z) : s.madeAt z := by
  have hno := State.accepting_of_mode h.2.1
  exact ⟨h.2.2.trans hno.symm, fun hyes => by rw [hno] at hyes; cases hyes⟩

theorem State.madeAt.ready (h : s.madeAt z) (hlent : s.subjectLent) : s.readyAt z :=
  ⟨hlent, fun hmode => h.1.trans (State.accepting_of_mode hmode)⟩

theorem Sees.last_of_mode (h : Sees z a b) (hmode : (a.station z).mode ≠ .run) (hl : (a.station z).lastAccepting = false) :
    (b.station z).lastAccepting = false := by
  rcases h.last with hb | hb
  · rw [hb, hl]
  · rw [hb, State.accepting_of_mode (by rwa [h.mode])]

theorem idleAt_calm (t : Train) (z : Station) : Calm t fun a b => a.idleAt z → b.idleAt z :=
  (watches_calm t).into (fun h ⟨hlent, hmode, hl⟩ => by
    obtain ⟨hb, hsees⟩ := h hlent
    exact ⟨hb, by rwa [(hsees z).mode], (hsees z).last_of_mode hmode hl⟩) fun h k ha => k (h ha)

theorem readyAt_calm (t : Train) (z : Station) : Calm t fun a b => a.readyAt z → b.readyAt z :=
  (watches_calm t).into (fun h ⟨hlent, hl⟩ => by
    obtain ⟨hb, hsees⟩ := h hlent
    exact ⟨hb, fun hmode => (hsees z).last_of_mode (by rwa [← (hsees z).mode]) (hl (by rwa [← (hsees z).mode]))⟩)
    fun h k ha => k (h ha)

theorem offRun_calm (t : Train) (z : Station) :
    Calm t fun a b => a.subjectLent ∧ (a.station z).mode ≠ .run → b.subjectLent ∧ (b.station z).mode ≠ .run :=
  (watches_calm t).into (fun h ⟨hlent, hmode⟩ => by
    obtain ⟨hb, hsees⟩ := h hlent
    exact ⟨hb, by rwa [(hsees z).mode]⟩) fun h k ha => k (h ha)

/-! ### Modes other than RUN taken -/

/-- A station that takes a mode other than RUN is left out of RUN and not accepting. -/
theorem State.readyAt.enterMode (h : s.readyAt st) (hm : m ≠ .run) : (s.enterMode st m).idleAt st := by
  obtain ⟨hlent, hready⟩ := h
  have hstation := s.station_modStation st fun r => { r with mode := m }
  set x := s.modStation st fun r => { r with mode := m, lastAccepting := false } with hx
  have hidle : x.idleAt st := ⟨hlent.modStation _ _, by rw [hx, State.station_modStation]; exact hm,
    by rw [hx, State.station_modStation]⟩
  have hentered : (s.modStation st fun r => { r with mode := m }).subjectLent ∧
      ((s.modStation st fun r => { r with mode := m }).station st).mode ≠ .run :=
    ⟨hlent.modStation _ _, by rw [hstation]; exact hm⟩
  have hjudges : Judges st.train st
      (fun a b => a.subjectLent ∧ (a.station st).mode ≠ .run → b.subjectLent ∧ (b.station st).mode ≠ .run)
      (fun a b => a.idleAt st → b.idleAt st) (s.modStation st fun r => { r with mode := m }) x :=
    { before := offRun_calm st.train st
      after := idleAt_calm st.train st
      evaluate := fun b hb _ => by
        obtain ⟨hlent, hmode⟩ := hb hentered
        have hno := State.accepting_of_mode hmode
        rw [State.evaluate_eq (.inl hno)]
        refine ⟨hlent.modStation _ _, ?_, ?_⟩ <;> rw [State.station_modStation]
        · exact hmode
        · exact hno }
  refine hjudges.enterMode rfl id (fun hsame _ => ?_) hidle
  exact ⟨hentered.1, hentered.2, by rw [hstation]; exact hready (by rw [hsame]; exact hm)⟩

/-- A mode taken at one station leaves another as it was. -/
theorem State.enterMode_others {R : State → State → Prop} (hc : Calm t R) (hst : st.train = t)
    (h : R s (s.modStation st fun r => { r with mode := m })) : R s (s.enterMode st m) :=
  (hc.judges hst).enterMode hst h fun _ => h

theorem State.idleAt.enterMode (h : s.idleAt z) (hz : z ≠ st) : (s.enterMode st m).idleAt z :=
  State.enterMode_others (idleAt_calm st.train z) rfl (fun h => ⟨h.1.modStation _ _, by
    rw [State.station_modStation_of_ne s hz]; exact h.2⟩) h

theorem State.readyAt.enterMode_other (h : s.readyAt z) (hz : z ≠ st) : (s.enterMode st m).readyAt z :=
  State.enterMode_others (readyAt_calm st.train z) rfl (fun h => ⟨h.1.modStation _ _, by
    rw [State.station_modStation_of_ne s hz]; exact h.2⟩) h

/-- Both stations of a train out of RUN. -/
theorem State.readyAt.enterModes (hf : s.readyAt (feederOf t)) (hk : s.readyAt (crusherOf t)) (hm : m ≠ .run)
    (hz : z.train = t) : ((s.enterMode (feederOf t) m).enterMode (crusherOf t) m).idleAt z := by
  obtain ⟨u, r⟩ := z
  obtain rfl : u = t := hz
  cases r with
  | feeder => exact (hf.enterMode hm).enterMode (z := feederOf u) (st := crusherOf u) (by simp [feederOf, crusherOf])
  | crusher => exact (hk.enterMode_other (z := crusherOf u) (st := feederOf u) (by simp [feederOf, crusherOf])).enterMode hm

/-! ### Presence -/

theorem idleAt_gap (z : Station) (a : State) (f : GapMeasurement → GapMeasurement) :
    a.idleAt z → (a.modGap t f).idleAt z := id

theorem idleAt_trips {z : Station} (h : TripStep t a b) (ha : a.idleAt z) : b.idleAt z := by
  have hrest := h.rest
  rw [hrest]
  exact ha

theorem State.readyAt.makeAbsent (hf : s.readyAt (feederOf t)) (hk : s.readyAt (crusherOf t)) (hz : z.train = t) :
    (s.makeAbsent t).idleAt z := by
  have hc := idleAt_calm t z
  have hmodes := hf.enterModes hk (m := .outOfService) (by decide) hz
  exact hc.makeAbsent (idleAt_gap z) (fun _ => hc.superviseAbsent fun _ _ h => idleAt_trips h) (fun _ => hmodes) hmodes

theorem State.readyAt.makePresent (hf : s.readyAt (feederOf t)) (hk : s.readyAt (crusherOf t)) (hz : z.train = t) :
    (s.makePresent t).idleAt z := by
  have hc := idleAt_calm t z
  have hmodes := hf.enterModes hk (m := .maintenance) (by decide) hz
  have honset (b : State) (hb : b.idleAt z) : (b.reliefOnset t).idleAt z :=
    (hc.judges (s := b) (st := crusherOf t) rfl).reliefOnset (idleAt_trips (b.reliefBegun_tripStep t)) hb
  refine hc.makePresent (s := (s.enterMode (feederOf t) .maintenance).enterMode (crusherOf t) .maintenance)
    (idleAt_gap z) (fun b st n _ hb => ?_) (fun b hb hx => honset b (hb hx)) id hmodes
  refine ⟨hb.1.modStation _ _, ?_⟩
  by_cases hzst : z = st
  · subst hzst
    rw [State.station_modStation]
    exact hb.2
  · rw [State.station_modStation_of_ne b hzst]
    exact hb.2

/-- An operation on another train leaves the selections of a station. -/
theorem Elsewhere.sees (h : Elsewhere t a b) (hz : z.train ≠ t) : Sees z a b :=
  .of_fewer (h.station hz) (h.accepting hz) h.slots

/-- The selections while trains are judged: made where a train is judged or stays as it was, ready everywhere. -/
structure State.Judging (before q : Quad Bool) (done : Train → Prop) (s : State) : Prop where
  present : ∀ u, s.present u = q.get u
  ready : ∀ z, s.readyAt z
  made : ∀ z, done z.train ∨ before.get z.train = q.get z.train → s.madeAt z

theorem State.Judging.judge {done : Train → Prop} (h : s.Judging before q done) (t : Train) :
    (s.judgePresence before t).Judging before q fun u => u = t ∨ done u := by
  obtain ⟨hpresent, hready, hmade⟩ := h
  by_cases hsame : before.get t = q.get t
  · have hself : s.judgePresence before t = s := by
      unfold State.judgePresence
      rw [hsame, hpresent]
      cases q.get t <;> rfl
    rw [hself]
    refine ⟨hpresent, hready, fun z hz => hmade z ?_⟩
    rcases hz with (hz | hz) | hz
    · exact .inr (hz ▸ hsame)
    · exact .inl hz
    · exact .inr hz
  · have hstep : Elsewhere t s (s.judgePresence before t) := (elsewhere_trainClosed t).judgePresence (.refl s t) before
    have hidle (z : Station) (hz : z.train = t) : (s.judgePresence before t).idleAt z := by
      unfold State.judgePresence
      split
      · exact (hready _).makeAbsent (hready _) hz
      · exact (hready _).makePresent (hready _) hz
      all_goals
        next h1 h2 => exact absurd (h1.trans (h2.symm.trans (hpresent t))) hsame
    have hlent := (hidle (crusherOf t) rfl).1
    refine ⟨fun u => (hstep.present u).trans (hpresent u), fun z => ?_, fun z hz => ?_⟩
    · by_cases hzt : z.train = t
      · exact (hidle z hzt).ready
      · refine ⟨hlent, ?_⟩
        rw [hstep.station hzt]
        exact (hready z).2
    · by_cases hzt : z.train = t
      · exact (hidle z hzt).made
      · exact (hstep.sees hzt).made (hmade z (hz.imp (fun h => h.resolve_left hzt) id))

theorem allMade_trains (a : State) (q : Quad Bool) (h : a.allMade) : (a.storeTrains q).allMade := by
  have hstart : (a.withLine { a.line with trainsPresent := q }).Judging a.line.trainsPresent q fun _ => False := by
    refine ⟨fun _ => rfl, fun z => ⟨h.1, ((h.2 z).ready h.1).2⟩, fun z hz => ?_⟩
    have hpresent : a.line.trainsPresent.get z.train = q.get z.train := hz.resolve_left id
    refine (Sees.of_same (a := a) (b := a.withLine { a.line with trainsPresent := q }) rfl (State.accepting_congr ?_ rfl rfl Iff.rfl rfl Iff.rfl) rfl).made (h.2 z)
    exact hpresent.symm
  have hlast := (((hstart.judge .t0).judge .t1).judge .t2).judge .t3
  have hall : (a.storeTrains q).Judging a.line.trainsPresent q _ := hlast
  refine ⟨(hall.ready ⟨.t0, .feeder⟩).1, fun z => hall.made z (.inl ?_)⟩
  cases z.train <;> simp

end Sys2Proof.Machine
end

section
/-! PROOFS. Every step keeps the laws of the Request Board (R25 to R27, R43). -/

namespace Sys2Proof.Machine

variable {a b c s t : State} {u : Train} {st z : Station}

/-! ### The acts of latches, touches and time -/

/-- A latch's step that leaves the relief state. -/
theorem TripStep.watches (h : TripStep u a b) (hrelief : (b.supervisor u).relief = (a.supervisor u).relief) :
    Watches a b := by
  have hothers := h.others
  have hrest := h.rest
  have hrelief' (v : Train) : (b.supervisor v).relief = (a.supervisor v).relief := by
    by_cases hv : v = u
    · rw [hv, hrelief]
    · obtain ⟨-, -, -, -, -, -, hsupervisor⟩ := hothers v hv
      rw [hsupervisor]
  refine .of_same (by rw [hrest]) (by rw [hrest]) (by rw [hrest]) (fun z => by rw [hrest]; rfl) fun z => ?_
  refine State.accepting_congr ?_ ?_ ?_ ?_ (by rw [hrelief']) ?_ <;> rw [hrest]
  · rfl
  · rfl
  · rfl
  · exact Iff.rfl
  · exact Iff.rfl

theorem allMade_judgePowerTrip (a : State) (u : Train) (power : Nat) (h : a.allMade) :
    (a.judgePowerTrip u power).allMade := by
  have hcause (x : State) (p : Bool) : Watches x (x.modSupervisor u fun v => { v with tripCause := p }) :=
    (x.modSupervisor_tripStep u _).watches (by rw [State.supervisor_modSupervisor])
  refine Calm.judgePowerTrip (R := fun a b => a.allMade → b.allMade) (s := a) (fun h => ?_) (fun b hb h => ?_) id h
  · have hsets := (a.modSupervisor u fun v => { v with tripCause := true }).setLatch_sets u .powerTrip (some (.power power))
    exact (hsets.tripStep.watches (by rw [hsets.supervisor]; rfl)).keeps ((hcause a true).keeps h)
  · have hends := (b.modSupervisor u fun v => { v with tripCause := false }).endLatchCause_ends u .powerTrip
    exact (hends.tripStep.watches (by rw [hends.supervisor]; rfl)).keeps ((hcause b false).keeps (hb h))

theorem allMade_ackOwner (a : State) (code : Code) (u : Train) (h : a.allMade) : (a.ackOwner code u).allMade := by
  have hlatch (w : TripLatch) : (a.ackLatch u w).allMade :=
    ((a.ackLatch_tripStep u w).watches (a.ackLatch_takes u (which := w) rfl).relief).keeps h
  unfold State.ackOwner
  split
  · exact hlatch _
  · exact hlatch _
  · exact allMade_clearFault a u h
  · exact (allMade_calm u).notes a _ rfl h
  · exact (allMade_calm u).notes a _ rfl h
  all_goals exact h

/-- A touch that starts finds its crusher in MAINTENANCE, and leaves it there (R97). -/
theorem allMade_startTouch (a : State) (u : Train) (hposs : a.touchPossible u = true) (h : a.allMade) :
    (a.startTouch u).allMade := by
  have hmode : (a.station (crusherOf u)).mode ≠ .run := by
    simp only [State.touchPossible, Bool.and_eq_true, decide_eq_true_eq] at hposs
    obtain ⟨⟨⟨⟨⟨⟨hmode, -⟩, -⟩, -⟩, -⟩, -⟩, -⟩ := hposs
    rw [hmode]
    decide
  set b := ((a.modSequencer fun _ => { Sequencer.atStart with
      state := .approach, subject := some u, limitTimer := some (a.timer ((a.crusher u).zeroTimeLimit * 1000))
      start := some a.now }).lendDrive u).addHold u .calibration with hb
  have hstarted : b.allMade := by
    refine ⟨fun v hv => ?_, fun z => ?_⟩
    · obtain rfl : u = v := Option.some.inj hv
      show ((a.positioners.set u _).get u).state = .lent
      rw [Quad.get_set_self]
    · refine (Sees.of_same (a := a) (b := b) rfl ?_ rfl).made (h.2 z)
      by_cases hz : z = crusherOf u
      · subst hz
        exact (State.accepting_of_mode (s := b) (st := crusherOf u) hmode).trans (State.accepting_of_mode hmode).symm
      · refine State.accepting_apart hz (fun _ => rfl) rfl ?_
        exact (State.othersKept_modPositioner (a.modSequencer _) u _).trans (State.othersKept_modGovernor _ u _)
  have hasked := (Watches.positioner b (t := u)
    (f := fun p => p.askDrive b.now (b.crusher u).deadTime .closing (b.crusher u).creepDuty)
    (fun _ h => by rwa [Positioner.askDrive_state]) (by rw [Positioner.askDrive_state])).keeps hstarted
  show (b.askLent u .closing).allMade
  refine MoveClosed.ite (R := fun _ c => c.allMade) (s := a) (fun _ => ?_) fun _ => hasked
  exact MoveClosed.ite (R := fun _ c => c.allMade) (s := a)
    (fun _ => (allMade_calm u).sequencer _ _ rfl Iff.rfl hasked) fun _ => hasked

theorem Positioner.beginPending_fault (p : Positioner) : p.beginPending.state = .fault ↔ p.state = .fault := by
  unfold Positioner.beginPending
  split
  · rfl
  · dsimp only
    split
    · next h => simp [h]
    · rfl

/-- A second counted leaves what the selections read of slots and settings. -/
theorem watches_second (a : State) : Watches a a.secondBoundary := by
  rcases a.secondBoundary_eq with h | h
  · rw [h]
    exact (watches_calm .t0).refl a
  · have hstation := a.secondBoundary_station
    have hboard : a.secondBoundary.board = a.board.countWaits := by rw [h]
    have hacc (z : Station) : a.secondBoundary.accepting z = a.accepting z :=
      State.accepting_congr (by rw [h]; rfl) (hstation z).1 (by rw [h]; rfl) (by rw [h]; exact Iff.rfl) (by rw [h]; rfl)
        (by rw [h]; exact Iff.rfl)
    refine .of_still (by rw [h]) (by rw [h]) fun z => ⟨(hstation z).1, hacc z, .inl (hstation z).2.1, fun hheld hl hyes => ?_⟩
    intro q hq hz
    rw [hboard] at hq
    obtain ⟨o, ho, hqo⟩ := List.mem_map.mp hq
    obtain ⟨r, rfl, rfl⟩ := Option.map_eq_some_iff.mp hqo
    have hno := hheld ((hstation z).2.1 ▸ hl) (hacc z ▸ hyes) r ho hz
    rwa [outranks, (hstation z).2.2.1, (hstation z).2.2.2]

/-! ### Every step -/

theorem Watches.keeps_of_same (hpositioner : b.positioners = a.positioners)
    (hsubject : b.sequencer.subject = a.sequencer.subject) (hboard : b.board = a.board)
    (hstation : ∀ z, b.station z = a.station z) (hacc : ∀ z, b.accepting z = a.accepting z) (ha : a.allMade) : b.allMade :=
  (Watches.of_same hpositioner hsubject hboard hstation hacc).keeps ha

theorem keepsMade_acts : Acts fun a b => a.allMade → b.allMade where
  calm := allMade_calm
  link := fun _ _ _ => Watches.keeps_of_same rfl rfl rfl (fun _ => rfl) fun _ => rfl
  restart := fun _ _ => Watches.keeps_of_same rfl rfl rfl (fun _ => rfl) fun _ => rfl
  time := fun _ _ _ _ => Watches.keeps_of_same rfl rfl rfl (fun _ => rfl) fun _ => rfl
  inputs := fun _ _ => Watches.keeps_of_same rfl rfl rfl (fun _ => rfl) fun _ => rfl
  lentAsked := fun a _ _ _ => (Watches.positioner a (fun _ h => by rwa [Positioner.askDrive_state])
    (by rw [Positioner.askDrive_state])).keeps
  begins := fun a _ _ => (Watches.positioner a (fun _ => (Positioner.beginPending_lent _).mpr)
    (Positioner.beginPending_fault _)).keeps
  jogs := fun a _ _ hfree hfault => (Watches.positioner a (fun hsub => absurd hsub (of_decide_eq_false hfree))
    (iff_of_false (by simp) hfault)).keeps
  jogAsked := fun a _ _ _ _ => (Watches.positioner a (fun _ h => by rwa [Positioner.askDrive_state])
    (by rw [Positioner.askDrive_state])).keeps
  startTouch := fun a u _ _ hposs => allMade_startTouch a u hposs
  acceptTouch := fun a u contact _ => allMade_acceptTouch a u contact
  moveTimerExpiry := allMade_moveTimerExpiry
  reliefOnset := allMade_reliefOnset
  clearingExpiry := allMade_clearingExpiry
  judgePowerTrip := allMade_judgePowerTrip
  positionOutside := allMade_positionOutside
  becomeValid := allMade_becomeValid
  enterMode := fun a st m _ => allMade_enterMode a st m
  acknowledge := fun _ code sub h => State.acknowledge_keeps (fun _ _ h => h) allMade_ackOwner h code sub
  acknowledgeAll := fun _ => State.acknowledgeAll_keeps (fun _ _ h => h) allMade_ackOwner
  trains := fun a q _ => allMade_trains a q
  freed := fun a _ => Watches.keeps (.of_still rfl rfl fun _ => .of_fewer rfl rfl fun _ hr => mem_of_mem_set_none hr)
  releases := allMade_releases
  decides := allMade_decides
  second := fun a => (watches_second a).keeps
  crusherParam := fun _ _ _ _ _ => Watches.keeps_of_same rfl rfl rfl (fun _ => rfl) fun _ => rfl
  feederParam := fun _ _ _ _ => Watches.keeps_of_same rfl rfl rfl (fun _ => rfl) fun _ => rfl
  lineParam := fun a _ v hn => Watches.keeps_of_same rfl rfl rfl (fun _ => rfl) fun _ =>
    State.accepting_congr (State.present_put a hn v _) rfl rfl Iff.rfl rfl Iff.rfl

/-- A part at its start has its predicates evaluated, and no waiting request. -/
theorem startFrom_allMade (store : Store) (stamp : Stamp) (q : List Instr) : (startFrom store stamp q).allMade := by
  have hlost := (State.AtRest.startFrom store stamp q).lost
  refine ⟨(startFrom_touchLawful store stamp q).subjectLent, fun z => ⟨?_, fun _ r hr => ?_⟩⟩
  · obtain ⟨v, r⟩ := z
    cases r with
    | feeder =>
      rw [startFrom_eq]
      cases v <;> exact (Bool.and_true _).symm
    | crusher =>
      refine Eq.trans ?_ (State.accepting_of_validity (hlost v)).symm
      rw [startFrom_eq]
      cases v <;> rfl
  · rw [startFrom_eq] at hr
    have hnone : some r ∈ List.replicate 24 (none : Option Slot) := hr
    simp at hnone

theorem allMade_kept : Kept State.allMade where
  acts := keepsMade_acts
  waits := fun _ _ _ => Watches.keeps_of_same rfl rfl rfl (fun _ => rfl) fun _ => rfl
  starts := startFrom_allMade
  lost := fun _ => ⟨State.reset_touchLawful.subjectLent, State.reset_selectionsMade⟩
  ticks := fun a ha => by
    refine ⟨fun v hv => ?_, fun z => (Sees.of_same (a := a) (b := (a.withTime a.time.advance).tickOutputs) rfl ?_ rfl).made (ha.2 z)⟩
    · rw [State.tickOutputs_positioner, Positioner.tick_state]
      exact ha.1 v hv
    · exact State.accepting_congr rfl rfl rfl Iff.rfl rfl (by rw [State.tickOutputs_positioner, Positioner.tick_state]; exact Iff.rfl)
  queue := fun _ _ => Watches.keeps_of_same rfl rfl rfl (fun _ => rfl) fun _ => rfl

/-- Settles O6, by the laws that the acts keep of the slots, of their numbers and of the selections. -/
theorem boardLawKept : Obligations.BoardLawKept :=
  ⟨fun _ _ h0 h => step_keeps_boardLawful h h0, fun _ _ hboard h0 h => step_keeps_numbersLawful hboard h0 h,
    fun _ _ _ _ htouch h0 h => (allMade_kept.step h ⟨htouch.subjectLent, h0⟩).2⟩

end Sys2Proof.Machine
end

section
/-! PROOFS. The TRIP entries of the Condition List under the reports of a trip latch: its onset, the end of its cause and
its acknowledgement (R143, R150 to R155). -/

namespace Sys2Proof.Machine

variable {l m : ConditionList} {u v : Train} {w x : TripLatch} {c : Bool} {k : Latch} {e : Entry} {d : Option Detail}
  {stamp : Stamp}

theorem ConditionList.mem_trips : e ∈ l.trips ↔ e ∈ l.entries ∧ e.code.cls = .trip := by
  simp [ConditionList.trips]

/-- The name of a trip latch's condition (R148). -/
def tripName (u : Train) (w : TripLatch) : Code × Subject := (w.code, .crusher u)

theorem tripName_inj : tripName u w = tripName v x ↔ u = v ∧ w = x := by
  constructor
  · intro h
    obtain ⟨hcode, hsub⟩ := Prod.mk.inj h
    refine ⟨Subject.crusher.inj hsub, ?_⟩
    cases w <;> cases x <;> simp [TripLatch.code] at hcode ⊢
  · rintro ⟨rfl, rfl⟩
    rfl

theorem TripLatch.code_cls (w : TripLatch) : w.code.cls = .trip := by cases w <;> rfl

theorem TripLatch.code_latched (w : TripLatch) : w.code.latched = true := by cases w <;> rfl

/-- The entry of a trip latch's condition is a TRIP entry. -/
theorem Entry.cls_of_name (h : e.name = tripName u w) : e.code.cls = .trip := by
  have : e.code = w.code := congrArg Prod.fst h
  rw [this, w.code_cls]

theorem ConditionList.mem_trips_named (h : e.name = tripName u w) : e ∈ l.trips ↔ e ∈ l.entries := by
  rw [ConditionList.mem_trips, and_iff_left (Entry.cls_of_name h)]

/-- Every TRIP entry is of a crusher (R148). -/
def ConditionList.ofCrushers (l : ConditionList) : Prop := ∀ e ∈ l.trips, ∃ u, e.subject = .crusher u

theorem ConditionList.ofCrushers.name (h : l.ofCrushers) (he : e ∈ l.trips) : ∃ u w, e.name = tripName u w := by
  obtain ⟨u, hu⟩ := h e he
  have hcls := (ConditionList.mem_trips.mp he).2
  cases hc : e.code <;> rw [hc] at hcls <;> simp only [Code.cls, reduceCtorEq] at hcls
  · exact ⟨u, .repeatedRelief, by rw [Entry.name, hc, hu]; rfl⟩
  · exact ⟨u, .powerTrip, by rw [Entry.name, hc, hu]; rfl⟩

/-! ### A latch and its entry (R143) -/

/-- The List agrees with a trip latch, its cause taken as given. -/
def ConditionList.agrees (l : ConditionList) (c : Bool) (u : Train) (w : TripLatch) : Latch → Prop
  | .clear => ∀ e ∈ l.trips, e.name ≠ tripName u w
  | .set => ∃ e ∈ l.trips, e.name = tripName u w ∧ e.acknowledged = false ∧ e.active = c
  | .setAcknowledged => c = true ∧ ∃ e ∈ l.trips, e.name = tripName u w ∧ e.acknowledged = true ∧ e.active = true

theorem ConditionList.agrees_of_same (h : ∀ e, e.name = tripName u w → (e ∈ m.trips ↔ e ∈ l.trips)) (ha : l.agrees c u w k) :
    m.agrees c u w k := by
  cases k with
  | clear => exact fun e he hname => ha e ((h e hname).mp he) hname
  | set =>
    obtain ⟨e, he, hname, hrest⟩ := ha
    exact ⟨e, (h e hname).mpr he, hname, hrest⟩
  | setAcknowledged =>
    obtain ⟨hc, e, he, hname, hrest⟩ := ha
    exact ⟨hc, e, (h e hname).mpr he, hname, hrest⟩

theorem ConditionList.agrees_clear (c c' : Bool) (h : l.agrees c u w .clear) : l.agrees c' u w .clear := h

/-! ### Onset (R150, R151) -/

/-- A List of 16 has an entry that is no TRIP: the crushers' are 8 at most (log 17). -/
theorem ConditionList.lawful.evicts (h : l.lawful) (hl : l.ofCrushers) (hfull : l.entries.length = 16) :
    ∃ i, evictionPlace l.entries = some i := by
  rw [← Option.ne_none_iff_exists']
  intro hnone
  have hall : ∀ e ∈ l.entries, e.code.cls = .trip := by
    unfold evictionPlace at hnone
    split at hnone
    · cases hnone
    · simpa [List.findIdx?_eq_none_iff] using hnone
  have hnames : l.entries.map Entry.name ⊆
      [tripName .t0 .repeatedRelief, tripName .t0 .powerTrip, tripName .t1 .repeatedRelief, tripName .t1 .powerTrip,
        tripName .t2 .repeatedRelief, tripName .t2 .powerTrip, tripName .t3 .repeatedRelief, tripName .t3 .powerTrip] := by
    intro n hn
    obtain ⟨e, he, rfl⟩ := List.mem_map.mp hn
    obtain ⟨u, w, hname⟩ := hl.name (ConditionList.mem_trips.mpr ⟨he, hall e he⟩)
    rw [hname]
    cases u <;> cases w <;> simp
  have hlength := (h.nodup_names.subperm hnames).length_le
  simp [hfull] at hlength

/-- The onset of a trip latch's condition lists it, not acknowledged and with its cause active, and leaves the other TRIP
entries. -/
theorem ConditionList.lawful.onset_trips (h : l.lawful) (hl : l.ofCrushers) (u : Train) (w : TripLatch) (d : Option Detail)
    (stamp : Stamp) :
    (∀ e, e.name ≠ tripName u w → (e ∈ (l.onset w.code (.crusher u) d stamp).trips ↔ e ∈ l.trips)) ∧
      (l.onset w.code (.crusher u) d stamp).agrees true u w .set := by
  have hfresh : (Entry.fresh w.code (.crusher u) stamp d).name = tripName u w := rfl
  have hnew {m : ConditionList} (hm : Entry.fresh w.code (.crusher u) stamp d ∈ m.entries) : m.agrees true u w .set :=
    ⟨_, ConditionList.mem_trips.mpr ⟨hm, w.code_cls⟩, hfresh, rfl, rfl⟩
  cases hlisted : l.listed w.code (.crusher u) with
  | true =>
    rw [ConditionList.onset_listed hlisted]
    constructor
    · intro e he
      simp only [ConditionList.mem_trips, List.mem_map]
      refine and_congr_left fun _ => ⟨?_, fun hmem => ⟨e, hmem, if_neg (by rwa [Entry.named_iff])⟩⟩
      rintro ⟨y, hy, rfl⟩
      split at he
      · next hn => exact absurd (Entry.named_iff.mp hn) he
      · next hn => rwa [if_neg hn]
    · obtain ⟨y, hy, hn⟩ := List.any_eq_true.mp hlisted
      refine ⟨y.recurred d, ConditionList.mem_trips.mpr ⟨List.mem_map.mpr ⟨y, hy, if_pos hn⟩, ?_⟩, ?_, rfl, rfl⟩
      · exact Entry.cls_of_name (u := u) (w := w) (Entry.named_iff.mp hn)
      · exact Entry.named_iff.mp hn
  | false =>
    rcases h.1.lt_or_eq with hroom | hfull
    · rw [ConditionList.onset_room hlisted hroom]
      refine ⟨fun e he => ?_, hnew (by simp [ConditionList.appended])⟩
      have hne : e ≠ Entry.fresh w.code (.crusher u) stamp d := fun heq => he (heq ▸ hfresh)
      simp [ConditionList.mem_trips, ConditionList.appended, hne]
    · obtain ⟨i, hplace⟩ := h.evicts hl hfull
      obtain ⟨before, y, after, hsplit, rfl, hy⟩ := exists_split_of_evictionPlace hplace
      rw [ConditionList.onset_evicting hlisted hfull w.code_cls hsplit hplace]
      refine ⟨fun e he => ?_, hnew (by simp [ConditionList.appended, ConditionList.overflowed])⟩
      have hne : e ≠ Entry.fresh w.code (.crusher u) stamp d := fun heq => he (heq ▸ hfresh)
      simp only [ConditionList.mem_trips, ConditionList.appended, ConditionList.overflowed, hsplit, List.mem_append,
        List.mem_cons, List.not_mem_nil, hne, or_false]
      refine and_congr_left fun hcls => or_congr Iff.rfl ⟨.inr, fun hmem => hmem.resolve_left ?_⟩
      rintro rfl
      exact hy hcls

/-! ### The end of a cause (R152) -/

/-- Names are of one entry each. -/
theorem ConditionList.lawful.eq_of_name (h : l.lawful) {e y : Entry} (he : e ∈ l.entries) (hy : y ∈ l.entries)
    (hname : e.name = y.name) : e = y := List.inj_on_of_nodup_map h.nodup_names he hy hname

theorem ConditionList.mem_causeEnded (w : TripLatch) :
    e ∈ (l.causeEnded w.code (.crusher u)).trips ↔ ∃ y ∈ l.trips,
      ¬(y.name = tripName u w ∧ y.acknowledged = true) ∧
        e = if y.name = tripName u w then { y with active := false } else y := by
  simp only [ConditionList.mem_trips, ConditionList.entries_causeEnded_of_latched w.code_latched, List.mem_map,
    List.mem_filter, Bool.not_eq_true', Bool.and_eq_false_imp, Entry.named_iff, not_and, Bool.not_eq_true]
  constructor
  · rintro ⟨⟨y, ⟨hy, hgone⟩, rfl⟩, hcls⟩
    refine ⟨y, ⟨hy, ?_⟩, hgone, rfl⟩
    split at hcls <;> exact hcls
  · rintro ⟨y, ⟨hy, hcls⟩, hgone, rfl⟩
    refine ⟨⟨y, ⟨hy, hgone⟩, rfl⟩, ?_⟩
    split <;> exact hcls

/-- The end of a trip latch's cause leaves the other TRIP entries. -/
theorem ConditionList.causeEnded_others (he : e.name ≠ tripName u w) :
    e ∈ (l.causeEnded w.code (.crusher u)).trips ↔ e ∈ l.trips := by
  rw [ConditionList.mem_causeEnded]
  constructor
  · rintro ⟨y, hy, -, rfl⟩
    split at he
    · next hname => exact absurd hname he
    · next hname => rwa [if_neg hname]
  · exact fun h => ⟨e, h, fun hboth => he hboth.1, (if_neg he).symm⟩

theorem ConditionList.lawful.eq_of_trips (h : l.lawful) {e y : Entry} (he : e ∈ l.trips) (hy : y ∈ l.trips)
    (hname : e.name = tripName u w) (hyname : y.name = tripName u w) : e = y :=
  h.eq_of_name (ConditionList.mem_trips.mp he).1 (ConditionList.mem_trips.mp hy).1 (hname.trans hyname.symm)

/-- A latch that takes the end of its cause agrees with the List that does (R143, R152). -/
theorem ConditionList.lawful.agrees_causeEnded (h : l.lawful) (ha : l.agrees c u w k) :
    (l.causeEnded w.code (.crusher u)).agrees false u w k.causeEnded := by
  cases k with
  | clear =>
    rintro e he hname
    obtain ⟨y, hy, -, rfl⟩ := ConditionList.mem_causeEnded w |>.mp he
    refine ha y hy ?_
    split at hname <;> exact hname
  | set =>
    obtain ⟨e, he, hname, hack, -⟩ := ha
    exact ⟨{ e with active := false }, (ConditionList.mem_causeEnded w).mpr ⟨e, he, by simp [hack], by rw [if_pos hname]⟩,
      hname, hack, rfl⟩
  | setAcknowledged =>
    obtain ⟨-, e, he, hname, hack, -⟩ := ha
    rintro x hx hxname
    obtain ⟨y, hy, hgone, rfl⟩ := ConditionList.mem_causeEnded w |>.mp hx
    have hyname : y.name = tripName u w := by split at hxname <;> exact hxname
    exact hgone ⟨hyname, h.eq_of_trips he hy hname hyname ▸ hack⟩

/-! ### Acknowledgement (R153 to R155) -/

/-- A latch that takes an acknowledgement agrees with a List that keeps of its condition the entry with an active cause,
acknowledged. -/
theorem ConditionList.lawful.agrees_taken (h : l.lawful) (hm : ∀ e, e.name = tripName u w →
      (e ∈ m.trips ↔ e.active = true ∧ ∃ y ∈ l.trips, e = { y with acknowledged := true }))
    (ha : l.agrees c u w k) : m.agrees c u w (k.taken c) := by
  have hstays {e : Entry} (he : e ∈ l.trips) (hname : e.name = tripName u w) (hactive : e.active = true) :
      m.agrees true u w .setAcknowledged :=
    ⟨rfl, { e with acknowledged := true }, (hm { e with acknowledged := true } hname).mpr ⟨hactive, e, he, rfl⟩, hname, rfl,
      hactive⟩
  cases k with
  | clear =>
    rintro e he hname
    obtain ⟨-, y, hy, rfl⟩ := (hm e hname).mp he
    exact ha y hy hname
  | set =>
    obtain ⟨e, he, hname, -, hactive⟩ := ha
    cases c with
    | true => exact hstays he hname hactive
    | false =>
      rintro x hx hxname
      obtain ⟨hon, y, hy, rfl⟩ := (hm x hxname).mp hx
      rw [h.eq_of_trips he hy hname hxname] at hactive
      exact Bool.false_ne_true (hactive.symm.trans hon)
  | setAcknowledged =>
    obtain ⟨rfl, e, he, hname, -, hactive⟩ := ha
    exact hstays he hname hactive

theorem Entry.latched_of_name (h : e.name = tripName u w) : e.code.latched = true := by
  have hcode : e.code = w.code := congrArg Prod.fst h
  rw [hcode, w.code_latched]

theorem Entry.answered_of_name (h : e.name = tripName u w) : e.answered = (e.acknowledged && !e.active) := by
  simp [Entry.answered, Entry.latched_of_name h]

theorem ConditionList.mem_acknowledgedOf (code : Code) (sub : Subject) :
    e ∈ (l.acknowledgedOf code sub).entries ↔ ¬(e.name = (code, sub) ∧ e.answered = true) ∧
      ∃ y ∈ l.entries, e = if y.name = (code, sub) then { y with acknowledged := true } else y := by
  have hentries : (l.acknowledgedOf code sub).entries =
      (l.entries.map fun y => if y.named code sub then { y with acknowledged := true } else y).filter
        fun y => !(y.named code sub && y.answered) := rfl
  rw [hentries]
  simp only [List.mem_filter, List.mem_map, Entry.named_iff, Bool.not_eq_true', Bool.and_eq_false_imp, not_and,
    Bool.not_eq_true]
  rw [and_comm]
  exact and_congr_right fun _ => exists_congr fun y => and_congr_right fun _ => eq_comm

/-- An acknowledgement leaves the other entries. -/
theorem ConditionList.acknowledgedOf_others {code : Code} {sub : Subject} (he : e.name ≠ (code, sub)) :
    e ∈ (l.acknowledgedOf code sub).entries ↔ e ∈ l.entries := by
  rw [ConditionList.mem_acknowledgedOf]
  constructor
  · rintro ⟨-, y, hy, rfl⟩
    split at he
    · next hname => exact absurd hname he
    · next hname => rwa [if_neg hname]
  · exact fun h => ⟨fun hboth => he hboth.1, e, h, (if_neg he).symm⟩

theorem ConditionList.lawful.agrees_acknowledgedOf (h : l.lawful) (ha : l.agrees c u w k) :
    (l.acknowledgedOf w.code (.crusher u)).agrees c u w (k.taken c) := by
  refine h.agrees_taken (fun e he => ?_) ha
  rw [ConditionList.mem_trips_named he, ConditionList.mem_acknowledgedOf, Entry.answered_of_name he]
  constructor
  · rintro ⟨hkept, y, hy, rfl⟩
    have hname : y.name = tripName u w := by split at he <;> exact he
    rw [if_pos (show y.name = (w.code, .crusher u) from hname)] at hkept ⊢
    exact ⟨Bool.not_eq_false _ ▸ fun hno => hkept ⟨hname, by simpa using hno⟩, y, (ConditionList.mem_trips_named hname).mpr hy, rfl⟩
  · rintro ⟨hactive, y, hy, rfl⟩
    have hname : y.name = tripName u w := he
    have hon : y.active = true := hactive
    exact ⟨by simp [hon], y, (ConditionList.mem_trips_named hname).mp hy, (if_pos hname).symm⟩

theorem ConditionList.trips_allAnswered (l : ConditionList) :
    l.allAnswered.trips = l.trips.filter fun e => !(e.code.latched && !e.active) :=
  List.filter_comm (fun e : Entry => decide (e.code.cls = .trip)) (fun e => !(e.code.latched && !e.active)) l.entries

/-- The TRIP entries of a List with every entry acknowledged, once the answered ones have gone. -/
theorem ConditionList.lawful.agrees_allAnswered (h : l.lawful) (ha : l.agrees c u w k) :
    l.allAcknowledged.allAnswered.agrees c u w (k.taken c) := by
  refine h.agrees_taken (fun e he => ?_) ha
  rw [ConditionList.trips_allAnswered, List.mem_filter, Entry.latched_of_name he]
  have hmem : e ∈ l.allAcknowledged.trips ↔ ∃ y ∈ l.trips, e = { y with acknowledged := true } := by
    simp only [ConditionList.mem_trips, ConditionList.allAcknowledged, List.mem_map]
    constructor
    · rintro ⟨⟨y, hy, rfl⟩, hcls⟩
      exact ⟨y, ⟨hy, hcls⟩, rfl⟩
    · rintro ⟨y, ⟨hy, hcls⟩, rfl⟩
      exact ⟨⟨y, hy, rfl⟩, hcls⟩
  rw [hmem, and_comm]
  simp

/-! ### TRIP entries of crushers -/

theorem ConditionList.ofCrushers.of_others (h : l.ofCrushers)
    (ho : ∀ e, e.name ≠ tripName u w → (e ∈ m.trips ↔ e ∈ l.trips)) : m.ofCrushers := by
  intro e he
  by_cases hname : e.name = tripName u w
  · exact ⟨u, congrArg Prod.snd hname⟩
  · exact h e ((ho e hname).mp he)

theorem ConditionList.ofCrushers.allAcknowledged (h : l.ofCrushers) : l.allAcknowledged.ofCrushers := by
  intro e he
  obtain ⟨hmem, hcls⟩ := ConditionList.mem_trips.mp he
  obtain ⟨y, hy, rfl⟩ := List.mem_map.mp hmem
  exact h y (ConditionList.mem_trips.mpr ⟨hy, hcls⟩)

theorem ConditionList.ofCrushers.allAnswered (h : l.ofCrushers) : l.allAnswered.ofCrushers := by
  intro e he
  rw [ConditionList.trips_allAnswered] at he
  exact h e (List.mem_of_mem_filter he)

end Sys2Proof.Machine
end

section
/-! PROOFS. The trip latches and the List, under causes taken as given: what steps keep them, and what the onset of a trip,
the end of its cause and its acknowledgement make of them (R142 to R144). -/

namespace Sys2Proof.Machine

variable {a b c s : State} {t u v : Train} {w x : TripLatch} {cause cause' : Train → TripLatch → Bool}

/-! ### The law of the trip latches (R143, R144, R148) -/

/-- The causes of the trip latches, as they stand. -/
def State.causes (s : State) (u : Train) (w : TripLatch) : Bool := (s.supervisor u).causeActive w

/-- Every trip latch agrees with a lawful List under the causes given, and TRIP is held while a latch is not CLEAR. -/
structure State.tripsUnder (cause : Train → TripLatch → Bool) (s : State) : Prop where
  lawful : s.conditions.lawful
  ofCrushers : s.conditions.ofCrushers
  agrees : ∀ u w, s.conditions.agrees (cause u w) u w ((s.supervisor u).latch w)
  held : ∀ u, (s.governor u).holds.trip = !(s.supervisor u).untripped

/-- The law of the trip latches, with that of the List. -/
def State.tripsLaw (s : State) : Prop := s.tripsUnder s.causes

theorem State.latchListed_iff (s : State) (u : Train) (w : TripLatch) :
    s.latchListed u w ↔ s.conditions.agrees (s.causes u w) u w ((s.supervisor u).latch w) := by
  have hmem {P : Entry → Prop} : (∃ e ∈ s.conditions.entries, e.name = (w.code, .crusher u) ∧ P e) ↔
      ∃ e ∈ s.conditions.trips, e.name = tripName u w ∧ P e :=
    exists_congr fun e => ⟨fun ⟨he, hname, hP⟩ => ⟨(ConditionList.mem_trips_named hname).mpr he, hname, hP⟩,
      fun ⟨he, hname, hP⟩ => ⟨(ConditionList.mem_trips_named hname).mp he, hname, hP⟩⟩
  unfold State.latchListed
  cases (s.supervisor u).latch w with
  | clear =>
    exact ⟨fun h e he => h e (ConditionList.mem_trips.mp he).1,
      fun h e he hname => h e ((ConditionList.mem_trips_named hname).mpr he) hname⟩
  | set => exact hmem
  | setAcknowledged => exact and_congr_right fun _ => hmem

theorem Supervisor.untripped_eq_false (v : Supervisor) :
    v.untripped = false ↔ v.reliefLatch ≠ .clear ∨ v.powerLatch ≠ .clear := by
  rw [← Bool.not_eq_true, Supervisor.untripped, Bool.and_eq_true, decide_eq_true_eq, decide_eq_true_eq, not_and_or]

theorem State.tripsLaw_iff (hl : s.conditions.lawful) : s.tripsLaw ↔ s.tripsListed := by
  have hheld (u : Train) : (s.governor u).holds.trip = !(s.supervisor u).untripped ↔
      ((s.governor u).holds.trip = true ↔ (s.supervisor u).reliefLatch ≠ .clear ∨ (s.supervisor u).powerLatch ≠ .clear) := by
    rw [← Supervisor.untripped_eq_false]
    cases (s.governor u).holds.trip <;> cases (s.supervisor u).untripped <;> simp
  have hof : s.conditions.ofCrushers ↔ ∀ e ∈ s.conditions.entries, e.code.cls = .trip → ∃ u, e.subject = .crusher u :=
    ⟨fun h e he hcls => h e (ConditionList.mem_trips.mpr ⟨he, hcls⟩),
      fun h e he => h e (ConditionList.mem_trips.mp he).1 (ConditionList.mem_trips.mp he).2⟩
  constructor
  · rintro ⟨-, h1, h2, h3⟩
    exact ⟨hof.mp h1, fun u w => (s.latchListed_iff u w).mpr (h2 u w), fun u => (hheld u).mp (h3 u)⟩
  · rintro ⟨h1, h2, h3⟩
    exact ⟨hl, hof.mpr h1, fun u w => (s.latchListed_iff u w).mp (h2 u w), fun u => (hheld u).mpr (h3 u)⟩

/-! ### Steps that leave the trips alone -/

/-- What a step keeps that leaves the TRIP entries, the trip latches, their causes and the TRIP holds. -/
structure TripsKept (a b : State) : Prop where
  lawful : a.conditions.lawful → b.conditions.lawful
  trips : b.conditions.trips = a.conditions.trips
  latch : ∀ u w, (b.supervisor u).latch w = (a.supervisor u).latch w
  causes : b.causes = a.causes
  held : ∀ u, (b.governor u).holds.trip = (a.governor u).holds.trip

theorem Supervisor.untripped_of_latches {p q : Supervisor} (h : ∀ w, q.latch w = p.latch w) : q.untripped = p.untripped := by
  rw [Supervisor.untripped, Supervisor.untripped, show q.reliefLatch = p.reliefLatch from h .repeatedRelief,
    show q.powerLatch = p.powerLatch from h .powerTrip]

namespace TripsKept

theorem refl (a : State) : TripsKept a a := ⟨id, rfl, fun _ _ => rfl, rfl, fun _ => rfl⟩

theorem trans (h : TripsKept a b) (k : TripsKept b c) : TripsKept a c where
  lawful := fun hl => k.lawful (h.lawful hl)
  trips := k.trips.trans h.trips
  latch := fun u w => (k.latch u w).trans (h.latch u w)
  causes := k.causes.trans h.causes
  held := fun u => (k.held u).trans (h.held u)

theorem of_same (hc : b.conditions = a.conditions) (hs : b.supervisors = a.supervisors)
    (hg : ∀ u, (b.governor u).holds.trip = (a.governor u).holds.trip) : TripsKept a b where
  lawful := by rw [hc]; exact id
  trips := by rw [hc]
  latch := fun u w => by rw [State.supervisor, hs]; rfl
  causes := by funext u w; rw [State.causes, State.supervisor, hs]; rfl
  held := hg

theorem under (h : TripsKept a b) (ha : a.tripsUnder cause) : b.tripsUnder cause where
  lawful := h.lawful ha.lawful
  ofCrushers := fun e he => ha.ofCrushers e (h.trips ▸ he)
  agrees := fun u w => by
    rw [h.latch]
    exact ConditionList.agrees_of_same (fun e _ => by rw [h.trips]) (ha.agrees u w)
  held := fun u => by rw [h.held, ha.held, Supervisor.untripped_of_latches (h.latch u)]

theorem keeps (h : TripsKept a b) (ha : a.tripsLaw) : b.tripsLaw := by
  rw [State.tripsLaw, h.causes]
  exact h.under ha

theorem station (a : State) (st : Station) (f : StationRecord → StationRecord) : TripsKept a (a.modStation st f) :=
  .of_same (State.modStation_conditions ..) (State.modStation_supervisors ..) fun u => by rw [State.modStation_governor_read]

theorem governor (a : State) (t : Train) {f : Governor → Governor}
    (hf : (f (a.governor t)).holds.trip = (a.governor t).holds.trip) : TripsKept a (a.modGovernor t f) :=
  .of_same rfl rfl fun u => by
    by_cases hu : u = t
    · subst hu
      rw [State.governor_modGovernor, hf]
    · rw [State.governor_modGovernor_of_ne _ hu]

theorem supervisor (a : State) (t : Train) {f : Supervisor → Supervisor}
    (hlatch : ∀ w, (f (a.supervisor t)).latch w = (a.supervisor t).latch w)
    (hcause : ∀ w, (f (a.supervisor t)).causeActive w = (a.supervisor t).causeActive w) :
    TripsKept a (a.modSupervisor t f) := by
  have hother {u : Train} (hu : u ≠ t) : (a.modSupervisor t f).supervisor u = a.supervisor u :=
    Quad.get_set_of_ne a.supervisors hu _
  refine ⟨id, rfl, fun u w => ?_, funext fun u => funext fun w => ?_, fun _ => rfl⟩
  · by_cases hu : u = t
    · subst hu
      rw [State.supervisor_modSupervisor, hlatch]
    · rw [hother hu]
  · by_cases hu : u = t
    · subst hu
      rw [State.causes, State.supervisor_modSupervisor, hcause]
      rfl
    · rw [State.causes, hother hu]
      rfl

theorem release (a : State) (t : Train) {h : Hold} (hne : h ≠ .trip) : TripsKept a (a.removeHold t h) :=
  .governor a t (by simpa [Holds.has, hne.symm] using ((a.governor t).release_keeps h).1 .trip)

theorem hold (a : State) (t : Train) {h : Hold} (hne : h ≠ .trip) : TripsKept a (a.addHold t h) :=
  .governor a t (by simpa [Holds.has, hne.symm] using ((a.governor t).hold_keeps h).1 .trip)

end TripsKept

theorem tripsKept_moveClosed (t : Train) : MoveClosed t TripsKept where
  refl := .refl
  trans := .trans
  positioner := fun _ _ _ => .of_same rfl rfl fun _ => rfl
  addGapMove := fun a => .hold a t (by decide)
  removeGapMove := fun a => .release a t (by decide)
  episode := fun a hr => by
    have hnormal : TripsKept a (a.modSupervisor t fun v => { v with relief := .normal }) :=
      .supervisor a t (fun w => by cases w <;> rfl) fun w => by cases w <;> simp [Supervisor.causeActive, hr]
    refine (hnormal.trans (.release _ t (by decide))).trans ⟨fun h => ConditionList.lawful.causeEnded h _ _, ?_,
      fun _ _ => rfl, rfl, fun _ => rfl⟩
    exact ConditionList.trips_causeEnded (by decide)
  judged := fun a _ => .station a _ _
  selected := fun a i r _ _ _ _ => by
    have hfreed : TripsKept a ((a.evaluated t).freeSlot i) :=
      (TripsKept.station a _ _).trans (.of_same rfl rfl fun _ => rfl)
    exact (hfreed.trans (.station _ (crusherOf t) _)).trans (.station _ (crusherOf t) _)

theorem tripsKept_open (t : Train) : Open t TripsKept where
  toMoveClosed := tripsKept_moveClosed t
  store := fun _ _ => .of_same rfl rfl fun _ => rfl
  reports := fun _ _ hstep htrips => ⟨hstep.keeps_lawful, htrips, fun _ _ => rfl, rfl, fun _ => rfl⟩
  sequencer := fun _ _ _ _ => .of_same rfl rfl fun _ => rfl
  governor := fun a _ _ h => .governor a t h
  bars := fun _ _ => .of_same rfl rfl fun _ => rfl
  measures := fun _ _ _ => .of_same rfl rfl fun _ => rfl
  notes := fun _ _ _ => .of_same rfl rfl fun _ => rfl
  supervises := fun a _ h1 h2 _ => .supervisor a t h1 h2
  record := fun a st _ _ _ _ _ _ => .station a st _
  started := fun a st _ _ _ => .station a st _
  evaluates := fun a => by
    obtain ⟨hrest, hothers, -, hholds⟩ := a.evaluate_feederEvaluates t
    refine .of_same (congrArg State.conditions hrest :) (congrArg State.supervisors hrest :) fun u => ?_
    by_cases hu : u = t
    · subst hu
      rw [hholds]
    · obtain ⟨-, -, -, -, -, hgovernor, -⟩ := hothers u hu
      rw [hgovernor]
  frees := fun _ _ => .of_same rfl rfl fun _ => rfl
  endTouch := fun a _ => by
    have hreturned : TripsKept a ((a.returnDrive t).modSequencer fun _ => Sequencer.atStart) := .of_same rfl rfl fun _ => rfl
    exact hreturned.trans (.release _ t (by decide))
  gap := fun _ _ => .of_same rfl rfl fun _ => rfl
  zero := fun _ _ => .of_same rfl rfl fun _ => rfl
  mode := fun a st _ _ => .station a st _
  starts := fun a st _ _ => .station a st _
  timeOut := fun _ _ => .of_same rfl rfl fun _ => rfl
  leaves := fun _ _ => .of_same rfl rfl fun _ => rfl

end Sys2Proof.Machine
end

section
/-! PROOFS. What the blocks of the trip latches make of their law: relief onsets, clearings, power trips, absent trains and
acknowledgements (R136, R138, R142 to R145, R154, R155). -/

namespace Sys2Proof.Machine

variable {a b c s : State} {t u v : Train} {w x : TripLatch} {cause cause' : Train → TripLatch → Bool} {d : Option Detail}

/-! ### Causes taken as given -/

/-- The causes given, but for one latch's. -/
def withCause (cause : Train → TripLatch → Bool) (t : Train) (w : TripLatch) (c : Bool) : Train → TripLatch → Bool :=
  fun u x => if u = t ∧ x = w then c else cause u x

theorem withCause_self {c : Bool} (h : cause t w = c) : withCause cause t w c = cause := by
  funext u x
  unfold withCause
  split
  · next hsame =>
    obtain ⟨rfl, rfl⟩ := hsame
    exact h.symm
  · rfl

theorem Supervisor.latch_putLatch (v : Supervisor) (w x : TripLatch) (k : Latch) :
    (v.putLatch w k).latch x = if x = w then k else v.latch x := by
  cases w <;> cases x <;> rfl

theorem Supervisor.causeActive_putLatch (v : Supervisor) (w x : TripLatch) (k : Latch) :
    (v.putLatch w k).causeActive x = v.causeActive x := by
  cases w <;> cases x <;> rfl

/-- The causes of a train's latches, where the other trains' records are kept. -/
theorem State.causes_of_others (hothers : a.othersKept b t)
    (hcause : ∀ x, (b.supervisor t).causeActive x = cause t x) (hsame : ∀ u x, u ≠ t → cause u x = a.causes u x) :
    b.causes = cause := by
  funext u x
  by_cases hu : u = t
  · subst hu
    exact hcause x
  · obtain ⟨-, -, -, -, -, -, hsupervisor⟩ := hothers u hu
    rw [hsame u x hu, State.causes, hsupervisor]
    rfl

/-- A trip latch that takes another value, with what the List makes of its condition. -/
theorem State.tripsUnder.put {y : Bool} {k : Latch} (h : a.tripsUnder cause) (hothers : a.othersKept b t)
    (hlatch : ∀ x, (b.supervisor t).latch x = if x = w then k else (a.supervisor t).latch x)
    (hlawful : b.conditions.lawful)
    (htrips : ∀ e, e.name ≠ tripName t w → (e ∈ b.conditions.trips ↔ e ∈ a.conditions.trips))
    (hagrees : b.conditions.agrees y t w k) (hheld : (b.governor t).holds.trip = !(b.supervisor t).untripped) :
    b.tripsUnder (withCause cause t w y) := by
  refine ⟨hlawful, h.ofCrushers.of_others htrips, fun u x => ?_, fun u => ?_⟩
  · by_cases hsame : u = t ∧ x = w
    · obtain ⟨rfl, rfl⟩ := hsame
      rw [hlatch, if_pos rfl, withCause, if_pos ⟨rfl, rfl⟩]
      exact hagrees
    · have hkept : (b.supervisor u).latch x = (a.supervisor u).latch x := by
        by_cases hu : u = t
        · subst hu
          rw [hlatch, if_neg fun hx => hsame ⟨rfl, hx⟩]
        · obtain ⟨-, -, -, -, -, -, hsupervisor⟩ := hothers u hu
          rw [hsupervisor]
      rw [withCause, if_neg hsame, hkept]
      exact ConditionList.agrees_of_same
        (fun e he => htrips e fun hname => hsame (tripName_inj.mp (he.symm.trans hname))) (h.agrees u x)
  · by_cases hu : u = t
    · subst hu
      exact hheld
    · obtain ⟨-, -, -, -, -, hgovernor, hsupervisor⟩ := hothers u hu
      rw [hgovernor, hsupervisor]
      exact h.held u

/-- A latch that is CLEAR agrees whatever its cause is. -/
theorem State.tripsUnder.congr (h : a.tripsUnder cause)
    (hc : ∀ u x, cause' u x = cause u x ∨ (a.supervisor u).latch x = .clear) : a.tripsUnder cause' where
  lawful := h.lawful
  ofCrushers := h.ofCrushers
  agrees := fun u x => by
    have ha := h.agrees u x
    rcases hc u x with heq | hclear
    · rwa [heq]
    · rw [hclear] at ha ⊢
      exact ha
  held := h.held

/-- A record that changes none of its latches keeps the law under the causes given, whatever becomes of its own. -/
theorem State.tripsUnder.supervisor (h : a.tripsUnder cause) {f : Supervisor → Supervisor}
    (hf : ∀ x, (f (a.supervisor t)).latch x = (a.supervisor t).latch x) : (a.modSupervisor t f).tripsUnder cause := by
  have hlatch (u : Train) (x : TripLatch) : ((a.modSupervisor t f).supervisor u).latch x = (a.supervisor u).latch x := by
    by_cases hu : u = t
    · subst hu
      rw [State.supervisor_modSupervisor, hf]
    · exact congrArg (Supervisor.latch · x) (Quad.get_set_of_ne a.supervisors hu _)
  refine ⟨h.lawful, h.ofCrushers, fun u x => ?_, fun u => ?_⟩
  · rw [hlatch]
    exact h.agrees u x
  · rw [Supervisor.untripped_of_latches (hlatch u)]
    exact h.held u

theorem State.causes_modSupervisor (a : State) (t : Train) {f : Supervisor → Supervisor} {y : Bool}
    (hw : (f (a.supervisor t)).causeActive w = y)
    (hx : ∀ x, x ≠ w → (f (a.supervisor t)).causeActive x = (a.supervisor t).causeActive x) :
    (a.modSupervisor t f).causes = withCause a.causes t w y := by
  refine State.causes_of_others (a.othersKept_modSupervisor t f) (fun x => ?_) fun u x hu => ?_
  · rw [State.supervisor_modSupervisor, withCause]
    by_cases hxw : x = w
    · rw [if_pos ⟨rfl, hxw⟩, hxw, hw]
    · rw [if_neg fun h => hxw h.2, hx x hxw]
      rfl
  · rw [withCause, if_neg fun h => hu h.1]

/-! ### The onset and the end of a trip (R142, R143) -/

theorem State.tripsUnder.sets (h : a.tripsUnder cause) (hb : LatchSets t w d a b) : b.tripsUnder (withCause cause t w true) := by
  obtain ⟨-, hothers, hsupervisor, hgovernor, hconditions⟩ := hb
  obtain ⟨hthere, hlisted⟩ := h.lawful.onset_trips h.ofCrushers t w d a.stamp
  rw [← hconditions] at hthere hlisted
  refine h.put hothers (fun x => by rw [hsupervisor, Supervisor.latch_putLatch]) ?_ hthere hlisted ?_
  · rw [hconditions]
    exact h.lawful.onset _ _ _ _
  · rw [hsupervisor, Supervisor.untripped_putLatch_set, hgovernor]
    exact Governor.hold_has _ .trip

theorem LatchSets.causes (hb : LatchSets t w d a b) : b.causes = a.causes :=
  State.causes_of_others hb.others (fun x => by rw [hb.supervisor, Supervisor.causeActive_putLatch]; rfl) fun _ _ _ => rfl

theorem LatchEnds.causes (hb : LatchEnds t w a b) : b.causes = a.causes :=
  State.causes_of_others hb.others (fun x => by rw [hb.supervisor, Supervisor.causeActive_putLatch]; rfl) fun _ _ _ => rfl

theorem State.tripsUnder.ends (h : a.tripsUnder cause) (hb : LatchEnds t w a b) : b.tripsUnder (withCause cause t w false) := by
  obtain ⟨-, hothers, hsupervisor, hconditions, -, htrip⟩ := hb
  by_cases hclear : (a.supervisor t).latch w = .clear
  · rw [if_pos hclear] at hconditions
    have ha := h.agrees t w
    rw [hclear] at ha
    have hsame : b.supervisor t = a.supervisor t := by
      rw [hsupervisor, hclear, Latch.causeEnded, if_neg (by decide), ← hclear, Supervisor.putLatch_latch]
    refine h.put (k := .clear) hothers (fun x => ?_) (hconditions ▸ h.lawful) (fun e _ => by rw [hconditions]) ?_ ?_
    · rw [hsame]
      split
      · next hx => rw [hx, hclear]
      · rfl
    · rw [hconditions]
      exact ha
    · rw [htrip, hclear, if_neg (by decide), hsame]
      exact h.held t
  · rw [if_neg hclear] at hconditions
    refine h.put hothers (fun x => by rw [hsupervisor, Supervisor.latch_putLatch]) ?_ (fun e he => ?_) ?_ ?_
    · rw [hconditions]
      exact h.lawful.causeEnded _ _
    · rw [hconditions]
      exact ConditionList.causeEnded_others he
    · rw [hconditions]
      exact h.lawful.agrees_causeEnded (h.agrees t w)
    · rw [htrip]
      split
      · rfl
      · next hne =>
        rw [hsupervisor, Latch.causeEnded, if_neg hne, Supervisor.putLatch_latch]
        exact h.held t

/-- A trip begun: its cause, then its latch. -/
theorem State.tripsLaw.begins (h : a.tripsLaw) {f : Supervisor → Supervisor}
    (hf : ∀ x, (f (a.supervisor t)).latch x = (a.supervisor t).latch x)
    (hw : (f (a.supervisor t)).causeActive w = true)
    (hx : ∀ x, x ≠ w → (f (a.supervisor t)).causeActive x = (a.supervisor t).causeActive x)
    (hb : LatchSets t w d (a.modSupervisor t f) b) : b.tripsLaw := by
  rw [State.tripsLaw, hb.causes, State.causes_modSupervisor a t hw hx]
  exact (State.tripsUnder.supervisor h hf).sets hb

/-- The end of a cause, then what its latch takes of it. -/
theorem State.tripsLaw.causeEnds (h : a.tripsLaw) {f : Supervisor → Supervisor}
    (hf : ∀ x, (f (a.supervisor t)).latch x = (a.supervisor t).latch x)
    (hw : (f (a.supervisor t)).causeActive w = false)
    (hx : ∀ x, x ≠ w → (f (a.supervisor t)).causeActive x = (a.supervisor t).causeActive x)
    (hb : LatchEnds t w (a.modSupervisor t f) b) : b.tripsLaw := by
  rw [State.tripsLaw, hb.causes, State.causes_modSupervisor a t hw hx]
  exact (State.tripsUnder.supervisor h hf).ends hb

end Sys2Proof.Machine
end

section
/-! PROOFS. The law of the trip latches is kept by every act (O11). -/

namespace Sys2Proof.Machine

variable {a b c s : State} {t u v : Train} {w x : TripLatch} {code : Code} {sub : Subject}

/-! ### Relief, clearing and power trips -/

/-- The law of the trip latches is kept. -/
def KeepsTrips (a b : State) : Prop := a.tripsLaw → b.tripsLaw

theorem keepsTrips_open (t : Train) : Open t KeepsTrips where
  toCalm := (tripsKept_open t).toCalm.into TripsKept.keeps fun h k ha => k (h ha)
  gap := fun a f => ((tripsKept_open t).gap a f).keeps
  zero := fun a f => ((tripsKept_open t).zero a f).keeps
  mode := fun a st m h => ((tripsKept_open t).mode a st m h).keeps
  starts := fun a st n h => ((tripsKept_open t).starts a st n h).keeps
  timeOut := fun a h => ((tripsKept_open t).timeOut a h).keeps
  leaves := fun a h => ((tripsKept_open t).leaves a h).keeps

theorem State.modSupervisor_modSupervisor (s : State) (t : Train) (f g : Supervisor → Supervisor) :
    (s.modSupervisor t f).modSupervisor t g = s.modSupervisor t fun x => g (f x) := by
  have hset {α : Type} (q : Quad α) (x y : α) : (q.set t x).set t y = q.set t y := by cases t <;> rfl
  rw [State.modSupervisor, State.supervisor_modSupervisor]
  exact congrArg (fun q => { s with supervisors := q }) (hset ..)

/-- A relief onset entered in the record, before it is judged for repeated relief (R135, R136). -/
def Supervisor.onsetEntered (second : Nat) (v : Supervisor) : Supervisor :=
  { v with relief := .relieving, clearingTimer := none, history := enterOnset v.history second }

theorem State.reliefBegun_cases (a : State) (t : Train) :
    a.reliefBegun t = (a.modSupervisor t (Supervisor.onsetEntered a.time.seconds)).setLatch t .repeatedRelief none ∨
      a.reliefBegun t = a.modSupervisor t (Supervisor.onsetEntered a.time.seconds) ∧
        (a.supervisor t).latch .repeatedRelief = .clear := by
  have hentered : ((a.modSupervisor t fun v => { v with relief := .relieving, clearingTimer := none }).modSupervisor t
      fun v => { v with history := enterOnset v.history a.time.seconds }) =
        a.modSupervisor t (Supervisor.onsetEntered a.time.seconds) := a.modSupervisor_modSupervisor t _ _
  rw [← hentered]
  show (if _ then _ else _ : State) = _ ∨ (if _ then _ else _ : State) = _ ∧ _
  split
  · exact .inl rfl
  · next hfew =>
    rw [Bool.or_eq_true, not_or] at hfew
    have hlatch := of_not_not (of_decide_eq_false (Bool.eq_false_iff.mpr hfew.2))
    rw [State.modSupervisor_modSupervisor, State.supervisor_modSupervisor] at hlatch
    exact .inr ⟨rfl, hlatch⟩

/-- A relief onset is the cause of its latch; where the latch stays CLEAR its cause is no matter (R136, R143). -/
theorem keepsTrips_reliefBegun (a : State) (t : Train) : KeepsTrips a (a.reliefBegun t) := by
  intro h
  have hlatch (x : TripLatch) : ((a.supervisor t).onsetEntered a.time.seconds).latch x = (a.supervisor t).latch x := by
    cases x <;> rfl
  have hother (x : TripLatch) (hx : x ≠ .repeatedRelief) :
      ((a.supervisor t).onsetEntered a.time.seconds).causeActive x = (a.supervisor t).causeActive x := by
    cases x
    · exact absurd rfl hx
    · rfl
  rcases a.reliefBegun_cases t with hset | ⟨hsame, hclear⟩
  · rw [hset]
    exact State.tripsLaw.begins h hlatch rfl hother (State.setLatch_sets _ t .repeatedRelief none)
  · rw [hsame]
    have hunder : (a.modSupervisor t (Supervisor.onsetEntered a.time.seconds)).tripsUnder a.causes :=
      State.tripsUnder.supervisor h hlatch
    refine hunder.congr fun u x => ?_
    rw [State.causes_modSupervisor a t (w := .repeatedRelief) (y := true) rfl hother, withCause]
    split
    · next hw =>
      obtain ⟨rfl, rfl⟩ := hw
      rw [State.supervisor_modSupervisor, hlatch]
      exact .inr hclear
    · exact .inl rfl

theorem keepsTrips_reliefOnset (a : State) (t : Train) : KeepsTrips a (a.reliefOnset t) :=
  ((keepsTrips_open t).judges rfl).reliefOnset (keepsTrips_reliefBegun a t)

theorem keepsTrips_restoring (a : State) (t : Train) : KeepsTrips a (a.restoring t) := fun h =>
  State.tripsLaw.causeEnds h (fun x => by cases x <;> rfl) rfl (fun x => by cases x <;> simp [Supervisor.causeActive])
    (State.endLatchCause_ends (a.modSupervisor t fun v => { v with relief := .restoring, clearingTimer := none }) t
      .repeatedRelief)

theorem keepsTrips_clearingExpiry (a : State) (t : Train) : KeepsTrips a (a.clearingExpiry t) :=
  ((keepsTrips_open t).judges rfl).clearingExpiry (fun _ => keepsTrips_restoring a t) id

theorem keepsTrips_endTripCause (a : State) (t : Train) : KeepsTrips a (a.endTripCause t) := fun h =>
  State.tripsLaw.causeEnds h (fun x => by cases x <;> rfl) rfl (fun x => by cases x <;> simp [Supervisor.causeActive])
    (State.endLatchCause_ends (a.modSupervisor t fun v => { v with tripCause := false }) t .powerTrip)

theorem keepsTrips_judgePowerTrip (a : State) (t : Train) (power : Nat) : KeepsTrips a (a.judgePowerTrip t power) :=
  Calm.judgePowerTrip
    (fun h => State.tripsLaw.begins h (fun x => by cases x <;> rfl) rfl
      (fun x => by cases x <;> simp [Supervisor.causeActive])
      (State.setLatch_sets (a.modSupervisor t fun v => { v with tripCause := true }) t .powerTrip (some (.power power))))
    (fun b hb ha => keepsTrips_endTripCause b t (hb ha)) id

/-! ### Absent trains (R145) -/

/-- The Supervisor of a train made absent, before the causes of its latches end. -/
def State.supervisionEased (s : State) (t : Train) : State :=
  let eased := ((s.modSupervisor t fun v => { v with
    detectorActive := false, clearingTimer := none, relief := .normal, overloadTimer := none, history := [] }).removeReason t
      .relief).removeHold t .relief
  let ended := if (s.supervisor t).relief ≠ .normal then eased.causeEnd .relief (.crusher t) else eased
  if (s.supervisor t).overload then (ended.evaluate (crusherOf t)).endOverload t else ended.evaluate (crusherOf t)

theorem State.superviseAbsent_eq (s : State) (t : Train) :
    s.superviseAbsent t =
      let tripped := if (s.supervisor t).tripCause then (s.supervisionEased t).endTripCause t else s.supervisionEased t
      if (s.supervisor t).causeActive .repeatedRelief then tripped.endLatchCause t .repeatedRelief else tripped := rfl

/-- The relief of an absent train is NORMAL, and its latches have still to take the ends of their causes. -/
theorem State.supervisionEased_trips (h : a.tripsLaw) (t : Train) :
    (a.supervisionEased t).tripsUnder a.causes ∧
      (a.supervisionEased t).causes = withCause a.causes t .repeatedRelief false := by
  have hc := (tripsKept_open t).toCalm
  have hnormal : (a.modSupervisor t fun v => { v with
      detectorActive := false, clearingTimer := none, relief := .normal, overloadTimer := none, history := [] }).tripsUnder
        a.causes := State.tripsUnder.supervisor h fun x => by cases x <;> rfl
  have hcauses : (a.modSupervisor t fun v => { v with
      detectorActive := false, clearingTimer := none, relief := .normal, overloadTimer := none, history := [] }).causes =
        withCause a.causes t .repeatedRelief false :=
    State.causes_modSupervisor a t rfl fun x => by cases x <;> simp [Supervisor.causeActive]
  have hfreed := hc.removeHold (c := .relief) (hc.removeReason (hc.refl (a.modSupervisor t fun v => { v with
      detectorActive := false, clearingTimer := none, relief := .normal, overloadTimer := none, history := [] })) .relief)
    (by decide) (by decide)
  have hended := hc.evaluate (MoveClosed.ite (p := (a.supervisor t).relief ≠ .normal)
    (fun _ => hc.causeEnd hfreed (code := .relief) (by decide) (.crusher t)) fun _ => hfreed)
  have heased : TripsKept _ (a.supervisionEased t) := MoveClosed.ite (p := (a.supervisor t).overload = true)
    (fun _ => hc.endOverload hended) fun _ => hended
  exact ⟨heased.under hnormal, heased.causes.trans hcauses⟩

theorem keepsTrips_superviseAbsent (a : State) (t : Train) : KeepsTrips a (a.superviseAbsent t) := by
  intro h
  obtain ⟨hunder, hcauses⟩ := State.supervisionEased_trips h t
  rw [State.superviseAbsent_eq]
  generalize a.supervisionEased t = m at *
  have htripped : (if (a.supervisor t).tripCause then m.endTripCause t else m).tripsUnder
        (withCause a.causes t .powerTrip false) ∧
      (if (a.supervisor t).tripCause then m.endTripCause t else m).causes =
        withCause (withCause a.causes t .repeatedRelief false) t .powerTrip false := by
    split
    · have hends := State.endLatchCause_ends (m.modSupervisor t fun v => { v with tripCause := false }) t .powerTrip
      refine ⟨(State.tripsUnder.supervisor hunder fun x => by cases x <;> rfl).ends hends, hends.causes.trans ?_⟩
      rw [State.causes_modSupervisor m t (w := .powerTrip) (y := false) rfl fun x => by
        cases x <;> simp [Supervisor.causeActive], hcauses]
    · next hno =>
      have hoff : a.causes t .powerTrip = false := Bool.eq_false_iff.mpr hno
      rw [withCause_self hoff, withCause_self (by rw [withCause, if_neg (by simp), hoff])]
      exact ⟨hunder, hcauses⟩
  generalize (if (a.supervisor t).tripCause then m.endTripCause t else m) = n at *
  obtain ⟨hlaw, hn⟩ := htripped
  have hcomm : withCause (withCause a.causes t .repeatedRelief false) t .powerTrip false =
      withCause (withCause a.causes t .powerTrip false) t .repeatedRelief false := by
    funext u x
    unfold withCause
    cases x <;> simp
  rw [hcomm] at hn
  show (if _ then _ else _ : State).tripsLaw
  split
  · have hends := State.endLatchCause_ends n t .repeatedRelief
    rw [State.tripsLaw, hends.causes, hn]
    exact hlaw.ends hends
  · next hno =>
    have hoff : a.causes t .repeatedRelief = false := Bool.eq_false_iff.mpr hno
    rw [State.tripsLaw, hn, withCause_self (by rw [withCause, if_neg (by simp), hoff])]
    exact hlaw

theorem keepsTrips_judgePresence (before : Quad Bool) (t : Train) (h : KeepsTrips s a) :
    KeepsTrips s (a.judgePresence before t) := by
  have hc := keepsTrips_open t
  unfold State.judgePresence
  split
  · exact hc.makeAbsent (fun b hb => hc.trans hb (keepsTrips_superviseAbsent b t)) h
  · exact hc.makePresent (fun b hb => hc.trans hb (keepsTrips_reliefOnset b t)) h
  all_goals exact h

theorem keepsTrips_trains (a : State) (q : Quad Bool) : KeepsTrips a (a.storeTrains q) :=
  Acts.forTrains (f := fun u b => b.judgePresence a.line.trainsPresent u) (fun u _ hb => keepsTrips_judgePresence _ u hb)
    (TripsKept.of_same (a := a) (b := a.withLine { a.line with trainsPresent := q }) rfl rfl fun _ => rfl).keeps

end Sys2Proof.Machine
end

section
/-! PROOFS. Acknowledgements keep the law of the trip latches, and every other act does (O11). -/

namespace Sys2Proof.Machine

variable {a b c s : State} {t u v : Train} {w x : TripLatch} {code : Code} {sub : Subject}
  {cause : Train → TripLatch → Bool}

/-! ### An acknowledgement of another code (R154) -/

theorem ConditionList.trips_acknowledged {l : ConditionList} (hcode : code.cls ≠ .trip) :
    (l.acknowledged code sub).trips = l.trips :=
  ConditionList.trips_map rfl (fun e he => by rw [Entry.named_of_trip hcode he]; simp) fun e => by split <;> rfl

theorem ConditionList.trips_withoutAnswered {l : ConditionList} (hcode : code.cls ≠ .trip) :
    (l.withoutAnswered code sub).trips = l.trips :=
  ConditionList.trips_without fun e he => by rw [Entry.named_of_trip hcode he]; rfl

theorem tripsKept_ackOwner (hcode : code.cls ≠ .trip) (a : State) (u : Train) : TripsKept a (a.ackOwner code u) := by
  unfold State.ackOwner
  split
  · exact absurd rfl hcode
  · exact absurd rfl hcode
  · exact (tripsKept_open u).clearFault (.refl a)
  · exact (tripsKept_open u).zero a _
  · exact (tripsKept_open u).zero a _
  all_goals exact .refl a

theorem tripsKept_acknowledge (hcode : code.cls ≠ .trip) (a : State) (sub : Subject) :
    TripsKept a (a.acknowledge code sub) := by
  have hreports (b : State) {f : ConditionList → ConditionList} (hstep : ConditionStep b.conditions (f b.conditions))
      (htrips : (f b.conditions).trips = b.conditions.trips) : TripsKept b (b.modConditions f) :=
    (tripsKept_open .t0).reports b f hstep htrips
  have hlisted := hreports a (f := fun l => l.acknowledged code sub) (.acknowledged code sub) (ConditionList.trips_acknowledged hcode)
  have howned : TripsKept a ((a.modConditions fun l => l.acknowledged code sub).ackSubject code sub) := by
    unfold State.ackSubject
    split
    · exact hlisted.trans (tripsKept_ackOwner hcode _ _)
    all_goals exact hlisted
  exact howned.trans (hreports _ (f := fun l => l.withoutAnswered code sub) (.withoutAnswered code sub)
    (ConditionList.trips_withoutAnswered hcode))

/-! ### An acknowledgement of a trip (R143, R154) -/

theorem TripLatch.of_trip (hcode : code.cls = .trip) : ∃ w : TripLatch, w.code = code := by
  cases code <;> simp only [Code.cls, reduceCtorEq] at hcode
  · exact ⟨.repeatedRelief, rfl⟩
  · exact ⟨.powerTrip, rfl⟩

theorem OwnerTakes.causes (h : OwnerTakes u code a b) : b.causes = a.causes :=
  State.causes_of_others h.others (fun x => by
    cases x <;> simp [Supervisor.causeActive, h.relief, h.tripCause, State.causes]) fun _ _ _ => rfl

theorem OwnerTakes.latch (h : OwnerTakes u w.code a b) (x : TripLatch) :
    (b.supervisor u).latch x =
      if x = w then ((a.supervisor u).latch w).taken (a.causes u w) else (a.supervisor u).latch x := by
  have hrelief := h.reliefLatch
  have hpower := h.powerLatch
  cases w <;> cases x <;> simpa [TripLatch.code] using (by assumption)

theorem OwnerTakes.trip_held (h : OwnerTakes u w.code a b) : (b.governor u).holds.trip = !(b.supervisor u).untripped := by
  rw [h.trip, if_pos]
  cases w
  · exact .inl rfl
  · exact .inr rfl

theorem keepsTrips_acknowledge (a : State) (code : Code) (sub : Subject) : KeepsTrips a (a.acknowledge code sub) := by
  intro h
  by_cases hcode : code.cls = .trip
  · obtain ⟨w, rfl⟩ := TripLatch.of_trip hcode
    have hunnamed (hsub : ∀ u, sub ≠ .crusher u) : a.conditions.acknowledgedOf w.code sub = a.conditions := by
      refine h.lawful.acknowledgedOf_unlisted (ConditionList.listed_eq_false_iff_name.mpr fun e he hname => ?_)
      have hcls : e.code.cls = .trip := (congrArg Code.cls (congrArg Prod.fst hname)).trans w.code_cls
      obtain ⟨u, hu⟩ := h.ofCrushers e (ConditionList.mem_trips.mpr ⟨he, hcls⟩)
      exact hsub u ((congrArg Prod.snd hname).symm.trans hu)
    have hother (hsub : ∀ u, sub ≠ .crusher u)
        (heq : a.acknowledge w.code sub = a.modConditions fun l => l.acknowledgedOf w.code sub) :
        (a.acknowledge w.code sub).tripsLaw := by
      rw [heq]
      exact (TripsKept.of_same (b := a.modConditions fun l => l.acknowledgedOf w.code sub) (hunnamed hsub) rfl
        fun _ => rfl).keeps h
    cases sub with
    | crusher u =>
      have htakes := State.acknowledge_takes (s := a) (u := u) (code := w.code) (by cases w <;> simp [TripLatch.code])
      have hconditions : (a.acknowledge w.code (.crusher u)).conditions = a.conditions.acknowledgedOf w.code (.crusher u) :=
        congrArg State.conditions htakes.rest
      generalize a.acknowledge w.code (.crusher u) = b at *
      have hunder : b.tripsUnder (withCause a.causes u w (a.causes u w)) := by
        refine State.tripsUnder.put h htakes.others htakes.latch ?_ (fun e he => ?_) ?_ htakes.trip_held
        · rw [hconditions]
          exact h.lawful.acknowledgedOf _ _
        · rw [hconditions, ConditionList.mem_trips, ConditionList.mem_trips]
          exact and_congr_left fun _ => ConditionList.acknowledgedOf_others he
        · rw [hconditions]
          exact h.lawful.agrees_acknowledgedOf (h.agrees u w)
      rw [withCause_self rfl] at hunder
      rw [State.tripsLaw, htakes.causes]
      exact hunder
    | line => exact hother (by simp) rfl
    | link l => exact hother (by simp) rfl
    | storeSection sec => exact hother (by simp) rfl
  · exact (tripsKept_acknowledge hcode a sub).keeps h

/-! ### An acknowledgement of all (R155) -/

/-- The law of the trip latches amid an acknowledgement of all: once the latches take it and the answered entries go, they
agree. -/
structure State.tripsAnswering (cause : Train → TripLatch → Bool) (s : State) : Prop where
  lawful : s.conditions.lawful
  ofCrushers : s.conditions.ofCrushers
  agrees : ∀ u w, s.conditions.allAnswered.agrees (cause u w) u w (((s.supervisor u).latch w).taken (cause u w))
  held : ∀ u, (s.governor u).holds.trip = !(s.supervisor u).untripped
  causes : s.causes = cause

theorem Latch.taken_taken (k : Latch) (c : Bool) : (k.taken c).taken c = k.taken c := by
  cases k <;> cases c <;> rfl

theorem Latch.taken_ne_set (k : Latch) (c : Bool) : k.taken c ≠ .set := by
  cases k <;> cases c <;> decide

theorem State.tripsAnswering.kept (h : a.tripsAnswering cause) (hk : TripsKept a b) : b.tripsAnswering cause where
  lawful := hk.lawful h.lawful
  ofCrushers := fun e he => h.ofCrushers e (hk.trips ▸ he)
  agrees := fun u w => by
    rw [hk.latch]
    refine ConditionList.agrees_of_same (fun e _ => ?_) (h.agrees u w)
    rw [ConditionList.trips_allAnswered, ConditionList.trips_allAnswered, hk.trips]
  held := fun u => by rw [hk.held, h.held, Supervisor.untripped_of_latches (hk.latch u)]
  causes := hk.causes.trans h.causes

theorem State.tripsAnswering.taken (h : a.tripsAnswering cause) (hb : OwnerTakes u w.code a b) : b.tripsAnswering cause := by
  have hconditions : b.conditions = a.conditions := (congrArg State.conditions hb.rest :)
  refine ⟨hconditions ▸ h.lawful, hconditions ▸ h.ofCrushers, fun v x => ?_, fun v => ?_, hb.causes.trans h.causes⟩
  · have ha := h.agrees v x
    rw [hconditions]
    by_cases hv : v = u
    · subst hv
      rw [hb.latch, h.causes]
      split
      · next hx =>
        subst hx
        rwa [Latch.taken_taken]
      · exact ha
    · obtain ⟨-, -, -, -, -, -, hsupervisor⟩ := hb.others v hv
      rwa [hsupervisor]
  · by_cases hv : v = u
    · subst hv
      exact hb.trip_held
    · obtain ⟨-, -, -, -, -, hgovernor, hsupervisor⟩ := hb.others v hv
      rw [hgovernor, hsupervisor]
      exact h.held v

/-- The trip latches of some crushers have taken an acknowledgement. -/
def State.latchesTaken (us : Train → Prop) (s : State) : Prop := ∀ u, us u → ∀ w, (s.supervisor u).latch w ≠ .set

theorem State.ackCrusher_trips {us : Train → Prop} (h : a.tripsAnswering cause) (ht : a.latchesTaken us) (u : Train) :
    (a.ackCrusher u).tripsAnswering cause ∧ (a.ackCrusher u).latchesTaken fun v => us v ∨ v = u := by
  have hrelief := a.ackLatch_takes u (which := .repeatedRelief) rfl
  have hpower := (a.ackLatch u .repeatedRelief).ackLatch_takes u (which := .powerTrip) rfl
  have hrest : TripsKept ((a.ackLatch u .repeatedRelief).ackLatch u .powerTrip) (a.ackCrusher u) :=
    ((tripsKept_ackOwner (code := .moveTimeout) (by decide) _ u).trans
      (tripsKept_ackOwner (code := .zeroRejected) (by decide) _ u)).trans
        (tripsKept_ackOwner (code := .zeroAborted) (by decide) _ u)
  refine ⟨((h.taken hrelief).taken hpower).kept hrest, fun v hv x => ?_⟩
  rw [hrest.latch]
  by_cases hvu : v = u
  · subst hvu
    cases x with
    | repeatedRelief =>
      rw [hpower.latch, if_neg (by decide), hrelief.latch, if_pos rfl]
      exact Latch.taken_ne_set _ _
    | powerTrip =>
      rw [hpower.latch, if_pos rfl]
      exact Latch.taken_ne_set _ _
  · obtain ⟨-, -, -, -, -, -, h1⟩ := hrelief.others v hvu
    obtain ⟨-, -, -, -, -, -, h2⟩ := hpower.others v hvu
    rw [h2, h1]
    exact ht v (hv.resolve_right hvu) x

theorem keepsTrips_acknowledgeAll (a : State) : KeepsTrips a a.ownAcknowledgeAll.state := by
  intro h
  have hbegun : (a.modConditions ConditionList.allAcknowledged).tripsAnswering a.causes :=
    ⟨ConditionStep.allAcknowledged.keeps_lawful h.lawful, h.ofCrushers.allAcknowledged,
      fun u w => h.lawful.agrees_allAnswered (h.agrees u w), h.held, rfl⟩
  obtain ⟨h0, k0⟩ := State.ackCrusher_trips (us := fun _ => False) hbegun (fun _ hu => hu.elim) .t0
  obtain ⟨h1, k1⟩ := State.ackCrusher_trips h0 k0 .t1
  obtain ⟨h2, k2⟩ := State.ackCrusher_trips h1 k1 .t2
  obtain ⟨h3, k3⟩ := State.ackCrusher_trips h2 k2 .t3
  have hended : a.acknowledgeOwners.tripsAnswering a.causes := h3
  have htaken (u : Train) (w : TripLatch) : (a.acknowledgeOwners.supervisor u).latch w ≠ .set :=
    k3 u (by cases u <;> simp) w
  show (a.acknowledgeOwners.modConditions ConditionList.allAnswered).tripsLaw
  generalize a.acknowledgeOwners = b at *
  refine ⟨ConditionStep.allAnswered.keeps_lawful hended.lawful, hended.ofCrushers.allAnswered, fun u w => ?_, hended.held⟩
  have ha := hended.agrees u w
  rw [Latch.taken, if_neg (htaken u w), ← hended.causes] at ha
  exact ha

/-! ### Every act -/

theorem TripsKept.askLent (h : TripsKept a b) (u : Train) (d : Direction) : TripsKept a (b.askLent u d) := by
  have hasked : TripsKept a (b.modPositioner u fun p =>
      p.askDrive b.now (b.crusher u).deadTime d (b.crusher u).creepDuty) := h.trans (.of_same rfl rfl fun _ => rfl)
  exact MoveClosed.ite (fun _ => MoveClosed.ite (fun _ => hasked.trans (.of_same rfl rfl fun _ => rfl)) fun _ => hasked)
    fun _ => hasked

theorem tripsKept_startTouch (a : State) (u : Train) : TripsKept a (a.startTouch u) := by
  have hlent : TripsKept a ((a.modSequencer fun _ => { Sequencer.atStart with
      state := .approach, subject := some u, limitTimer := some (a.timer ((a.crusher u).zeroTimeLimit * 1000))
      start := some a.now }).lendDrive u) := .of_same rfl rfl fun _ => rfl
  exact (hlent.trans (.hold _ u (by decide))).askLent u .closing

theorem TripsKept.given (a : State) (r : Slot) : TripsKept a (a.given r) :=
  (TripsKept.station a r.station _).trans (.station _ r.station _)

theorem tripsKept_decides (a : State) (st : Station) (q : SettingRequest) : TripsKept a (a.decideSetting st q).state := by
  rw [State.decideSetting_state]
  generalize (a.numbered (a.slotOf st q)).placement (a.slotOf st q) = p
  have hnumbered : TripsKept a (a.numbered (a.slotOf st q)) := .of_same rfl rfl fun _ => rfl
  have hplaced : TripsKept a ((a.numbered (a.slotOf st q)).place (a.slotOf st q) p) := by
    cases p with
    | applied => exact (tripsKept_open st.train).toCalm.apply rfl (hnumbered.trans (.given _ _))
    | waiting i => exact .of_same rfl rfl fun _ => rfl
    | outranked | notAccepting | boardFull => exact hnumbered
  exact MoveClosed.ite (fun _ => hplaced.trans (.of_same rfl rfl fun _ => rfl)) fun _ => hplaced

theorem tripsKept_releases (a : State) (st : Station) : TripsKept a (a.releaseStanding st) := by
  have hreleased : TripsKept a (a.modStation st fun r => { r with standing := r.standing.released }) := .station a st _
  refine MoveClosed.ite (fun _ => (tripsKept_open st.train).toCalm.select rfl (fun i r _ _ => ?_) fun _ => hreleased)
    fun _ => hreleased
  have hfreed := hreleased.trans (c := State.freeSlot _ i) (.of_same rfl rfl fun _ => rfl)
  exact hfreed.trans (.given _ r)

theorem keepsTrips_of_same (hc : b.conditions = a.conditions) (hs : b.supervisors = a.supervisors)
    (hg : b.governors = a.governors) : KeepsTrips a b :=
  (TripsKept.of_same hc hs fun u => by rw [State.governor, hg]; rfl).keeps

theorem keepsTrips_acts : Acts KeepsTrips where
  calm := fun t => (keepsTrips_open t).toCalm
  link := fun _ _ _ => keepsTrips_of_same rfl rfl rfl
  restart := fun _ _ => keepsTrips_of_same rfl rfl rfl
  time := fun _ _ _ _ => keepsTrips_of_same rfl rfl rfl
  inputs := fun _ _ => keepsTrips_of_same rfl rfl rfl
  lentAsked := fun _ _ _ _ => keepsTrips_of_same rfl rfl rfl
  begins := fun _ _ _ => keepsTrips_of_same rfl rfl rfl
  jogs := fun _ _ _ _ _ => keepsTrips_of_same rfl rfl rfl
  jogAsked := fun _ _ _ _ _ => keepsTrips_of_same rfl rfl rfl
  startTouch := fun a u _ _ _ => (tripsKept_startTouch a u).keeps
  acceptTouch := fun _ u contact _ => (keepsTrips_open u).acceptTouch id contact
  moveTimerExpiry := fun _ u => (keepsTrips_open u).moveTimerExpiry id
  reliefOnset := keepsTrips_reliefOnset
  clearingExpiry := keepsTrips_clearingExpiry
  judgePowerTrip := keepsTrips_judgePowerTrip
  positionOutside := fun _ u => (keepsTrips_open u).positionOutside id
  becomeValid := fun _ u gap _ => (keepsTrips_open u).becomeValid id gap
  enterMode := fun _ st m _ => (keepsTrips_open st.train).enterMode id rfl m
  acknowledge := keepsTrips_acknowledge
  acknowledgeAll := keepsTrips_acknowledgeAll
  trains := fun a q _ => keepsTrips_trains a q
  freed := fun _ _ => keepsTrips_of_same rfl rfl rfl
  releases := fun a st => (tripsKept_releases a st).keeps
  decides := fun a st q => (tripsKept_decides a st q).keeps
  second := fun a => by rcases a.secondBoundary_eq with h | h <;> rw [h] <;> exact keepsTrips_of_same rfl rfl rfl
  crusherParam := fun _ _ _ _ _ => keepsTrips_of_same rfl rfl rfl
  feederParam := fun _ _ _ _ => keepsTrips_of_same rfl rfl rfl
  lineParam := fun _ _ _ _ => keepsTrips_of_same rfl rfl rfl

/-- An empty List agrees with latches that are CLEAR. -/
theorem State.tripsLaw_of_empty (hc : a.conditions = ConditionList.atStart)
    (hlatch : ∀ u w, (a.supervisor u).latch w = .clear) (hheld : ∀ u, (a.governor u).holds.trip = false) : a.tripsLaw := by
  have hnone : a.conditions.trips = [] := by rw [hc]; rfl
  refine ⟨hc ▸ ConditionList.atStart_lawful, ?_, fun u w => ?_, fun u => ?_⟩
  · rw [ConditionList.ofCrushers, hnone]
    exact fun e he => absurd he List.not_mem_nil
  · rw [hlatch, ConditionList.agrees, hnone]
    exact fun e he => absurd he List.not_mem_nil
  · have hrelief : (a.supervisor u).reliefLatch = .clear := hlatch u .repeatedRelief
    have hpower : (a.supervisor u).powerLatch = .clear := hlatch u .powerTrip
    rw [hheld, Supervisor.untripped, hrelief, hpower]
    rfl

theorem startFrom_tripsLaw (store : Store) (stamp : Stamp) (q : List Instr) : (startFrom store stamp q).tripsLaw := by
  have hc := (tripsKept_open .t0).toCalm
  have hempty : (blocksAtStart store stamp q).tripsLaw := by
    refine State.tripsLaw_of_empty rfl (fun u w => ?_) fun u => ?_
    · cases u <;> cases w <;> rfl
    · cases u <;> rfl
  have hsection {b : State} (hb : TripsKept (blocksAtStart store stamp q) b) (sec : StoreSection) (ok : Bool) :
      TripsKept (blocksAtStart store stamp q) (b.reportSection sec ok) :=
    MoveClosed.ite (fun _ => hb) fun _ => hc.onset hb (by decide) _ _
  have hzeros := Acts.forTrains (f := State.reportZero) (fun u b hb =>
      MoveClosed.ite (fun _ => hc.onset hb (code := .zeroUnset) (by decide) (.crusher u) none) fun _ => hb)
    (hsection (hsection (hsection (.refl _) .profile store.readProfile.isSome) .zero store.readZero.isSome) .wear
      store.readWear.isSome)
  exact (Acts.forTrains (f := State.reportWear) (fun u b hb =>
    MoveClosed.ite (fun _ => hc.onset hb (code := .wearLimit) (by decide) (.crusher u) none) fun _ => hb) hzeros).keeps hempty

theorem tripsLaw_kept : Kept State.tripsLaw where
  acts := keepsTrips_acts
  waits := fun _ _ _ => keepsTrips_of_same rfl rfl rfl
  starts := startFrom_tripsLaw
  lost := fun _ => State.tripsLaw_of_empty rfl (fun u w => by cases u <;> cases w <;> rfl) fun u => by cases u <;> rfl
  ticks := fun a => by
    refine TripsKept.keeps (.of_same rfl rfl fun u => ?_)
    rw [State.tickOutputs_governor]
    rfl
  queue := fun _ _ => keepsTrips_of_same rfl rfl rfl

/-- Settles O11, by the acts of the blocks. -/
theorem tripLatchesStayListed : Obligations.TripLatchesStayListed := by
  intro s t hlawful h0 h
  have hlaw := tripsLaw_kept.step h ((State.tripsLaw_iff hlawful).mpr h0)
  exact (State.tripsLaw_iff hlaw.lawful).mp hlaw

end Sys2Proof.Machine
end

section
/-! PROOFS. What a change of a train's presence leaves alone: the store, the zeros, the Sequencer, and all that is not the
train's (R23, R24). -/

namespace Sys2Proof.Machine

variable {a b c s : State} {u : Train}

/-- The work on a train that is no subject: the parameters, the inputs, the time, the store, the zeros and the touch stay,
and so do the other trains. -/
structure Within (u : Train) (a b : State) : Prop where
  work : a.workOf b u
  store : b.store = a.store
  zeros : b.zeros = a.zeros
  sequencer : b.sequencer = a.sequencer

namespace Within

theorem refl (a : State) (u : Train) : Within u a a :=
  ⟨⟨rfl, rfl, rfl, rfl, rfl, rfl, rfl, rfl, rfl, .refl a u⟩, rfl, rfl, rfl⟩

theorem trans (h : Within u a b) (k : Within u b c) : Within u a c :=
  ⟨h.work.trans k.work, k.store.trans h.store, k.zeros.trans h.zeros, k.sequencer.trans h.sequencer⟩

theorem ite {p : Prop} [Decidable p] (h : p → Within u s a) (k : ¬p → Within u s b) : Within u s (if p then a else b) :=
  MoveClosed.ite h k

theorem others (h : Within u a b) : a.othersKept b u := by
  obtain ⟨-, -, -, -, -, -, -, -, -, hothers⟩ := h.work
  exact hothers

theorem line (h : Within u a b) : b.line = a.line := by
  obtain ⟨-, -, -, hline, -⟩ := h.work
  exact hline

theorem present (h : Within u a b) (v : Train) : b.present v = a.present v := by rw [State.present, h.line]; rfl

theorem stamp (h : Within u a b) : b.stamp = a.stamp := by
  obtain ⟨-, -, htime, -⟩ := h.work
  rw [State.stamp, State.stamp, htime]

theorem isSubject (h : Within u a b) : b.isSubject u = a.isSubject u := by rw [State.isSubject, State.isSubject, h.sequencer]

theorem crusher (h : Within u a b) (v : Train) : b.crusher v = a.crusher v := by
  obtain ⟨-, -, -, -, hcrushers, -⟩ := h.work
  rw [State.crusher, hcrushers]
  rfl

theorem inputs (h : Within u a b) : b.inputs = a.inputs := by
  obtain ⟨-, -, -, -, -, -, hinputs, -⟩ := h.work
  exact hinputs

theorem of_moves (h : Moves u a b) : Within u a b := ⟨h.workOf, h.store, h.zeros, h.sequencer⟩

theorem of_tripStep (h : TripStep u a b) : Within u a b := by
  have hrest := h.rest
  exact ⟨State.workOf_of_othersKept h.others (by rw [hrest]), by rw [hrest], by rw [hrest], by rw [hrest]⟩

theorem of_feederEvaluates (h : FeederEvaluates u a b) : Within u a b := by
  have hrest := h.rest
  exact ⟨State.workOf_of_othersKept h.others (by rw [hrest]), by rw [hrest], by rw [hrest], by rw [hrest]⟩

theorem of_reliefStopped (h : ReliefStopped u a b) : Within u a b := by
  have hrest := h.rest
  exact ⟨State.workOf_of_othersKept h.others (by rw [hrest]), by rw [hrest], by rw [hrest], by rw [hrest]⟩

theorem governor (a : State) (u : Train) (f : Governor → Governor) : Within u a (a.modGovernor u f) :=
  ⟨a.workOf_modGovernor u f, rfl, rfl, rfl⟩

theorem positioner (a : State) (u : Train) (f : Positioner → Positioner) : Within u a (a.modPositioner u f) :=
  ⟨a.workOf_modPositioner u f, rfl, rfl, rfl⟩

theorem gap (a : State) (u : Train) (f : GapMeasurement → GapMeasurement) : Within u a (a.modGap u f) :=
  ⟨a.workOf_modGap u f, rfl, rfl, rfl⟩

theorem supervisor (a : State) (u : Train) (f : Supervisor → Supervisor) : Within u a (a.modSupervisor u f) :=
  ⟨a.workOf_modSupervisor u f, rfl, rfl, rfl⟩

theorem conditions (a : State) (u : Train) (f : ConditionList → ConditionList) : Within u a (a.modConditions f) :=
  ⟨⟨rfl, rfl, rfl, rfl, rfl, rfl, rfl, rfl, rfl, .refl _ u⟩, rfl, rfl, rfl⟩

theorem board (a : State) (u : Train) (x : Board) : Within u a (a.withBoard x) :=
  ⟨⟨rfl, rfl, rfl, rfl, rfl, rfl, rfl, rfl, rfl, .refl _ u⟩, rfl, rfl, rfl⟩

theorem station (a : State) {st : Station} (hst : st.train = u) (f : StationRecord → StationRecord) :
    Within u a (a.modStation st f) := by
  subst hst
  obtain ⟨v, r⟩ := st
  cases r <;> exact ⟨State.workOf_of_othersKept (a.othersKept_modStation _ f) rfl, rfl, rfl, rfl⟩

theorem causeEnd (h : Within u s a) (code : Code) (sub : Subject) : Within u s (a.causeEnd code sub) :=
  h.trans (.conditions a u _)

theorem onset (h : Within u s a) (code : Code) (sub : Subject) (d : Option Detail) : Within u s (a.onset code sub d) :=
  h.trans (.conditions a u _)

theorem removeHold (h : Within u s a) (c : Hold) : Within u s (a.removeHold u c) := h.trans (.governor a u _)

end Within

/-! ### Presence -/

theorem State.modeTaken_within (s : State) {st : Station} (hst : st.train = u) (m : Mode) : Within u s (s.modeTaken st m) := by
  have htaken := s.modeTaken_taken st m
  exact ⟨hst ▸ htaken.work, htaken.store, htaken.zeros, htaken.sequencer⟩

theorem State.enterMode_within (s : State) {st : Station} (hst : st.train = u) (m : Mode) : Within u s (s.enterMode st m) := by
  by_cases hm : (s.station st).mode = m
  · rw [State.enterMode_same hm]
    exact .ite (fun _ => .board s u _) fun _ => .refl s u
  · rw [State.enterMode_changed hm]
    have htaken := s.modeTaken_within hst m
    exact .ite (fun _ => htaken.trans (.board _ u _)) fun _ => htaken

theorem State.addReason_within (s : State) (u : Train) (r : Reason) : Within u s (s.addReason u r) := by
  rw [State.addReason_barred]
  exact .positioner s u _

theorem State.removeReason_within (s : State) (u : Train) (r : Reason) : Within u s (s.removeReason u r) :=
  (Within.positioner s u _).trans (.of_moves (s.removeReason_moves u r))

theorem State.evaluate_within (s : State) (u : Train) : Within u s (s.evaluate (crusherOf u)) :=
  .of_moves (Moves.refl s).evaluate

theorem State.endOverload_within (s : State) (u : Train) : Within u s (s.endOverload u) :=
  ((Within.supervisor s u fun v => { v with overload := false }).removeHold .overload).causeEnd _ _

theorem State.supervisionEased_within (s : State) (u : Train) : Within u s (s.supervisionEased u) := by
  have heased := ((Within.supervisor s u fun v => { v with
      detectorActive := false, clearingTimer := none, relief := .normal, overloadTimer := none, history := [] }).trans
        (State.removeReason_within _ u .relief)).removeHold .relief
  have hended := (Within.ite (p := (s.supervisor u).relief ≠ .normal) (fun _ => heased.causeEnd .relief (.crusher u))
    fun _ => heased).trans (State.evaluate_within _ u)
  exact .ite (fun _ => hended.trans (State.endOverload_within _ u)) fun _ => hended

theorem State.superviseAbsent_within (s : State) (u : Train) : Within u s (s.superviseAbsent u) := by
  have heased := s.supervisionEased_within u
  have htripped := Within.ite (p := (s.supervisor u).tripCause = true)
    (fun _ => heased.trans (.of_tripStep (State.endTripCause_tripStep _ u))) fun _ => heased
  exact .ite (fun _ => htripped.trans (.of_tripStep (State.endLatchCause_ends _ u .repeatedRelief).tripStep)) fun _ => htripped

theorem State.removeLevel_within (s : State) (u : Train) : Within u s (s.removeLevel u) := by
  have hreleased := (Within.refl s u).removeHold .level
  exact .ite (fun _ => hreleased.causeEnd _ _) fun _ => .ite (fun _ => hreleased) fun _ => hreleased.causeEnd _ _

theorem State.makeAbsent_within (s : State) (u : Train) : Within u s (s.makeAbsent u) := by
  have hbarred := (((s.enterMode_within (st := feederOf u) rfl .outOfService).trans
    (State.enterMode_within _ (st := crusherOf u) rfl .outOfService)).trans (.gap _ u fun g =>
      { g with validity := .notValid, recovery := none, gap := none, faultStanding := false })).trans
        (State.addReason_within _ u .position)
  have hfault {b : State} (hb : Within u s b) {p : Prop} [Decidable p] :
      Within u s (if p then b.causeEnd .positionFault (.crusher u) else b) := .ite (fun _ => hb.causeEnd _ _) fun _ => hb
  have hlevel {b : State} (hb : Within u s b) : Within u s (if (b.governor u).holds.level then b.removeLevel u else b) :=
    .ite (fun _ => hb.trans (State.removeLevel_within b u)) fun _ => hb
  have hzero {b : State} (hb : Within u s b) : Within u s (if (b.zero u).valid then b else b.causeEnd .zeroUnset (.crusher u)) :=
    .ite (fun _ => hb) fun _ => hb.causeEnd _ _
  exact hzero (((hlevel ((hfault hbarred).trans (State.superviseAbsent_within _ u))).trans
    (.of_feederEvaluates (State.evaluate_feederEvaluates _ u))).trans (State.evaluate_within _ u))

theorem State.writeStanding_within (s : State) {st : Station} (hst : st.train = u) (x : Standing) :
    Within u s (s.writeStanding st x) := by
  have hwritten := Within.station s hst fun r => { r with standing := x }
  obtain ⟨v, r⟩ := st
  obtain rfl : v = u := hst
  refine .ite (fun _ => hwritten) fun _ => ?_
  cases r with
  | feeder => exact hwritten.trans (.governor _ v _)
  | crusher => exact hwritten.trans (.of_moves (Moves.refl _).retarget)

theorem State.reliefEnd_within (s : State) (u : Train) : Within u s (s.reliefEnd u) :=
  .ite (fun _ => .supervisor s u _) fun _ => .refl s u

theorem State.setDetector_within (hsub : s.isSubject u = false) (active : Bool) : Within u s (s.setDetector u active) := by
  cases hd : (s.supervisor u).detectorActive == active with
  | true =>
    rw [State.setDetector_same (eq_of_beq hd)]
    exact .refl s u
  | false =>
    cases active with
    | true =>
      rw [State.setDetector_stops (by simpa using hd) hsub]
      exact (Within.of_reliefStopped (s.reliefStopped_stops u)).trans (.conditions _ u _)
    | false =>
      have hlevel : Within u s (s.modSupervisor u fun v => { v with detectorActive := false }) := .supervisor s u _
      have hend : s.setDetector u false = (s.modSupervisor u fun v => { v with detectorActive := false }).reliefEnd u :=
        (if_neg (by simpa using hd)).trans (if_neg Bool.false_ne_true)
      rw [hend]
      exact hlevel.trans (State.reliefEnd_within _ u)

theorem State.runningChanged_within (hsub : s.isSubject u = false) (running : Bool) :
    Within u s (s.runningChanged u running) := by
  cases hp : s.present u with
  | true =>
    rw [State.runningChanged_eq hp (.inr hsub)]
    exact .governor s u _
  | false =>
    rw [State.runningChanged_absent hp]
    exact .refl s u

theorem State.reliefSwitchChanged_within (hsub : s.isSubject u = false) : Within u s (s.reliefSwitchChanged u) := by
  unfold State.reliefSwitchChanged State.judgeSwitch
  split
  · exact .refl s u
  · split
    · exact .refl s u
    · exact State.setDetector_within hsub _

theorem State.takeLevels_within (hsub : s.isSubject u = false) :
    Within u s ((s.takeLevel (.running u)).takeLevel (.reliefSwitch u)) := by
  have hrunning : Within u s (s.takeLevel (.running u)) := by
    unfold State.takeLevel
    split
    · exact .refl s u
    · exact State.runningChanged_within hsub _
  have hsub' := hrunning.isSubject.trans hsub
  generalize s.takeLevel (.running u) = b at *
  unfold State.takeLevel
  split
  · exact hrunning
  · exact .ite (fun _ => hrunning.trans (State.reliefSwitchChanged_within hsub')) fun _ => hrunning

theorem State.makePresent_within (hsub : s.isSubject u = false) : Within u s (s.makePresent u) := by
  have hmodes := (s.enterMode_within (st := feederOf u) rfl .maintenance).trans
    (State.enterMode_within _ (st := crusherOf u) rfl .maintenance)
  have hset {b : State} (hb : Within u s b) {st : Station} (hst : st.train = u) (x : Standing) :
      Within u s (b.writeStanding st x) := hb.trans (State.writeStanding_within b hst x)
  have hgap {b : State} (hb : Within u s b) (f : GapMeasurement → GapMeasurement) : Within u s (b.modGap u f) :=
    hb.trans (.gap b u f)
  have happlied {b : State} (hb : Within u s b) : Within u s ((b.modStation (feederOf u) fun r =>
      { r with lastApplied := none }).modStation (crusherOf u) fun r => { r with lastApplied := none }) :=
    (hb.trans (.station b (st := feederOf u) rfl _)).trans (.station _ (st := crusherOf u) rfl _)
  have hlevels {b : State} (hb : Within u s b) : Within u s ((b.takeLevel (.running u)).takeLevel (.reliefSwitch u)) :=
    hb.trans (State.takeLevels_within (hb.isSubject.trans hsub))
  have hzero {b : State} (hb : Within u s b) :
      Within u s (if (b.zero u).valid then b else b.onset .zeroUnset (.crusher u) none) :=
    .ite (fun _ => hb) fun _ => hb.onset _ _ _
  exact hzero (hlevels (hgap (happlied (hset (hset hmodes (st := feederOf u) rfl _) (st := crusherOf u) rfl _)) _))

theorem State.judgePresence_within (hsub : s.isSubject u = false) (before : Quad Bool) :
    Within u s (s.judgePresence before u) := by
  unfold State.judgePresence
  split
  · exact s.makeAbsent_within u
  · exact State.makePresent_within hsub
  all_goals exact .refl s u

end Sys2Proof.Machine
end

section
/-! PROOFS. SET PARAMETER (R18 to R21): the value stored is the nearest allowed, and nothing else is written. -/

namespace Sys2Proof.Machine

variable {a b s t : State} {u : Train} {p q : Param} {v x : Nat}

/-! ### The value stored (R19) -/

theorem CrusherParams.bounds_le {c : CrusherParams} (h : c.ok = true) {n : CrusherParam} {least most : Nat}
    (hb : c.bounds n = some (least, most)) : least ≤ most := by
  obtain ⟨h1, h2⟩ := (CrusherParams.ok_iff c).1 h
  have g1 := h1 .gapMax
  have g2 := h1 .posHigh
  have g3 := h1 .posLow
  have g4 := h1 .gapMin
  have g5 := h1 .tripLevel
  have g6 := h1 .dutyMin
  have g7 := h1 .reliefHyst
  simp only [CrusherParam.range, ParamRange.holds, CrusherParams.get, Bool.and_eq_true, decide_eq_true_eq] at g1 g2 g3 g4 g5 g6 g7
  cases n <;> simp only [CrusherParams.bounds, Option.some.injEq, Prod.mk.injEq, reduceCtorEq] at hb <;> omega

theorem FeederParams.bounds_le {c : FeederParams} (h : c.ok = true) {n : FeederParam} {least most : Nat}
    (hb : c.bounds n = some (least, most)) : least ≤ most := by
  obtain ⟨h1, h2⟩ := (FeederParams.ok_iff c).1 h
  have g1 := h1 .rateMin
  simp only [FeederParam.range, ParamRange.holds, FeederParams.get, Bool.and_eq_true, decide_eq_true_eq] at g1
  cases n <;> simp only [FeederParams.bounds, Option.some.injEq, Prod.mk.injEq, reduceCtorEq] at hb <;> omega

theorem LineParams.bounds_le {c : LineParams} (h : c.ok = true) {n : LineParam} {least most : Nat}
    (hb : c.bounds n = some (least, most)) : least ≤ most := by
  obtain ⟨h1, h2⟩ := (LineParams.ok_iff c).1 h
  have g1 := h1 .surgeHigh
  have g2 := h1 .surgeSlow
  simp only [LineParam.range, ParamRange.holds, LineParams.get, Bool.and_eq_true, decide_eq_true_eq] at g1 g2
  cases n <;> simp only [LineParams.bounds, Option.some.injEq, Prod.mk.injEq, reduceCtorEq] at hb <;> omega

/-- A value lies within the range and the bounds of a parameter. -/
def allowedBy (lo hi : Nat) (bounds : Option (Nat × Nat)) (w : Nat) : Prop :=
  lo ≤ w ∧ w ≤ hi ∧ ∀ least most, bounds = some (least, most) → least ≤ w ∧ w ≤ most

/-- Where the value stored lies in the range, it is the one allowed that is nearest to the value sent. -/
theorem storedValue_nearest {lo hi : Nat} {bounds : Option (Nat × Nat)}
    (hb : ∀ least most, bounds = some (least, most) → least ≤ most)
    (hin : (ParamRange.numeric lo hi).holds (storedValue (.numeric lo hi) bounds x) = true) :
    allowedBy lo hi bounds (storedValue (.numeric lo hi) bounds x) ∧ ∀ w, allowedBy lo hi bounds w →
      ((storedValue (.numeric lo hi) bounds x : Int) - x).natAbs ≤ ((w : Int) - x).natAbs := by
  simp only [ParamRange.holds, Bool.and_eq_true, decide_eq_true_eq] at hin
  obtain ⟨hlo, hhi⟩ := hin
  cases bounds with
  | none =>
    refine ⟨⟨hlo, hhi, nofun⟩, fun w hw => ?_⟩
    obtain ⟨h1, h2, -⟩ := hw
    simp only [storedValue, clamp]
    omega
  | some m =>
    obtain ⟨least, most⟩ := m
    have hle := hb least most rfl
    refine ⟨⟨hlo, hhi, fun l m hlm => ?_⟩, fun w hw => ?_⟩
    · obtain ⟨rfl, rfl⟩ := Prod.mk.inj (Option.some.inj hlm)
      simp only [storedValue, clamp]
      omega
    · obtain ⟨h1, h2, h3⟩ := hw
      obtain ⟨h4, h5⟩ := h3 least most rfl
      simp only [storedValue, clamp] at hlo hhi ⊢
      omega

theorem State.paramBounds_le (h : s.paramsOk) {least most : Nat} (hb : s.paramBounds p = some (least, most)) : least ≤ most := by
  obtain ⟨hl, hc, hf, -⟩ := State.paramsOk_iff.mp h
  cases p with
  | crusher u n => exact CrusherParams.bounds_le (hc u) hb
  | feeder u n => exact FeederParams.bounds_le (hf u) hb
  | line n => exact LineParams.bounds_le hl hb

theorem State.stored_holds (h : s.paramsOk) (hx : p.range.defined x = true) :
    p.range.holds (storedValue p.range (s.paramBounds p) x) = true := by
  obtain ⟨hl, hc, hf, -⟩ := State.paramsOk_iff.mp h
  cases p with
  | crusher u n => exact CrusherParams.stored_holds n hx (hc u)
  | feeder u n => exact FeederParams.stored_holds n hx (hf u)
  | line n => exact LineParams.stored_holds n hx hl

/-! ### The sets written -/

/-- A parameter written, and nothing else. -/
def State.putParam (s : State) (p : Param) (v : Nat) : State :=
  match p with
  | .crusher u n => s.withCrusher u ((s.crusher u).put n v)
  | .feeder u n => s.withFeeder u ((s.feeder u).put n v)
  | .line n => s.withLine (s.line.put n v)

theorem State.paramValue_putParam (hv : p.range.holds v = true) :
    (s.putParam p v).paramValue p = v ∧ ∀ q, q ≠ p → (s.putParam p v).paramValue q = s.paramValue q := by
  cases p with
  | crusher u n =>
    have hself : (s.putParam (.crusher u n) v).crusher u = (s.crusher u).put n v := Quad.get_set_self ..
    refine ⟨(congrArg (CrusherParams.get · n) hself).trans (CrusherParams.get_put_self _ n hv), fun q hq => ?_⟩
    cases q with
    | crusher w m =>
      by_cases hw : w = u
      · subst hw
        have hm : m ≠ n := fun h => hq (h ▸ rfl)
        exact (congrArg (CrusherParams.get · m) hself).trans (CrusherParams.get_put_of_ne _ hm v)
      · exact congrArg (CrusherParams.get · m) (Quad.get_set_of_ne s.crusherParams hw _)
    | feeder | line => rfl
  | feeder u n =>
    have hself : (s.putParam (.feeder u n) v).feeder u = (s.feeder u).put n v := Quad.get_set_self ..
    refine ⟨(congrArg (FeederParams.get · n) hself).trans (FeederParams.get_put_self _ n hv), fun q hq => ?_⟩
    cases q with
    | feeder w m =>
      by_cases hw : w = u
      · subst hw
        have hm : m ≠ n := fun h => hq (h ▸ rfl)
        exact (congrArg (FeederParams.get · m) hself).trans (FeederParams.get_put_of_ne _ hm v)
      · exact congrArg (FeederParams.get · m) (Quad.get_set_of_ne s.feederParams hw _)
    | crusher | line => rfl
  | line n =>
    refine ⟨LineParams.get_put_self _ n hv, fun q hq => ?_⟩
    cases q with
    | line m =>
      have hm : m ≠ n := fun h => hq (h ▸ rfl)
      exact LineParams.get_put_of_ne _ hm v
    | crusher | feeder => rfl

/-- What the effects of a write leave alone: the parameters as written, the store, the time, the inputs, the links and the
touch. -/
structure ParamFrame (a b : State) : Prop where
  line : b.line = a.line
  crusherParams : b.crusherParams = a.crusherParams
  feederParams : b.feederParams = a.feederParams
  store : b.store = a.store
  time : b.time = a.time
  inputs : b.inputs = a.inputs
  links : b.links = a.links
  sequencer : b.sequencer = a.sequencer

namespace ParamFrame

theorem refl (a : State) : ParamFrame a a := ⟨rfl, rfl, rfl, rfl, rfl, rfl, rfl, rfl⟩

theorem trans {c : State} (h : ParamFrame a b) (k : ParamFrame b c) : ParamFrame a c :=
  ⟨k.line.trans h.line, k.crusherParams.trans h.crusherParams, k.feederParams.trans h.feederParams, k.store.trans h.store,
    k.time.trans h.time, k.inputs.trans h.inputs, k.links.trans h.links, k.sequencer.trans h.sequencer⟩

theorem of_within (h : Within u a b) : ParamFrame a b := by
  obtain ⟨-, -, htime, hline, hcrushers, hfeeders, hinputs, hlinks, -, -⟩ := h.work
  exact ⟨hline, hcrushers, hfeeders, h.store, htime, hinputs, hlinks, h.sequencer⟩

theorem paramValue (h : ParamFrame a b) (p : Param) : b.paramValue p = a.paramValue p := by
  cases p with
  | crusher u n => rw [State.paramValue, State.crusher, h.crusherParams]; rfl
  | feeder u n => rw [State.paramValue, State.feeder, h.feederParams]; rfl
  | line n => rw [State.paramValue, h.line]; rfl

end ParamFrame

theorem ParamFrame.limited (h : ParamFrame a b) (st : Station) (n : Nat) : b.limited st n = a.limited st n := by
  rw [State.limited, State.limited, State.crusher, State.feeder, h.crusherParams, h.feederParams]
  rfl

/-- The presence of the subject's train stays; that of the others changes within their own records (R23, R24). -/
theorem State.storeTrains_frame {trains : Quad Bool} (hsub : ∀ u, s.sequencer.subject = some u → s.present u = true)
    (hin : s.leavesOutSubject trains = false) :
    ParamFrame (s.withLine { s.line with trainsPresent := trains }) (s.storeTrains trains) := by
  have hkept (u : Train) (b : State) (hb : ParamFrame (s.withLine { s.line with trainsPresent := trains }) b) :
      ParamFrame (s.withLine { s.line with trainsPresent := trains }) (b.judgePresence s.line.trainsPresent u) := by
    by_cases hu : s.sequencer.subject = some u
    · have hbefore : s.line.trainsPresent.get u = true := hsub u hu
      have hafter : b.present u = true := by
        rw [State.present, hb.line]
        simpa [State.leavesOutSubject, hu] using hin
      have hself : b.judgePresence s.line.trainsPresent u = b := by
        unfold State.judgePresence
        rw [hbefore, hafter]
      rw [hself]
      exact hb
    · have hfree : b.isSubject u = false := by
        rw [State.isSubject, hb.sequencer]
        exact decide_eq_false hu
      exact hb.trans (.of_within (State.judgePresence_within hfree _))
  exact Acts.forTrains (f := State.judgePresence s.line.trainsPresent) hkept (.refl _)

theorem State.clampStanding_within (s : State) (st : Station) : Within st.train s (s.clampStanding st) :=
  s.writeStanding_within rfl _

/-- The effects of a write keep the parameters written. -/
theorem State.storeParam_frame (htrains : p = .line .trainsPresent → (∀ u, s.sequencer.subject = some u → s.present u = true) ∧
    s.leavesOutSubject (trainSetOf v) = false) : ParamFrame (s.putParam p v) (s.storeParam p v) := by
  cases p with
  | crusher u n =>
    cases n with
    | gapMin | gapMax => exact .of_within (State.clampStanding_within _ _)
    | wearLimit =>
      have hrest := (s.withCrusher u ((s.crusher u).put .wearLimit v)).judgeWearLimit_rest u (s.wearLimitStands u)
      show ParamFrame _ ((s.withCrusher u ((s.crusher u).put .wearLimit v)).judgeWearLimit u (s.wearLimitStands u))
      rw [hrest]
      exact ⟨rfl, rfl, rfl, rfl, rfl, rfl, rfl, rfl⟩
    | _ => exact .refl _
  | feeder u n =>
    cases n with
    | rateMin | rateMax => exact .of_within (State.clampStanding_within _ _)
    | trimLimit =>
      set w := s.withFeeder u ((s.feeder u).put .trimLimit v)
      exact .of_within (.governor w u fun g => { g with trim := clampTrim (w.feeder u).trimLimit g.trim })
    | _ => exact .refl _
  | line n =>
    cases n with
    | trainsPresent =>
      obtain ⟨hsub, hin⟩ := htrains rfl
      exact State.storeTrains_frame hsub hin
    | _ => exact .refl _

/-! ### What a write leaves of the stations (R20, R21) -/

/-- The station whose limits a parameter is. -/
def Param.limits : Param → Option Station
  | .crusher u .gapMin | .crusher u .gapMax => some (crusherOf u)
  | .feeder u .rateMin | .feeder u .rateMax => some (feederOf u)
  | _ => none

/-- The effects of a write other than of TRAINS_PRESENT, for the board and the stations. -/
structure ParamApart (p : Param) (a b : State) : Prop where
  board : b.board = a.board
  zeros : b.zeros = a.zeros
  gaps : b.gaps = a.gaps
  kept : ∀ st, p.limits ≠ some st → b.station st = a.station st
  limited : ∀ st, p.limits = some st →
    (b.station st).standing = { (a.station st).standing with target := a.limited st (a.station st).standing.target } ∧
      (b.station st).mode = (a.station st).mode ∧ (b.station st).lastApplied = (a.station st).lastApplied

theorem ParamApart.of_same (hp : p.limits = none) (hboard : b.board = a.board) (hzeros : b.zeros = a.zeros)
    (hgaps : b.gaps = a.gaps) (hstation : ∀ st, b.station st = a.station st) : ParamApart p a b :=
  ⟨hboard, hzeros, hgaps, fun st _ => hstation st, fun st h => by rw [hp] at h; cases h⟩

/-- A standing target clamped into its limits selects nothing: a crusher's are written out of RUN alone (R18, R21). -/
theorem State.clampStanding_apart {st : Station} (hp : p.limits = some st) (hmode : (s.station st).mode ≠ .run) :
    ParamApart p s (s.clampStanding st) := by
  have hlimits {x : Station} (hx : p.limits = some x) : x = st := Option.some.inj (hx.symm.trans hp)
  obtain ⟨u, r⟩ := st
  have hothers {b : State} (hb : s.othersKept b u) {x : Station} (hx : x.train ≠ u) : b.station x = s.station x := by
    obtain ⟨hf, hc, -⟩ := hb x.train hx
    obtain ⟨v, r⟩ := x
    cases r
    · exact hf
    · exact hc
  cases r with
  | feeder =>
    have hwritten : ParamApart p s (s.modStation ⟨u, .feeder⟩ fun r =>
        { r with standing := { (s.station ⟨u, .feeder⟩).standing with
          target := s.limited ⟨u, .feeder⟩ (s.station ⟨u, .feeder⟩).standing.target } }) := by
      refine ⟨rfl, rfl, rfl, fun x hx => State.station_modStation_of_ne s (fun h => hx ?_) _, fun x hx => ?_⟩
      · rw [h, hp]
      obtain rfl := hlimits hx
      rw [State.station_modStation]
      exact ⟨rfl, rfl, rfl⟩
    obtain ⟨h1, h2, h3, h4, h5⟩ := hwritten
    unfold State.clampStanding State.writeStanding State.writeStandingWith
    dsimp only
    split
    · exact ⟨h1, h2, h3, h4, h5⟩
    · exact ⟨h1, h2, h3, h4, h5⟩
  | crusher =>
    set x : Standing := { (s.station (crusherOf u)).standing with
      target := s.limited (crusherOf u) (s.station (crusherOf u)).standing.target } with hx
    have hmoves : Moves u _ (s.clampStanding (crusherOf u)) := s.writeStanding_moves u x
    have hstill : Unselected u _ (s.clampStanding (crusherOf u)) := (unselected_moveClosed u).writeStanding s x
    have hwithin := s.clampStanding_within (crusherOf u)
    have hwritten := s.station_modStation (crusherOf u) fun r => { r with standing := x }
    obtain ⟨-, hboard, hstanding, happlied⟩ := hstill (by rw [hwritten]; exact hmode)
    refine ⟨hboard, hwithin.zeros, hmoves.gaps, fun y hy => ?_, fun y hy => ?_⟩
    · by_cases hyu : y.train = u
      · obtain ⟨v, r⟩ := y
        obtain rfl : v = u := hyu
        cases r with
        | feeder => exact (congrArg (fun w : State => w.station (feederOf v)) hmoves.rest :)
        | crusher => exact absurd hp hy
      · exact hothers hwithin.others hyu
    · obtain rfl := hlimits hy
      have hmode' := hmoves.mode
      rw [hwritten] at hstanding happlied hmode'
      exact ⟨hstanding, hmode', happlied⟩

theorem State.storeParam_apart (hp : p ≠ .line .trainsPresent) (hmode : s.paramModeOk p = true) :
    ParamApart p (s.putParam p v) (s.storeParam p v) := by
  cases p with
  | crusher u n =>
    have hout : (s.station (crusherOf u)).mode ≠ .run := by simpa [State.paramModeOk, State.inRun] using hmode
    cases n with
    | gapMin | gapMax => exact State.clampStanding_apart (s := s.putParam _ v) rfl hout
    | wearLimit =>
      have hrest := (s.withCrusher u ((s.crusher u).put .wearLimit v)).judgeWearLimit_rest u (s.wearLimitStands u)
      show ParamApart _ _ ((s.withCrusher u ((s.crusher u).put .wearLimit v)).judgeWearLimit u (s.wearLimitStands u))
      rw [hrest]
      exact .of_same rfl rfl rfl rfl fun _ => rfl
    | _ => exact .of_same rfl rfl rfl rfl fun _ => rfl
  | feeder u n =>
    have hout : (s.station (feederOf u)).mode ≠ .run := by simpa [State.paramModeOk, State.inRun] using hmode
    cases n with
    | rateMin | rateMax => exact State.clampStanding_apart (s := s.putParam _ v) rfl hout
    | _ => exact .of_same rfl rfl rfl rfl fun _ => rfl
  | line n =>
    cases n with
    | trainsPresent => exact absurd rfl hp
    | _ => exact .of_same rfl rfl rfl rfl fun _ => rfl

/-- A WEAR_LIMIT written is judged against the wear at once (R65). -/
theorem State.storeParam_wearLimit (s : State) (u : Train) (v : Nat) :
    (s.storeParam (.crusher u .wearLimit) v).conditions =
      if decide (v * 100 ≤ (s.gap u).wear) && !s.wearLimitStands u then
        s.conditions.onset .wearLimit (.crusher u) none s.stamp
      else if !decide (v * 100 ≤ (s.gap u).wear) && s.wearLimitStands u then s.conditions.causeEnded .wearLimit (.crusher u)
      else s.conditions := by
  have hput : ((s.withCrusher u ((s.crusher u).put .wearLimit v)).crusher u).wearLimit = v :=
    (congrArg CrusherParams.wearLimit (Quad.get_set_self ..) :)
  have hstands : (s.withCrusher u ((s.crusher u).put .wearLimit v)).wearLimitStands u = decide (v * 100 ≤ (s.gap u).wear) := by
    rw [State.wearLimitStands, hput]
    rfl
  have hjudged := (s.withCrusher u ((s.crusher u).put .wearLimit v)).judgeWearLimit_conditions u (s.wearLimitStands u)
  rw [hstands] at hjudged
  exact hjudged

/-! ### SET PARAMETER (R18) -/

theorem Param.limits_iff (p : Param) (st : Station) : p.limits = some st ↔ (match p with
    | .crusher u n => st = crusherOf u ∧ (n = .gapMin ∨ n = .gapMax)
    | .feeder u n => st = feederOf u ∧ (n = .rateMin ∨ n = .rateMax)
    | .line _ => False) := by
  cases p with
  | crusher u n => cases n <;> simp [Param.limits, eq_comm]
  | feeder u n => cases n <;> simp [Param.limits, eq_comm]
  | line n => simp [Param.limits]

/-- Settles O55: the value by its nearness, the sets by the write, the stations by what its effects leave. -/
theorem setParameterStoresTheNearestValue : Obligations.SetParameterStoresTheNearestValue := by
  intro tag b number value set p s hs hok hset hp hdefined hmode hbusy htrains
  have hholds := State.stored_holds hok hdefined
  have hnearest (lo hi : Nat) (hr : p.range = .numeric lo hi) :
      allowedBy lo hi (s.paramBounds p) (storedValue p.range (s.paramBounds p) value.toNat) ∧
        ∀ w, allowedBy lo hi (s.paramBounds p) w →
          ((storedValue p.range (s.paramBounds p) value.toNat : Int) - value.toNat).natAbs ≤ ((w : Int) - value.toNat).natAbs := by
    rw [hr] at hholds ⊢
    exact storedValue_nearest (fun _ _ => State.paramBounds_le hok) hholds
  have hnamed (k : Nat) (hr : p.range = .named k) : storedValue p.range (s.paramBounds p) value.toNat = value.toNat := by
    rw [hr]
    rfl
  have hexec := exec_setParameter_taken (tag := tag) hs hset hp hdefined hmode hbusy rfl
  generalize storedValue p.range (s.paramBounds p) value.toNat = v at *
  have hframe : ParamFrame ((s.replyBegins .sv).putParam p v) ((s.replyBegins .sv).storeParam p v) := by
    refine State.storeParam_frame fun hpt => ⟨htrains hpt, ?_⟩
    subst hpt
    have hin : s.leavesOutSubject (trainSetOf value.toNat) = false := by simpa [State.paramBusy] using hbusy
    exact hnamed 16 rfl ▸ hin
  have hapart (hne : p ≠ .line .trainsPresent) := State.storeParam_apart (s := s.replyBegins .sv) (v := v) hne
    (by cases p <;> exact hmode)
  obtain ⟨hself, hother⟩ := State.paramValue_putParam (s := s.replyBegins .sv) hholds
  have hvalues := hframe.paramValue
  have hwear (u : Train) (hpw : p = .crusher u .wearLimit) :
      ((s.replyBegins .sv).storeParam p v).conditions = _ := hpw ▸ (s.replyBegins .sv).storeParam_wearLimit u v
  have hlinks : ((s.replyBegins .sv).storeParam p v).links = (s.replyBegins .sv).links := by
    rw [hframe.links]
    cases p <;> rfl
  refine ⟨_, v, hexec, Decision.repliedBy (k := .setParameter) hlinks, (hvalues p).trans hself, fun q hq => ?_, ?_, ?_, ?_,
    hnamed, hnearest, fun u hpw => hwear u hpw, fun hne => ?_⟩
  · refine ((hvalues q).trans (hother q hq)).trans ?_
    cases q <;> rfl
  · refine hframe.store.trans ?_
    cases p <;> rfl
  · refine hframe.time.trans ?_
    cases p <;> rfl
  · refine hframe.inputs.trans ?_
    cases p <;> rfl
  · have hput : (s.replyBegins .sv).putParam p v = { s with
        line := ((s.replyBegins .sv).putParam p v).line, crusherParams := ((s.replyBegins .sv).putParam p v).crusherParams
        feederParams := ((s.replyBegins .sv).putParam p v).feederParams, links := (s.replyBegins .sv).links } := by
      cases p <;> rfl
    obtain ⟨hboard, hzeros, hgaps, hkept, hlimited⟩ := hapart hne
    have hsequencer := hframe.sequencer
    have hlimit := hframe.limited
    generalize (s.replyBegins .sv).storeParam p v = x at *
    generalize (s.replyBegins .sv).putParam p v = w at *
    have hstation (st : Station) : w.station st = s.station st := by rw [hput]; rfl
    refine ⟨hboard.trans (by rw [hput]), hzeros.trans (by rw [hput]), hgaps.trans (by rw [hput]), hsequencer.trans (by rw [hput]),
      fun st => ⟨fun hno => ?_, fun hyes => ?_⟩⟩
    · exact (hkept st (mt (p.limits_iff st).mp hno)).trans (hstation st)
    · obtain ⟨hstanding, hmode, happlied⟩ := hlimited st ((p.limits_iff st).mpr hyes)
      rw [hstation, ← hlimit] at hstanding
      rw [hstation] at hmode happlied
      exact ⟨hstanding, hmode, happlied⟩

end Sys2Proof.Machine
end

section
/-! PROOFS. Modes taken out of RUN, as a train's presence changes (R9, R23, R24). -/

namespace Sys2Proof.Machine

variable {a b c s t : State} {u : Train} {st : Station} {m : Mode}

/-! ### A mode other than RUN (R9, R11) -/

theorem State.accepting_modStation_mode (s : State) (st : Station) (hm : m ≠ .run) :
    (s.modStation st fun r => { r with mode := m }).accepting st = false := by
  refine State.accepting_of_mode ?_
  rw [State.station_modStation]
  exact hm

theorem State.judgeModeHold_out (h : s.trainRuns u = false) : s.judgeModeHold u = s.addHold u .mode :=
  if_neg (by simp [h])

/-- A feeder that takes a mode other than RUN. -/
theorem State.modeTaken_feederOut (s : State) (u : Train) (hm : m ≠ .run) :
    s.modeTaken (feederOf u) m =
      ((s.modStation (feederOf u) fun r => { r with mode := m }).addHold u .mode).modStation (feederOf u) fun r =>
        { r with lastAccepting := false } := by
  have hruns : (s.modStation (feederOf u) fun r => { r with mode := m }).trainRuns u = false := by
    have h := s.trainRuns_written (feederOf u) m
    rw [decide_eq_false hm, Bool.false_and] at h
    exact h
  have hno : ((s.modStation (feederOf u) fun r => { r with mode := m }).addHold u .mode).accepting (feederOf u) = false :=
    s.accepting_modStation_mode (feederOf u) hm
  show ((s.modStation (feederOf u) fun r => { r with mode := m }).judgeModeHold u).evaluate (feederOf u) = _
  rw [State.judgeModeHold_out hruns, State.evaluate_eq (.inl hno), hno]

/-- A crusher that takes a mode other than RUN, after a jog that the mode ends. -/
theorem State.modeTaken_crusherOut (s : State) (u : Train) (hm : m ≠ .run) :
    s.modeTaken (crusherOf u) m =
      ((((s.modStation (crusherOf u) fun r => { r with mode := m }).endRunningJog u).modPositioner u
        (Positioner.barred s.now .mode)).addHold u .mode).modStation (crusherOf u) fun r => { r with lastAccepting := false } := by
  have hmoves := (Moves.refl (s.modStation (crusherOf u) fun r => { r with mode := m })).endRunningJog (t := u)
  have hmode : (((s.modStation (crusherOf u) fun r => { r with mode := m }).endRunningJog u).station (crusherOf u)).mode = m := by
    rw [hmoves.mode, State.station_modStation]
  have hnow : ((s.modStation (crusherOf u) fun r => { r with mode := m }).endRunningJog u).now = s.now := by
    rw [State.now, hmoves.time]
    rfl
  show (((((s.modStation (crusherOf u) fun r => { r with mode := m }).endRunningJog u).judgeModeReason u).judgeModeHold
    u).evaluate (crusherOf u)) = _
  generalize (s.modStation (crusherOf u) fun r => { r with mode := m }).endRunningJog u = x at *
  have hreason : x.judgeModeReason u = x.modPositioner u (Positioner.barred s.now .mode) := by
    rw [State.judgeModeReason, if_neg (by rw [hmode]; exact hm), State.addReason_barred, hnow]
  have hruns : (x.modPositioner u (Positioner.barred s.now .mode)).trainRuns u = false := by
    rw [State.trainRuns, Bool.and_eq_false_iff]
    exact .inr (decide_eq_false (by rw [State.modPositioner_station_read, hmode]; exact hm))
  have hno : ((x.modPositioner u (Positioner.barred s.now .mode)).addHold u .mode).accepting (crusherOf u) = false :=
    State.accepting_of_mode (show (x.station (crusherOf u)).mode ≠ .run by rw [hmode]; exact hm)
  rw [hreason, State.judgeModeHold_out hruns, State.evaluate_eq (.inl hno), hno]

/-! ### A reason added -/

theorem Positioner.barred_reasons (now : Nat) (r : Reason) (p : Positioner) :
    (p.barred now r).reasons = p.reasons.put r true := by
  have hunder : (p.under now r).reasons = p.reasons.put r true := by
    unfold Positioner.under
    split
    · next h => simpa only [h] using (Reasons.put_has p.reasons r).symm
    · rfl
  unfold Positioner.barred
  split
  · rw [Positioner.dropJog_eq]
    exact hunder
  · exact hunder

/-- A Positioner in SUSPENDED or FAULT takes the reason alone. -/
theorem Positioner.barred_settled {now : Nat} {r : Reason} {p : Positioner} (h : p.state = .suspended ∨ p.state = .fault) :
    p.barred now r = { p with reasons := p.reasons.put r true } := by
  have hsame : p.suspend now = p := by
    unfold Positioner.suspend
    rcases h with h | h <;> rw [h]
  rw [Positioner.barred, if_neg (by rcases h with h | h <;> simp [h]), Positioner.under]
  split
  · next hr =>
    have hput := Reasons.put_has p.reasons r
    rw [hr] at hput
    rw [hput]
  · dsimp only
    rw [hsame, ite_self]

/-! ### A station out of RUN -/

/-- What a mode other than RUN taken by a station comes to, its slots apart. -/
structure ModeOut (st : Station) (m : Mode) (a b : State) : Prop where
  within : Within st.train a b
  mode : (b.station st).mode = m
  standing : (b.station st).standing = (a.station st).standing
  judged : (a.station st).mode ≠ m → (b.station st).lastAccepting = false
  partner : b.station (partnerOf st) = a.station (partnerOf st)
  gap : b.gap st.train = a.gap st.train
  holds : ∀ c, c ≠ .mode → c ≠ .gapMove → c ≠ .relief →
    (b.governor st.train).holds.has c = (a.governor st.train).holds.has c
  base : (b.governor st.train).base = (a.governor st.train).base
  held : (a.station st).mode ≠ m → (b.governor st.train).holds.mode = true
  reasons : ∀ r, r ≠ .mode → (b.positioner st.train).reasons.has r = (a.positioner st.train).reasons.has r
  barred : st.role = .crusher → (a.station st).mode ≠ m → (b.positioner st.train).reasons.mode = true
  settled : (a.positioner st.train).state = .suspended ∨ (a.positioner st.train).state = .fault →
    (b.positioner st.train).state = (a.positioner st.train).state ∧ (b.positioner st.train).drive = (a.positioner st.train).drive ∧
      b.supervisor st.train = a.supervisor st.train ∧ b.conditions = a.conditions
  episode : b.supervisor st.train = a.supervisor st.train ∧ b.conditions = a.conditions ∨
    (a.supervisor st.train).relief = .restoring ∧
      b.supervisor st.train = { a.supervisor st.train with relief := .normal } ∧
      b.conditions = a.conditions.causeEnded .relief (.crusher st.train)

theorem ModeOut.withBoard (h : ModeOut st m a b) (x : Board) : ModeOut st m a (b.withBoard x) :=
  ⟨h.within.trans (.board b st.train x), h.mode, h.standing, h.judged, h.partner, h.gap, h.holds, h.base, h.held, h.reasons,
    h.barred, h.settled, h.episode⟩

theorem ModeOut.refl (a : State) (st : Station) : ModeOut st (a.station st).mode a a :=
  ⟨.refl a _, rfl, rfl, fun h => absurd rfl h, rfl, rfl, fun _ _ _ _ => rfl, rfl, fun h => absurd rfl h, fun _ _ => rfl,
    fun _ h => absurd rfl h, fun _ => ⟨rfl, rfl, rfl, rfl⟩, .inl ⟨rfl, rfl⟩⟩

theorem Governor.hold_mode_holds (g : Governor) {c : Hold} (hc : c ≠ .mode) : (g.hold .mode).holds.has c = g.holds.has c := by
  rw [(g.hold_keeps .mode).1, decide_eq_false hc, Bool.false_or]

theorem State.modeTaken_out (s : State) (st : Station) (hm : m ≠ .run) : ModeOut st m s (s.modeTaken st m) := by
  have hwithin := s.modeTaken_within (st := st) rfl m
  have hbarred := (s.modeTaken_taken st m).barred hm
  have htaken := (s.modeTaken_taken st m).taken
  obtain ⟨u, role⟩ := st
  cases role with
  | feeder =>
    have hx := s.modeTaken_feederOut u hm
    change s.modeTaken ⟨u, .feeder⟩ m = _ at hx
    generalize s.modeTaken ⟨u, .feeder⟩ m = x at *
    have hgovernor : x.governor u = (s.governor u).hold .mode := by
      rw [hx, State.modStation_governor_read]
      exact State.governor_modGovernor ..
    refine
      { within := hwithin
        mode := htaken
        standing := hbarred.2.1
        judged := fun _ => ?_
        partner := by rw [hx]; rfl
        gap := by rw [hx]; rfl
        holds := fun c hc _ _ => by rw [hgovernor, Governor.hold_mode_holds _ hc]
        base := by rw [hgovernor, ((s.governor u).hold_keeps .mode).2.1]
        held := fun _ => by rw [hgovernor]; exact Governor.hold_has _ .mode
        reasons := fun _ _ => by rw [hx]; rfl
        barred := nofun
        settled := fun _ => by rw [hx]; exact ⟨rfl, rfl, rfl, rfl⟩
        episode := .inl (by rw [hx]; exact ⟨rfl, rfl⟩) }
    rw [hx]
    exact congrArg StationRecord.lastAccepting (State.station_modStation ..)
  | crusher =>
    have hx := s.modeTaken_crusherOut u hm
    change s.modeTaken ⟨u, .crusher⟩ m = _ at hx
    have hmoves := (Moves.refl (s.modStation (crusherOf u) fun r => { r with mode := m })).endRunningJog (t := u)
    have hsame : (s.positioner u).state = .suspended ∨ (s.positioner u).state = .fault →
        (s.modStation (crusherOf u) fun r => { r with mode := m }).endRunningJog u =
          s.modStation (crusherOf u) fun r => { r with mode := m } := fun h => if_neg (by
      rw [State.modStation_positioner_read]
      rcases h with h | h <;> simp [h])
    generalize s.modeTaken ⟨u, .crusher⟩ m = x at *
    generalize (s.modStation (crusherOf u) fun r => { r with mode := m }).endRunningJog u = y at *
    have hgovernor : x.governor u = (y.governor u).hold .mode := by
      rw [hx, State.modStation_governor_read]
      exact State.governor_modGovernor ..
    have hpositioner : x.positioner u = (y.positioner u).barred s.now .mode := by
      rw [hx, State.modStation_positioner_read]
      exact State.positioner_modPositioner y u (Positioner.barred s.now .mode)
    have hsupervisor : x.supervisor u = y.supervisor u := by rw [hx]; rfl
    have hconditions : x.conditions = y.conditions := by rw [hx]; rfl
    have hyreasons : (y.positioner u).reasons = (s.positioner u).reasons := hmoves.reasons
    refine
      { within := hwithin
        mode := htaken
        standing := hbarred.2.1
        judged := fun _ => ?_
        partner := ?_
        gap := ?_
        holds := fun c hc hgap hrelief => ?_
        base := ?_
        held := fun _ => by rw [hgovernor]; exact Governor.hold_has _ .mode
        reasons := fun r hr => ?_
        barred := fun _ _ => ?_
        settled := fun h => ?_
        episode := ?_ }
    · rw [hx]
      exact congrArg StationRecord.lastAccepting (State.station_modStation ..)
    · rw [hx, hmoves.rest]
      rfl
    · rw [hx, hmoves.rest]
      rfl
    · rw [hgovernor, Governor.hold_mode_holds _ hc]
      exact hmoves.holds c hgap hrelief
    · rw [hgovernor, ((y.governor u).hold_keeps .mode).2.1]
      exact hmoves.base
    · rw [hpositioner, Positioner.barred_reasons, Reasons.has_put, if_neg hr, hyreasons]
    · rw [hpositioner, Positioner.barred_reasons]
      exact (Reasons.has_put _ .mode .mode true).trans (if_pos rfl)
    · have hy := hsame h
      have hq : y.positioner u = s.positioner u := by rw [hy, State.modStation_positioner_read]
      rw [hpositioner, hq, Positioner.barred_settled h, hsupervisor, hconditions, hy]
      exact ⟨rfl, rfl, rfl, rfl⟩
    · rw [hsupervisor, hconditions]
      have hrec := hmoves.supervisor
      rcases hmoves.episode with ⟨hr, -, hc⟩ | ⟨hr, hn, -, hc⟩
      · exact .inl ⟨hrec.trans (by rw [hr]; rfl), hc⟩
      · exact .inr ⟨hr, hrec.trans (by rw [hn]; rfl), hc⟩

theorem State.enterMode_out (s : State) (st : Station) (hm : m ≠ .run) : ModeOut st m s (s.enterMode st m) := by
  by_cases hsame : (s.station st).mode = m
  · subst hsame
    rw [State.enterMode_same rfl, State.removeSlots_eq]
    split
    · exact (ModeOut.refl s st).withBoard _
    · exact .refl s st
  · rw [State.enterMode_changed hsame, State.removeSlots_eq]
    split
    · exact (s.modeTaken_out st hm).withBoard _
    · exact s.modeTaken_out st hm

/-- OUT_OF_SERVICE frees the slots of the station (R12). -/
theorem State.enterMode_slots (s : State) (st : Station) :
    (s.enterMode st .outOfService).board.slots = s.board.slots.map fun o => if (o.any fun r => r.station = st) then none else o := by
  by_cases hsame : (s.station st).mode = .outOfService
  · rw [State.enterMode_same hsame, if_pos rfl, State.removeSlots_eq]
    rfl
  · rw [State.enterMode_changed hsame, if_pos rfl, State.removeSlots_eq,
      ((s.modeTaken_taken st .outOfService).barred (by decide)).1]
    rfl

end Sys2Proof.Machine
end

section
/-! PROOFS. The Supervisor of a train made absent (R145), and the conditions whose causes end with it. -/

namespace Sys2Proof.Machine

variable {a b c s t : State} {u : Train} {l m n : ConditionList} {code : Code} {sub : Subject} {e : Entry}

/-! ### Ends of causes (R152) -/

/-- A List that follows another by ends of causes alone: its entries were there, and no cause has become active. -/
def ConditionList.fades (l m : ConditionList) : Prop :=
  ∀ e ∈ m.entries, ∃ y ∈ l.entries, y.name = e.name ∧ (y.active = false → e.active = false)

theorem ConditionList.fades.refl (l : ConditionList) : l.fades l := fun e he => ⟨e, he, rfl, id⟩

theorem ConditionList.fades.trans (h : l.fades m) (k : m.fades n) : l.fades n := fun e he => by
  obtain ⟨y, hy, hname, hactive⟩ := k e he
  obtain ⟨z, hz, hzname, hzactive⟩ := h y hy
  exact ⟨z, hz, hzname.trans hname, fun hoff => hactive (hzactive hoff)⟩

theorem ConditionList.fades_causeEnded (l : ConditionList) (code : Code) (sub : Subject) : l.fades (l.causeEnded code sub) := by
  intro e he
  cases hlatched : code.latched with
  | false =>
    rw [ConditionList.entries_causeEnded_of_not_latched hlatched] at he
    exact ⟨e, List.mem_of_mem_filter he, rfl, id⟩
  | true =>
    rw [ConditionList.entries_causeEnded_of_latched hlatched] at he
    obtain ⟨y, hy, rfl⟩ := List.mem_map.mp he
    refine ⟨y, List.mem_of_mem_filter hy, ?_, fun hoff => ?_⟩ <;> split
    · rfl
    · rfl
    · rfl
    · exact hoff

theorem ConditionList.causeEnded_unlists (hlatched : code.latched = false) : (l.causeEnded code sub).listed code sub = false := by
  rw [ConditionList.listed_eq_false_iff_name, ConditionList.entries_causeEnded_of_not_latched hlatched]
  intro e he hname
  obtain ⟨-, hkept⟩ := List.mem_filter.mp he
  simp [Entry.named_iff.mpr hname] at hkept

theorem ConditionList.causeEnded_inactive (hlatched : code.latched = true) :
    ∀ e ∈ (l.causeEnded code sub).entries, e.name = (code, sub) → e.active = false := by
  rw [ConditionList.entries_causeEnded_of_latched hlatched]
  intro e he hname
  obtain ⟨y, -, rfl⟩ := List.mem_map.mp he
  split at hname
  · next hn => rw [if_pos hn]
  · next hn => exact absurd (Entry.named_iff.mpr hname) hn

theorem ConditionList.fades.unlisted (h : l.fades m) (hl : l.listed code sub = false) : m.listed code sub = false := by
  rw [ConditionList.listed_eq_false_iff_name] at hl ⊢
  intro e he hname
  obtain ⟨y, hy, hyname, -⟩ := h e he
  exact hl y hy (hyname.trans hname)

theorem ConditionList.fades.inactive (h : l.fades m) {name : Code × Subject}
    (hl : ∀ e ∈ l.entries, e.name = name → e.active = false) : ∀ e ∈ m.entries, e.name = name → e.active = false := by
  intro e he hname
  obtain ⟨y, hy, hyname, hactive⟩ := h e he
  exact hactive (hl y hy (hyname.trans hname))

/-! ### The relief, the overload and the detector (R145) -/

/-- The record of a Supervisor whose train is made absent, its latches and the cause of its power trip apart. -/
def Supervisor.absent (v : Supervisor) : Supervisor :=
  { v with
    detectorActive := false, clearingTimer := none, relief := .normal, overloadTimer := none, history := [], overload := false }

/-- What becomes of the records of a train whose Supervisor is made absent, before the ends of its trips. -/
structure Eased (u : Train) (a b : State) : Prop where
  rest : b = { a with
    crushers := b.crushers, positioners := b.positioners, governors := b.governors
    supervisors := b.supervisors, conditions := b.conditions }
  station : b.station (crusherOf u) = { a.station (crusherOf u) with lastAccepting := false }
  positioner : b.positioner u = { a.positioner u with reasons := (a.positioner u).reasons.put .relief false }
  supervisor : b.supervisor u = (a.supervisor u).absent
  holds : ∀ c, c ≠ .relief → c ≠ .overload → (b.governor u).holds.has c = (a.governor u).holds.has c
  relief : (b.governor u).holds.relief = false
  overload : (a.supervisor u).overload = true → (b.governor u).holds.overload = false
  fades : a.conditions.fades b.conditions
  noRelief : (a.supervisor u).relief ≠ .normal → b.conditions.listed .relief (.crusher u) = false
  noOverload : (a.supervisor u).overload = true → b.conditions.listed .overload (.crusher u) = false

/-- The Supervisor's record cleared, and its reason and hold RELIEF removed. -/
def State.reliefDropped (s : State) (u : Train) : State :=
  ((s.modSupervisor u fun v => { v with
    detectorActive := false, clearingTimer := none, relief := .normal, overloadTimer := none, history := [] }).modPositioner u
      fun p => { p with reasons := p.reasons.put .relief false }).modGovernor u fun g => g.release .relief

theorem State.supervisionEased_eq (hp : s.present u = false) (hreason : (s.positioner u).reasons.position = true) :
    s.supervisionEased u =
      let ended := if (s.supervisor u).relief ≠ .normal then (s.reliefDropped u).causeEnd .relief (.crusher u)
        else s.reliefDropped u
      let judged := ended.modStation (crusherOf u) fun r => { r with lastAccepting := false }
      if (s.supervisor u).overload then judged.endOverload u else judged := by
  have hheld : ((s.positioner u).reasons.put .relief false).isEmpty = false := by
    rw [← Bool.not_eq_true, Reasons.isEmpty_iff]
    intro hno
    have hposition := hno .position
    rw [Reasons.has_put, if_neg (by decide)] at hposition
    exact Bool.false_ne_true (hposition.symm.trans hreason)
  have hremoved := State.removeReason_eq (s := s.modSupervisor u fun v => { v with
    detectorActive := false, clearingTimer := none, relief := .normal, overloadTimer := none, history := [] }) (u := u)
    (r := .relief) (.inr hheld)
  have habsent (x : State) (hx : x.line = s.line) :
      x.evaluate (crusherOf u) = x.modStation (crusherOf u) fun r => { r with lastAccepting := false } := by
    have hno : x.accepting (crusherOf u) = false := by
      have : x.present u = false := by
        rw [State.present, hx]
        exact hp
      simp [State.accepting, crusherOf, this]
    rw [State.evaluate_eq (.inl hno), hno]
  rw [State.supervisionEased, hremoved]
  dsimp only
  rw [habsent _ (by split <;> rfl)]
  rfl

theorem State.endOverload_eq (s : State) (u : Train) :
    s.endOverload u = ((s.modSupervisor u fun v => { v with overload := false }).modGovernor u fun g =>
      g.release .overload).modConditions fun l => l.causeEnded .overload (.crusher u) := rfl

theorem State.supervisionEased_eased (hp : s.present u = false) (hreason : (s.positioner u).reasons.position = true) :
    Eased u s (s.supervisionEased u) := by
  rw [State.supervisionEased_eq hp hreason]
  dsimp only
  have hsupervisor : (s.reliefDropped u).supervisor u = { s.supervisor u with
      detectorActive := false, clearingTimer := none, relief := .normal, overloadTimer := none, history := [] } :=
    Quad.get_set_self ..
  have hgovernor : (s.reliefDropped u).governor u = (s.governor u).release .relief := State.governor_modGovernor ..
  have hpositioner : (s.reliefDropped u).positioner u =
      { s.positioner u with reasons := (s.positioner u).reasons.put .relief false } := Quad.get_set_self ..
  have hrest : s.reliefDropped u = { s with
      positioners := (s.reliefDropped u).positioners, governors := (s.reliefDropped u).governors
      supervisors := (s.reliefDropped u).supervisors } := rfl
  generalize s.reliefDropped u = d at *
  have hreleased : (d.governor u).holds.relief = false := by
    rw [hgovernor]
    exact Governor.release_has _ .relief
  have hkept (c : Hold) (hc : c ≠ .relief) : (d.governor u).holds.has c = (s.governor u).holds.has c := by
    rw [hgovernor, ((s.governor u).release_keeps .relief).1]
    simp [hc]
  have hended : ∃ w : State, (if (s.supervisor u).relief ≠ .normal then d.causeEnd .relief (.crusher u) else d) = w ∧
      w = { d with conditions := w.conditions } ∧ s.conditions.fades w.conditions ∧
        ((s.supervisor u).relief ≠ .normal → w.conditions.listed .relief (.crusher u) = false) := by
    refine ⟨_, rfl, ?_⟩
    have hconditions : d.conditions = s.conditions := by rw [hrest]
    split
    · refine ⟨rfl, ?_, fun _ => ConditionList.causeEnded_unlists rfl⟩
      exact hconditions ▸ ConditionList.fades_causeEnded _ _ _
    · next hno => exact ⟨rfl, hconditions ▸ .refl _, fun h => absurd h hno⟩
  obtain ⟨w, hw, hwrest, hfades, hunlisted⟩ := hended
  rw [hw]
  have hstation : (w.modStation (crusherOf u) fun r => { r with lastAccepting := false }).station (crusherOf u) =
      { s.station (crusherOf u) with lastAccepting := false } := by
    rw [State.station_modStation, hwrest, hrest]
    rfl
  have hwsupervisor : w.supervisor u = d.supervisor u := by rw [hwrest]; rfl
  have hwgovernor : w.governor u = d.governor u := by rw [hwrest]; rfl
  have hwpositioner : w.positioner u = d.positioner u := by rw [hwrest]; rfl
  cases ho : (s.supervisor u).overload with
  | false =>
    rw [if_neg Bool.false_ne_true]
    refine
      { rest := by rw [hwrest, hrest]; rfl
        station := hstation
        positioner := by rw [State.modStation_positioner_read, hwpositioner, hpositioner]
        supervisor := by rw [State.modStation_supervisor_read, hwsupervisor, hsupervisor, Supervisor.absent, ← ho]
        holds := fun c hc _ => by rw [State.modStation_governor_read, hwgovernor, hkept c hc]
        relief := by rw [State.modStation_governor_read, hwgovernor, hreleased]
        overload := fun h => by rw [ho] at h; cases h
        fades := by rw [State.modStation_conditions]; exact hfades
        noRelief := fun h => by rw [State.modStation_conditions]; exact hunlisted h
        noOverload := fun h => by rw [ho] at h; cases h }
  | true =>
    rw [if_pos rfl, State.endOverload_eq]
    have hfinal : (((w.modStation (crusherOf u) fun r => { r with lastAccepting := false }).modSupervisor u fun v =>
        { v with overload := false }).modGovernor u fun g => g.release .overload).governor u = (d.governor u).release .overload := by
      rw [State.governor_modGovernor, State.modSupervisor_governor_read, State.modStation_governor_read, hwgovernor]
    refine
      { rest := by rw [hwrest, hrest]; rfl
        station := hstation
        positioner := ?_
        supervisor := ?_
        holds := fun c hc hco => ?_
        relief := ?_
        overload := fun _ => ?_
        fades := ?_
        noRelief := fun h => ?_
        noOverload := fun _ => ConditionList.causeEnded_unlists rfl }
    · show (w.modStation (crusherOf u) fun r => { r with lastAccepting := false }).positioner u = _
      rw [State.modStation_positioner_read, hwpositioner, hpositioner]
    · show ((w.modStation (crusherOf u) fun r => { r with lastAccepting := false }).modSupervisor u fun v =>
        { v with overload := false }).supervisor u = _
      rw [State.supervisor_modSupervisor, State.modStation_supervisor_read, hwsupervisor, hsupervisor]
      rfl
    · refine (congrArg (fun g : Governor => g.holds.has c) hfinal).trans ?_
      rw [((d.governor u).release_keeps .overload).1, hkept c hc]
      simp [hco]
    · refine (congrArg (fun g : Governor => g.holds.relief) hfinal).trans ?_
      have hk := ((d.governor u).release_keeps .overload).1 .relief
      exact hk.trans (by simpa [Holds.has] using hreleased)
    · refine (congrArg (fun g : Governor => g.holds.overload) hfinal).trans ?_
      exact Governor.release_has _ .overload
    · refine ConditionList.fades.trans (m := w.conditions) hfades ?_
      have hc : (w.modStation (crusherOf u) fun r => { r with lastAccepting := false }).conditions = w.conditions :=
        State.modStation_conditions ..
      exact hc ▸ ConditionList.fades_causeEnded _ _ _
    · have hc : (w.modStation (crusherOf u) fun r => { r with lastAccepting := false }).conditions = w.conditions :=
        State.modStation_conditions ..
      exact (ConditionList.fades_causeEnded _ _ _).unlisted (hc ▸ hunlisted h)

end Sys2Proof.Machine
end

section
/-! PROOFS. The trip latches of a train made absent (R143, R145). -/

namespace Sys2Proof.Machine

variable {a b c s t : State} {u : Train} {w : TripLatch} {had : Bool}

/-- A latch whose cause ends, where it was active (R143). -/
def Latch.ended (k : Latch) (had : Bool) : Latch := if k = .setAcknowledged && had then .clear else k

theorem Latch.ended_true (k : Latch) : k.ended true = k.causeEnded := by
  rw [Latch.ended, Bool.and_true, Latch.causeEnded]
  simp

theorem Latch.ended_false (k : Latch) : k.ended false = k := by
  rw [Latch.ended, Bool.and_false]
  rfl

/-- The end of a latch's cause, where it was active. -/
def State.endIf (s : State) (u : Train) (w : TripLatch) (had : Bool) : State := if had then s.endLatchCause u w else s

/-- What becomes of the records of a train at the end of a latch's cause, where it was active. -/
structure EndsIf (had : Bool) (u : Train) (w : TripLatch) (a b : State) : Prop where
  rest : b = { a with governors := b.governors, supervisors := b.supervisors, conditions := b.conditions }
  supervisor : b.supervisor u = (a.supervisor u).putLatch w (((a.supervisor u).latch w).ended had)
  holds : ∀ c, c ≠ .trip → (b.governor u).holds.has c = (a.governor u).holds.has c
  kept : ((a.supervisor u).latch w).ended had = (a.supervisor u).latch w →
    (b.governor u).holds.trip = (a.governor u).holds.trip
  changed : ((a.supervisor u).latch w).ended had ≠ (a.supervisor u).latch w →
    (b.governor u).holds.trip = !(b.supervisor u).untripped
  fades : a.conditions.fades b.conditions
  inactive : had = true → (a.supervisor u).latch w ≠ .clear →
    ∀ e ∈ b.conditions.entries, e.name = (w.code, .crusher u) → e.active = false

theorem State.endIf_ends (s : State) (u : Train) (w : TripLatch) (had : Bool) : EndsIf had u w s (s.endIf u w had) := by
  cases had with
  | false =>
    refine ⟨rfl, ?_, fun _ _ => rfl, fun _ => rfl, fun h => absurd (Latch.ended_false _) h, .refl _, nofun⟩
    rw [Latch.ended_false, Supervisor.putLatch_latch]
    rfl
  | true =>
    obtain ⟨hrest, -, hsupervisor, hconditions, hholds, htrip⟩ := s.endLatchCause_ends u w
    rw [State.endIf, if_pos rfl]
    have hunchanged : ((s.supervisor u).latch w).ended true = (s.supervisor u).latch w ↔
        (s.supervisor u).latch w ≠ .setAcknowledged := by
      rw [Latch.ended_true, Latch.causeEnded]
      split
      · next h => simp [h]
      · next h => simp [h]
    refine ⟨hrest, ?_, hholds, fun h => ?_, fun h => ?_, ?_, fun _ hset => ?_⟩
    · rw [Latch.ended_true]
      exact hsupervisor
    · rw [htrip, if_neg (hunchanged.mp h)]
    · rw [htrip, if_pos (not_not.mp (mt hunchanged.mpr h))]
    · rw [hconditions]
      split
      · exact .refl _
      · exact ConditionList.fades_causeEnded _ _ _
    · rw [hconditions, if_neg hset]
      exact ConditionList.causeEnded_inactive w.code_latched

/-! ### The whole Supervisor -/

/-- What becomes of the records of a train whose Supervisor is made absent. -/
structure SupervisedAbsent (u : Train) (a b : State) : Prop where
  rest : b = { a with
    crushers := b.crushers, positioners := b.positioners, governors := b.governors
    supervisors := b.supervisors, conditions := b.conditions }
  station : b.station (crusherOf u) = { a.station (crusherOf u) with lastAccepting := false }
  positioner : b.positioner u = { a.positioner u with reasons := (a.positioner u).reasons.put .relief false }
  supervisor : b.supervisor u = { (a.supervisor u).absent with
    tripCause := false
    reliefLatch := (a.supervisor u).reliefLatch.ended ((a.supervisor u).causeActive .repeatedRelief)
    powerLatch := (a.supervisor u).powerLatch.ended (a.supervisor u).tripCause }
  holds : ∀ c, c ≠ .relief → c ≠ .overload → c ≠ .trip → (b.governor u).holds.has c = (a.governor u).holds.has c
  relief : (b.governor u).holds.relief = false
  overload : (a.supervisor u).overload = true → (b.governor u).holds.overload = false
  trip : (b.governor u).holds.trip =
    if (b.supervisor u).reliefLatch = (a.supervisor u).reliefLatch ∧ (b.supervisor u).powerLatch = (a.supervisor u).powerLatch
    then (a.governor u).holds.trip else !(b.supervisor u).untripped
  fades : a.conditions.fades b.conditions
  noRelief : (a.supervisor u).relief ≠ .normal → b.conditions.listed .relief (.crusher u) = false
  noOverload : (a.supervisor u).overload = true → b.conditions.listed .overload (.crusher u) = false
  inactive : ∀ w, (a.supervisor u).latch w ≠ .clear → (a.supervisor u).causeActive w = true →
    ∀ e ∈ b.conditions.entries, e.name = (w.code, .crusher u) → e.active = false

theorem State.superviseAbsent_ends (s : State) (u : Train) :
    s.superviseAbsent u = (((s.supervisionEased u).modSupervisor u fun v =>
      { v with tripCause := if (s.supervisor u).tripCause then false else v.tripCause }).endIf u .powerTrip
        (s.supervisor u).tripCause).endIf u .repeatedRelief ((s.supervisor u).causeActive .repeatedRelief) := by
  rw [State.superviseAbsent_eq]
  cases htrip : (s.supervisor u).tripCause with
  | true => rfl
  | false =>
    have hsame : ((s.supervisionEased u).modSupervisor u fun v =>
        { v with tripCause := if false = true then false else v.tripCause }) = s.supervisionEased u :=
      congrArg (fun q => { s.supervisionEased u with supervisors := q }) ((s.supervisionEased u).supervisors.set_get u)
    rw [hsame]
    rfl

theorem State.superviseAbsent_absent (hp : s.present u = false) (hreason : (s.positioner u).reasons.position = true) :
    SupervisedAbsent u s (s.superviseAbsent u) := by
  have heased := State.supervisionEased_eased hp hreason
  rw [State.superviseAbsent_ends]
  have hpower := ((s.supervisionEased u).modSupervisor u fun v =>
    { v with tripCause := if (s.supervisor u).tripCause then false else v.tripCause }).endIf_ends u .powerTrip
      (s.supervisor u).tripCause
  have hxsup := (s.supervisionEased u).supervisor_modSupervisor u fun v =>
    { v with tripCause := if (s.supervisor u).tripCause then false else v.tripCause }
  have hxrest : ((s.supervisionEased u).modSupervisor u fun v =>
    { v with tripCause := if (s.supervisor u).tripCause then false else v.tripCause }) =
      { s.supervisionEased u with supervisors := ((s.supervisionEased u).modSupervisor u fun v =>
        { v with tripCause := if (s.supervisor u).tripCause then false else v.tripCause }).supervisors } := rfl
  generalize s.supervisionEased u = e at *
  generalize (e.modSupervisor u fun v =>
    { v with tripCause := if (s.supervisor u).tripCause then false else v.tripCause }) = x at *
  have hrelief := (x.endIf u .powerTrip (s.supervisor u).tripCause).endIf_ends u .repeatedRelief
    ((s.supervisor u).causeActive .repeatedRelief)
  generalize x.endIf u .powerTrip (s.supervisor u).tripCause = y at *
  generalize y.endIf u .repeatedRelief ((s.supervisor u).causeActive .repeatedRelief) = b at *
  have hx : x.supervisor u = { (s.supervisor u).absent with tripCause := false } := by
    rw [hxsup, heased.supervisor]
    cases htrip : (s.supervisor u).tripCause <;> simp [Supervisor.absent, htrip]
  have hy : y.supervisor u = { (s.supervisor u).absent with
      tripCause := false, powerLatch := (s.supervisor u).powerLatch.ended (s.supervisor u).tripCause } := by
    rw [hpower.supervisor, hx]
    rfl
  have hb : b.supervisor u = { (s.supervisor u).absent with
      tripCause := false
      reliefLatch := (s.supervisor u).reliefLatch.ended ((s.supervisor u).causeActive .repeatedRelief)
      powerLatch := (s.supervisor u).powerLatch.ended (s.supervisor u).tripCause } := by
    rw [hrelief.supervisor, hy]
    rfl
  have hxgovernor : x.governor u = e.governor u := by rw [hxrest]; rfl
  have hxconditions : x.conditions = e.conditions := by rw [hxrest]
  have hfades : e.conditions.fades b.conditions := hxconditions ▸ hpower.fades.trans hrelief.fades
  have hholds (c : Hold) (hc : c ≠ .trip) : (b.governor u).holds.has c = (e.governor u).holds.has c :=
    (hrelief.holds c hc).trans ((hpower.holds c hc).trans (by rw [hxgovernor]))
  refine
    { rest := by rw [hrelief.rest, hpower.rest, hxrest, heased.rest]
      station := ?_
      positioner := ?_
      supervisor := hb
      holds := fun c h1 h2 h3 => (hholds c h3).trans (heased.holds c h1 h2)
      relief := (hholds .relief (by decide)).trans heased.relief
      overload := fun h => (hholds .overload (by decide)).trans (heased.overload h)
      trip := ?_
      fades := heased.fades.trans hfades
      noRelief := fun h => hfades.unlisted (heased.noRelief h)
      noOverload := fun h => hfades.unlisted (heased.noOverload h)
      inactive := fun w hset hcause => ?_ }
  · rw [← heased.station, hrelief.rest, hpower.rest, hxrest]
    rfl
  · rw [← heased.positioner, hrelief.rest, hpower.rest, hxrest]
    rfl
  · have hs : (e.governor u).holds.trip = (s.governor u).holds.trip := heased.holds .trip (by decide) (by decide)
    have hylatch : (y.supervisor u).latch .repeatedRelief = (s.supervisor u).reliefLatch := by rw [hy]; rfl
    have hxlatch : (x.supervisor u).latch .powerTrip = (s.supervisor u).powerLatch := by rw [hx]; rfl
    have hkeptr := hrelief.kept
    have hchangedr := hrelief.changed
    have hkeptp := hpower.kept
    have hchangedp := hpower.changed
    rw [hylatch] at hkeptr hchangedr
    rw [hxlatch] at hkeptp hchangedp
    rw [hxgovernor, hs] at hkeptp
    have hbr : (b.supervisor u).reliefLatch =
        (s.supervisor u).reliefLatch.ended ((s.supervisor u).causeActive .repeatedRelief) := by rw [hb]
    have hbp : (b.supervisor u).powerLatch = (s.supervisor u).powerLatch.ended (s.supervisor u).tripCause := by rw [hb]
    by_cases hr : (b.supervisor u).reliefLatch = (s.supervisor u).reliefLatch
    · have hsame := hkeptr (hbr.symm.trans hr)
      by_cases hp : (b.supervisor u).powerLatch = (s.supervisor u).powerLatch
      · rw [if_pos ⟨hr, hp⟩, hsame, hkeptp (hbp.symm.trans hp)]
      · rw [if_neg fun h => hp h.2, hsame, hchangedp fun h => hp (hbp.trans h)]
        have hlatches : (y.supervisor u).untripped = (b.supervisor u).untripped := by
          rw [Supervisor.untripped, Supervisor.untripped, hr, hbp, hy]
          rfl
        rw [hlatches]
    · rw [if_neg fun h => hr h.1, hchangedr fun h => hr (hbr.trans h)]
  · cases w with
    | repeatedRelief => exact hrelief.inactive hcause (by rw [hy]; exact hset)
    | powerTrip => exact hrelief.fades.inactive (hpower.inactive hcause (by rw [hx]; exact hset))

end Sys2Proof.Machine
end

section
/-! PROOFS. A train made absent (R23, R145). -/

namespace Sys2Proof.Machine

variable {a b c s t : State} {u : Train} {m : Mode}

/-! ### The level hold and the unset zero (R126, R132) -/

/-- The last steps of a train made absent: LEVEL removed, both predicates evaluated, and ZERO_UNSET ended. -/
def State.absentEnded (s : State) (u : Train) : State :=
  let released := if (s.governor u).holds.level then s.removeLevel u else s
  let judged := (released.evaluate (feederOf u)).evaluate (crusherOf u)
  if (judged.zero u).valid then judged else judged.causeEnd .zeroUnset (.crusher u)

structure AbsentEnded (u : Train) (a b : State) : Prop where
  rest : b = { a with
    feeders := b.feeders, crushers := b.crushers, governors := b.governors, conditions := b.conditions }
  stations : ∀ st, (b.station st).mode = (a.station st).mode ∧ (b.station st).standing = (a.station st).standing
  holds : ∀ c, c ≠ .level → (b.governor u).holds.has c = (a.governor u).holds.has c
  level : (b.governor u).holds.level = false
  fades : a.conditions.fades b.conditions
  noHigh : u = .t0 → (a.governor u).holds.level = true → b.conditions.listed .surgeHigh .line = false
  noLow : u ≠ .t0 → (a.governor u).holds.level = true → (∀ v, v ≠ .t0 → v ≠ u → (a.governor v).holds.level = false) →
    b.conditions.listed .surgeLow .line = false
  noUnset : (a.zero u).valid = false → b.conditions.listed .zeroUnset (.crusher u) = false

/-- LEVEL removed where it is held. -/
structure LevelDropped (u : Train) (a b : State) : Prop where
  rest : b = { a with governors := b.governors, conditions := b.conditions }
  holds : ∀ c, c ≠ .level → (b.governor u).holds.has c = (a.governor u).holds.has c
  level : (b.governor u).holds.level = false
  fades : a.conditions.fades b.conditions
  noHigh : u = .t0 → (a.governor u).holds.level = true → b.conditions.listed .surgeHigh .line = false
  noLow : u ≠ .t0 → (a.governor u).holds.level = true → (∀ v, v ≠ .t0 → v ≠ u → (a.governor v).holds.level = false) →
    b.conditions.listed .surgeLow .line = false

theorem State.removeLevel_dropped (s : State) (u : Train) : LevelDropped u s (s.removeLevel u) := by
  have hholds (c : Hold) (hc : c ≠ .level) : ((s.removeHold u .level).governor u).holds.has c = (s.governor u).holds.has c := by
    rw [State.removeHold, State.governor_modGovernor, ((s.governor u).release_keeps .level).1]
    simp [hc]
  have hlevel : ((s.removeHold u .level).governor u).holds.level = false := by
    rw [State.removeHold, State.governor_modGovernor, Governor.release_level]
  have hsecond (hothers : ∀ v, v ≠ .t0 → v ≠ u → (s.governor v).holds.level = false) :
      (s.removeHold u .level).secondaryLevelHeld = false := by
    rw [← Bool.not_eq_true, State.secondaryLevelHeld_iff]
    rintro ⟨v, hv, hheld⟩
    by_cases hvu : v = u
    · rw [hvu, hlevel] at hheld
      cases hheld
    · rw [State.removeHold, State.governor_modGovernor_of_ne _ hvu, hothers v hv hvu] at hheld
      cases hheld
  unfold State.removeLevel
  dsimp only
  split
  · next hu =>
    exact ⟨rfl, hholds, hlevel, ConditionList.fades_causeEnded _ _ _, fun _ _ => ConditionList.causeEnded_unlists rfl,
      fun h => absurd hu h⟩
  · next hu =>
    split
    · next hheld =>
      exact ⟨rfl, hholds, hlevel, .refl _, fun h => absurd h hu, fun _ _ hothers => by rw [hsecond hothers] at hheld; cases hheld⟩
    · exact ⟨rfl, hholds, hlevel, ConditionList.fades_causeEnded _ _ _, fun h => absurd h hu,
        fun _ _ _ => ConditionList.causeEnded_unlists rfl⟩

theorem State.evaluate_absent {st : Station} (hp : s.present st.train = false) :
    s.evaluate st = s.modStation st fun r => { r with lastAccepting := false } := by
  have hno : s.accepting st = false := by simp [State.accepting, hp]
  rw [State.evaluate_eq (.inl hno), hno]

theorem State.absentEnded_ends (hp : s.present u = false) : AbsentEnded u s (s.absentEnded u) := by
  have hdropped : LevelDropped u s (if (s.governor u).holds.level then s.removeLevel u else s) := by
    split
    · exact s.removeLevel_dropped u
    · next hno =>
      rw [Bool.not_eq_true] at hno
      have hnever : (s.governor u).holds.level ≠ true := by simp [hno]
      exact ⟨rfl, fun _ _ => rfl, hno, .refl _, fun _ h => absurd h hnever, fun _ h => absurd h hnever⟩
  rw [State.absentEnded]
  generalize (if (s.governor u).holds.level then s.removeLevel u else s) = d at *
  have hpd : d.present u = false := by rw [hdropped.rest]; exact hp
  rw [State.evaluate_absent (st := feederOf u) hpd, State.evaluate_absent (st := crusherOf u)
    (s := d.modStation (feederOf u) fun r => { r with lastAccepting := false }) hpd]
  have hstations (st : Station) : (((d.modStation (feederOf u) fun r => { r with lastAccepting := false }).modStation
      (crusherOf u) fun r => { r with lastAccepting := false }).station st).mode = (s.station st).mode ∧
        (((d.modStation (feederOf u) fun r => { r with lastAccepting := false }).modStation
          (crusherOf u) fun r => { r with lastAccepting := false }).station st).standing = (s.station st).standing := by
    have hd : d.station st = s.station st := by rw [hdropped.rest]; rfl
    have hone (x : State) (y : Station) : ((x.modStation y fun r => { r with lastAccepting := false }).station st).mode =
        (x.station st).mode ∧ ((x.modStation y fun r => { r with lastAccepting := false }).station st).standing =
          (x.station st).standing := by
      by_cases hy : st = y
      · subst hy
        rw [State.station_modStation]
        exact ⟨rfl, rfl⟩
      · rw [State.station_modStation_of_ne _ hy]
        exact ⟨rfl, rfl⟩
    obtain ⟨h1, h2⟩ := hone d (feederOf u)
    obtain ⟨h3, h4⟩ := hone (d.modStation (feederOf u) fun r => { r with lastAccepting := false }) (crusherOf u)
    rw [← hd]
    exact ⟨h3.trans h1, h4.trans h2⟩
  have hjudged : ((d.modStation (feederOf u) fun r => { r with lastAccepting := false }).modStation
      (crusherOf u) fun r => { r with lastAccepting := false }) = { d with
        feeders := ((d.modStation (feederOf u) fun r => { r with lastAccepting := false }).modStation
          (crusherOf u) fun r => { r with lastAccepting := false }).feeders
        crushers := ((d.modStation (feederOf u) fun r => { r with lastAccepting := false }).modStation
          (crusherOf u) fun r => { r with lastAccepting := false }).crushers } := rfl
  generalize ((d.modStation (feederOf u) fun r => { r with lastAccepting := false }).modStation
    (crusherOf u) fun r => { r with lastAccepting := false }) = j at *
  have hgovernor : j.governor u = d.governor u := by rw [hjudged]; rfl
  have hconditions : j.conditions = d.conditions := by rw [hjudged]
  have hzero : j.zero u = s.zero u := by rw [hjudged, hdropped.rest]; rfl
  have hjrest : j = { s with
      feeders := j.feeders, crushers := j.crushers, governors := j.governors, conditions := j.conditions } := by
    rw [hjudged, hdropped.rest]
  have hbase : AbsentEnded u s j ∨ (j.zero u).valid = false := by
    cases hv : (j.zero u).valid with
    | false => exact .inr rfl
    | true =>
      refine .inl ⟨hjrest, hstations, fun c hc => by rw [hgovernor, hdropped.holds c hc], by rw [hgovernor, hdropped.level],
        hconditions ▸ hdropped.fades, fun h1 h2 => by rw [hconditions]; exact hdropped.noHigh h1 h2,
        fun h1 h2 h3 => by rw [hconditions]; exact hdropped.noLow h1 h2 h3, fun h => ?_⟩
      rw [← hzero, hv] at h
      cases h
  split
  · next hv => exact hbase.resolve_right (by simp [hv])
  · have hended : j.conditions.fades (j.causeEnd .zeroUnset (.crusher u)).conditions := ConditionList.fades_causeEnded _ _ _
    refine ⟨by rw [hjrest]; rfl, hstations, fun c hc => ?_, ?_, (hconditions ▸ hdropped.fades).trans hended, fun h1 h2 => ?_,
      fun h1 h2 h3 => ?_, fun _ => ConditionList.causeEnded_unlists rfl⟩
    · show (j.governor u).holds.has c = _
      rw [hgovernor, hdropped.holds c hc]
    · show (j.governor u).holds.level = false
      rw [hgovernor, hdropped.level]
    · exact hended.unlisted (by rw [hconditions]; exact hdropped.noHigh h1 h2)
    · exact hended.unlisted (by rw [hconditions]; exact hdropped.noLow h1 h2 h3)

/-! ### The whole train -/

/-- A relief episode that a jog's end may have ended (R139). -/
def EpisodeOut (u : Train) (a b : State) : Prop :=
  a.conditions.fades b.conditions ∧ (b.supervisor u = a.supervisor u ∨
    (a.supervisor u).relief = .restoring ∧ b.supervisor u = { a.supervisor u with relief := .normal } ∧
      b.conditions.listed .relief (.crusher u) = false)

theorem EpisodeOut.trans (h : EpisodeOut u a b) (k : EpisodeOut u b c) : EpisodeOut u a c := by
  obtain ⟨hf, h⟩ := h
  obtain ⟨kf, k⟩ := k
  refine ⟨hf.trans kf, ?_⟩
  rcases h with h | ⟨hr, h, hl⟩
  · rw [h] at k
    exact k
  · rcases k with k | ⟨kr, -⟩
    · exact .inr ⟨hr, k.trans h, kf.unlisted hl⟩
    · rw [h] at kr
      cases kr

theorem ModeOut.episodeOut {st : Station} (h : ModeOut st m a b) : EpisodeOut st.train a b := by
  rcases h.episode with ⟨hs, hc⟩ | ⟨hr, hs, hc⟩
  · exact ⟨hc ▸ .refl _, .inl hs⟩
  · exact ⟨hc ▸ ConditionList.fades_causeEnded _ _ _, .inr ⟨hr, hs, hc ▸ ConditionList.causeEnded_unlists rfl⟩⟩

/-- Both stations of a train out of service, its position lost and its Positioner under POSITION (R23). -/
def State.absentModes (s : State) (u : Train) : State :=
  let modes := (s.enterMode (feederOf u) .outOfService).enterMode (crusherOf u) .outOfService
  let barred := (modes.modGap u fun g =>
    { g with validity := .notValid, recovery := none, gap := none, faultStanding := false }).addReason u .position
  if (modes.gap u).faultStanding then barred.causeEnd .positionFault (.crusher u) else barred

theorem State.makeAbsent_eq (s : State) (u : Train) :
    s.makeAbsent u = ((s.absentModes u).superviseAbsent u).absentEnded u := rfl

structure AbsentModes (u : Train) (a b : State) : Prop where
  within : Within u a b
  stations : ∀ st, st.train = u → (b.station st).mode = .outOfService ∧ (b.station st).standing = (a.station st).standing
  slots : b.board.slots = a.board.slots.map fun o => if o.any fun r => r.station.train = u then none else o
  gap : b.gap u = { a.gap u with validity := .notValid, recovery := none, gap := none, faultStanding := false }
  holds : ∀ c, c ≠ .mode → c ≠ .gapMove → c ≠ .relief → (b.governor u).holds.has c = (a.governor u).holds.has c
  position : (b.positioner u).reasons.position = true
  mode : (a.station (crusherOf u)).mode ≠ .outOfService →
    (b.positioner u).reasons.mode = true ∧ (b.governor u).holds.mode = true
  fault : (a.positioner u).state = .fault → (b.positioner u).state = .fault
  episode : EpisodeOut u a b
  noFault : (a.gap u).faultStanding = true → b.conditions.listed .positionFault (.crusher u) = false

/-- A slot of a train is one of its feeder or its crusher. -/
theorem Slot.unlessTrain (u : Train) (o : Option Slot) :
    ((fun o : Option Slot => if o.any (fun r => r.station = crusherOf u) then none else o) ∘
      fun o : Option Slot => if o.any (fun r => r.station = feederOf u) then none else o) o =
        if o.any (fun r => r.station.train = u) then none else o := by
  cases o with
  | none => rfl
  | some r =>
    have htrain : r.station.train = u ↔ r.station = feederOf u ∨ r.station = crusherOf u := by
      obtain ⟨v, role⟩ := r.station
      cases role <;> simp [feederOf, crusherOf]
    by_cases hfeeder : r.station = feederOf u
    · simp [hfeeder, feederOf]
    · by_cases hcrusher : r.station = crusherOf u
      · simp [hcrusher, crusherOf, feederOf]
      · simp [hfeeder, hcrusher, htrain]

theorem State.absentModes_modes (s : State) (u : Train) : AbsentModes u s (s.absentModes u) := by
  have hf := s.enterMode_out (feederOf u) (m := .outOfService) (by decide)
  have hfslots := s.enterMode_slots (feederOf u)
  rw [State.absentModes]
  generalize s.enterMode (feederOf u) .outOfService = x at *
  have hc := x.enterMode_out (crusherOf u) (m := .outOfService) (by decide)
  have hcslots := x.enterMode_slots (crusherOf u)
  generalize x.enterMode (crusherOf u) .outOfService = y at *
  rw [State.addReason_barred]
  have hnow : (y.modGap u fun g =>
      { g with validity := .notValid, recovery := none, gap := none, faultStanding := false }).now = y.now := rfl
  rw [hnow]
  have hz : ∃ z : State, (if (y.gap u).faultStanding then
      ((y.modGap u fun g => { g with validity := .notValid, recovery := none, gap := none, faultStanding := false }).modPositioner u
        (Positioner.barred y.now .position)).causeEnd .positionFault (.crusher u)
      else (y.modGap u fun g => { g with validity := .notValid, recovery := none, gap := none, faultStanding := false }).modPositioner u
        (Positioner.barred y.now .position)) = z ∧
      z = { y with gaps := z.gaps, positioners := z.positioners, conditions := z.conditions } ∧
      z.gap u = { y.gap u with validity := .notValid, recovery := none, gap := none, faultStanding := false } ∧
      z.positioner u = (y.positioner u).barred y.now .position ∧ y.conditions.fades z.conditions ∧
      ((y.gap u).faultStanding = true → z.conditions.listed .positionFault (.crusher u) = false) ∧ Within u y z := by
    have hwithin : Within u y ((y.modGap u fun g =>
        { g with validity := .notValid, recovery := none, gap := none, faultStanding := false }).modPositioner u
          (Positioner.barred y.now .position)) := (Within.gap y u _).trans (.positioner _ u _)
    refine ⟨_, rfl, ?_⟩
    split
    · exact ⟨rfl, Quad.get_set_self .., Quad.get_set_self .., ConditionList.fades_causeEnded _ _ _,
        fun _ => ConditionList.causeEnded_unlists rfl, hwithin.causeEnd _ _⟩
    · next hno =>
      exact ⟨rfl, Quad.get_set_self .., Quad.get_set_self .., .refl _, fun h => absurd h hno, hwithin⟩
  obtain ⟨z, hzeq, hrest, hgap, hpositioner, hfades, hunlisted, hwithin⟩ := hz
  have hgoal : AbsentModes u s z := by
    have hstation (st : Station) : z.station st = y.station st := by rw [hrest]; rfl
    have hgovernor : z.governor u = y.governor u := by rw [hrest]; rfl
    have hsupervisor : z.supervisor u = y.supervisor u := by rw [hrest]; rfl
    have hboard : z.board = y.board := by rw [hrest]
    have hyfeeder : y.station (feederOf u) = x.station (feederOf u) := hc.partner
    have hxcrusher : x.station (crusherOf u) = s.station (crusherOf u) := hf.partner
    have hygap : y.gap u = s.gap u := hc.gap.trans hf.gap
    have hreasons (r : Reason) : (z.positioner u).reasons.has r = if r = .position then true else (y.positioner u).reasons.has r := by
      rw [hpositioner, Positioner.barred_reasons, Reasons.has_put]
    have hepisode : EpisodeOut u s y := hf.episodeOut.trans hc.episodeOut
    refine
      { within := (hf.within.trans hc.within).trans hwithin
        stations := fun st hst => ?_
        slots := ?_
        gap := by rw [hgap, hygap]
        holds := fun c h1 h2 h3 => by rw [hgovernor]; exact (hc.holds c h1 h2 h3).trans (hf.holds c h1 h2 h3)
        position := hreasons .position
        mode := fun hmode => ?_
        fault := fun hfault => ?_
        episode := ⟨hepisode.1.trans hfades, ?_⟩
        noFault := fun h => hunlisted (by rw [hygap]; exact h) }
    · obtain ⟨v, r⟩ := st
      obtain rfl : v = u := hst
      rw [hstation]
      cases r with
      | feeder => exact ⟨(congrArg StationRecord.mode hyfeeder).trans hf.mode, (congrArg StationRecord.standing hyfeeder).trans hf.standing⟩
      | crusher => exact ⟨hc.mode, hc.standing.trans (congrArg StationRecord.standing hxcrusher)⟩
    · rw [hboard, hcslots, hfslots, List.map_map]
      exact List.map_congr_left fun o _ => Slot.unlessTrain u o
    · rw [← hxcrusher] at hmode
      refine ⟨(hreasons .mode).trans (hc.barred rfl hmode), ?_⟩
      rw [hgovernor]
      exact hc.held hmode
    · have hx := (hf.settled (.inr hfault)).1.trans hfault
      have hy : (y.positioner u).state = .fault := (hc.settled (.inr hx)).1.trans hx
      rw [hpositioner, Positioner.barred_settled (.inr hy)]
      exact hy
    · rw [hsupervisor]
      exact hepisode.2.imp id fun ⟨hr, hs, hl⟩ => ⟨hr, hs, hfades.unlisted hl⟩
  rw [← hzeq] at hgoal
  exact hgoal

end Sys2Proof.Machine
end

section
/-! PROOFS. A train made absent, as a whole (R23, R145), and the trains of a write one by one. -/

namespace Sys2Proof.Machine

variable {a b c s t : State} {u : Train}

/-- What becomes of the records of a train that is made absent. -/
structure MadeAbsent (u : Train) (a b : State) : Prop where
  within : Within u a b
  stations : ∀ st, st.train = u → (b.station st).mode = .outOfService ∧ (b.station st).standing = (a.station st).standing
  slots : b.board.slots = a.board.slots.map fun o => if o.any fun r => r.station.train = u then none else o
  gap : b.gap u = { a.gap u with validity := .notValid, recovery := none, gap := none, faultStanding := false }
  position : (b.positioner u).reasons.position = true
  mode : (a.station (crusherOf u)).mode ≠ .outOfService →
    (b.positioner u).reasons.mode = true ∧ (b.governor u).holds.mode = true
  relief : (b.positioner u).reasons.relief = false
  supervisor : b.supervisor u = { (a.supervisor u).absent with
    tripCause := false
    reliefLatch := (a.supervisor u).reliefLatch.ended ((a.supervisor u).causeActive .repeatedRelief)
    powerLatch := (a.supervisor u).powerLatch.ended (a.supervisor u).tripCause }
  level : (b.governor u).holds.level = false
  reliefHold : (b.governor u).holds.relief = false
  overload : (a.supervisor u).overload = true → (b.governor u).holds.overload = false
  trip : (b.governor u).holds.trip =
    if (b.supervisor u).reliefLatch = (a.supervisor u).reliefLatch ∧ (b.supervisor u).powerLatch = (a.supervisor u).powerLatch
    then (a.governor u).holds.trip else !(b.supervisor u).untripped
  noRelief : (a.supervisor u).relief ≠ .normal → b.conditions.listed .relief (.crusher u) = false
  noOverload : (a.supervisor u).overload = true → b.conditions.listed .overload (.crusher u) = false
  inactive : ∀ w, (a.supervisor u).latch w ≠ .clear → (a.supervisor u).causeActive w = true →
    ∀ e ∈ b.conditions.entries, e.name = (w.code, .crusher u) → e.active = false
  noFault : (a.gap u).faultStanding = true → b.conditions.listed .positionFault (.crusher u) = false
  noUnset : (a.zero u).valid = false → b.conditions.listed .zeroUnset (.crusher u) = false
  noHigh : u = .t0 → (a.governor u).holds.level = true → b.conditions.listed .surgeHigh .line = false
  noLow : u ≠ .t0 → (a.governor u).holds.level = true → (∀ v, v ≠ .t0 → v ≠ u → (a.governor v).holds.level = false) →
    b.conditions.listed .surgeLow .line = false
  fault : (a.positioner u).state = .fault → (b.positioner u).state = .fault

/-- A restoring that a jog's end has ended is no cause of a latch, and no record of the Supervisor beside. -/
theorem EpisodeOut.absent (h : EpisodeOut u a b) : (b.supervisor u).absent = (a.supervisor u).absent ∧
    (∀ w, (b.supervisor u).latch w = (a.supervisor u).latch w) ∧
      (∀ w, (b.supervisor u).causeActive w = (a.supervisor u).causeActive w) := by
  rcases h.2 with hs | ⟨hr, hs, -⟩
  · rw [hs]
    exact ⟨rfl, fun _ => rfl, fun _ => rfl⟩
  · rw [hs]
    exact ⟨rfl, fun w => by cases w <;> rfl, fun w => by cases w <;> simp [Supervisor.causeActive, hr]⟩

theorem State.makeAbsent_absent (hp : s.present u = false) : MadeAbsent u s (s.makeAbsent u) := by
  have hwhole := s.makeAbsent_within u
  rw [State.makeAbsent_eq] at hwhole ⊢
  have hmodes := s.absentModes_modes u
  generalize s.absentModes u = x at *
  have hsupervised := State.superviseAbsent_absent ((hmodes.within.present u).trans hp) hmodes.position
  have hywithin := x.superviseAbsent_within u
  generalize x.superviseAbsent u = y at *
  have hended := State.absentEnded_ends ((hywithin.present u).trans ((hmodes.within.present u).trans hp))
  generalize y.absentEnded u = b at *
  obtain ⟨habsent, hlatch, hcause⟩ := hmodes.episode.absent
  have hbsupervisor : b.supervisor u = y.supervisor u := by rw [hended.rest]; rfl
  have hbpositioner : b.positioner u = { x.positioner u with reasons := (x.positioner u).reasons.put .relief false } := by
    rw [← hsupervised.positioner, hended.rest]
    rfl
  have hreasons (r : Reason) (hr : r ≠ .relief) : (b.positioner u).reasons.has r = (x.positioner u).reasons.has r := by
    rw [hbpositioner, Reasons.has_put, if_neg hr]
  have hlevel : (y.governor u).holds.level = (s.governor u).holds.level :=
    (hsupervised.holds .level (by decide) (by decide) (by decide)).trans (hmodes.holds .level (by decide) (by decide) (by decide))
  have hyzero : y.zero u = s.zero u := by rw [State.zero, hywithin.zeros, hmodes.within.zeros]; rfl
  have hstation (st : Station) (hst : st.train = u) : (y.station st).mode = (x.station st).mode ∧
      (y.station st).standing = (x.station st).standing := by
    obtain ⟨v, r⟩ := st
    obtain rfl : v = u := hst
    cases r with
    | feeder =>
      have : y.station ⟨v, .feeder⟩ = x.station ⟨v, .feeder⟩ := by rw [hsupervised.rest]; rfl
      rw [this]
      exact ⟨rfl, rfl⟩
    | crusher =>
      have hy : y.station ⟨v, .crusher⟩ = { x.station ⟨v, .crusher⟩ with lastAccepting := false } := hsupervised.station
      rw [hy]
      exact ⟨rfl, rfl⟩
  have hoverload : (x.supervisor u).overload = (s.supervisor u).overload := by
    rcases hmodes.episode.2 with hs | ⟨-, hs, -⟩ <;> rw [hs]
  have hreliefLatch : (x.supervisor u).reliefLatch = (s.supervisor u).reliefLatch := hlatch .repeatedRelief
  have hpowerLatch : (x.supervisor u).powerLatch = (s.supervisor u).powerLatch := hlatch .powerTrip
  have htripCause : (x.supervisor u).tripCause = (s.supervisor u).tripCause := hcause .powerTrip
  refine
    { within := hwhole
      stations := fun st hst => ?_
      slots := ?_
      gap := ?_
      position := (hreasons .position (by decide)).trans hmodes.position
      mode := fun h => ⟨(hreasons .mode (by decide)).trans (hmodes.mode h).1, ?_⟩
      relief := ?_
      supervisor := ?_
      level := hended.level
      reliefHold := (hended.holds .relief (by decide)).trans hsupervised.relief
      overload := fun h => (hended.holds .overload (by decide)).trans (hsupervised.overload (hoverload.trans h))
      trip := ?_
      noRelief := fun h => ?_
      noOverload := fun h => hended.fades.unlisted (hsupervised.noOverload (hoverload.trans h))
      inactive := fun w hset hactive => hended.fades.inactive
        (hsupervised.inactive w (by rw [hlatch]; exact hset) ((hcause w).trans hactive))
      noFault := fun h => hended.fades.unlisted (hsupervised.fades.unlisted (hmodes.noFault h))
      noUnset := fun h => hended.noUnset (by rw [hyzero]; exact h)
      noHigh := fun hu h => hended.noHigh hu (hlevel.trans h)
      noLow := fun hu h hothers => hended.noLow hu (hlevel.trans h) fun v hv hvu => ?_
      fault := fun h => ?_ }
  · obtain ⟨hm, hst'⟩ := hended.stations st
    obtain ⟨hym, hyst⟩ := hstation st hst
    obtain ⟨hxm, hxst⟩ := hmodes.stations st hst
    exact ⟨hm.trans (hym.trans hxm), hst'.trans (hyst.trans hxst)⟩
  · rw [← hmodes.slots, hended.rest, hsupervised.rest]
  · rw [← hmodes.gap, hended.rest, hsupervised.rest]
    rfl
  · exact (hended.holds .mode (by decide)).trans
      ((hsupervised.holds .mode (by decide) (by decide) (by decide)).trans (hmodes.mode h).2)
  · rw [hbpositioner]
    exact (Reasons.has_put _ .relief .relief false).trans (if_pos rfl)
  · rw [hbsupervisor, hsupervised.supervisor, habsent, hreliefLatch, hpowerLatch, htripCause, hcause]
  · have htrip := hsupervised.trip
    rw [hreliefLatch, hpowerLatch] at htrip
    have hkept : (x.governor u).holds.trip = (s.governor u).holds.trip :=
      hmodes.holds .trip (by decide) (by decide) (by decide)
    rw [hbsupervisor, ← hkept]
    exact (hended.holds .trip (by decide)).trans htrip
  · refine hended.fades.unlisted ?_
    rcases hmodes.episode.2 with hs | ⟨-, -, hl⟩
    · exact hsupervised.noRelief (by rw [hs]; exact h)
    · exact hsupervised.fades.unlisted hl
  · obtain ⟨-, -, -, -, -, hgovernor, -⟩ := (hmodes.within.trans hywithin).others v hvu
    rw [hgovernor]
    exact hothers v hv hvu
  · rw [hbpositioner]
    exact hmodes.fault h

/-! ### A write that changes one train -/

theorem State.judgePresence_same {before : Quad Bool} (h : s.present u = before.get u) : s.judgePresence before u = s := by
  unfold State.judgePresence
  rw [h]
  cases before.get u <;> rfl

/-- A write of TRAINS_PRESENT that leaves the other trains as they are judges the one train. -/
theorem State.storeTrains_one {trains : Quad Bool} (hothers : ∀ v, v ≠ u → trains.get v = s.line.trainsPresent.get v)
    (hsub : s.isSubject u = false) :
    s.storeTrains trains =
      (s.withLine { s.line with trainsPresent := trains }).judgePresence s.line.trainsPresent u := by
  set w := s.withLine { s.line with trainsPresent := trains } with hw
  have hline : (w.judgePresence s.line.trainsPresent u).line = w.line :=
    (State.judgePresence_within (s := w) hsub s.line.trainsPresent).line
  have hself (v : Train) (x : State) (hv : v ≠ u) (hx : x.line = w.line) : x.judgePresence s.line.trainsPresent v = x :=
    State.judgePresence_same (by rw [State.present, hx]; exact hothers v hv)
  rw [State.storeTrains, ← hw, State.forTrains]
  cases u with
  | t0 => rw [hself .t1 _ (by decide) hline, hself .t2 _ (by decide) hline, hself .t3 _ (by decide) hline]
  | t1 => rw [hself .t0 _ (by decide) rfl, hself .t2 _ (by decide) hline, hself .t3 _ (by decide) hline]
  | t2 => rw [hself .t0 _ (by decide) rfl, hself .t1 _ (by decide) rfl, hself .t3 _ (by decide) hline]
  | t3 => rw [hself .t0 _ (by decide) rfl, hself .t1 _ (by decide) rfl, hself .t2 _ (by decide) rfl]

end Sys2Proof.Machine
end

section
/-! PROOFS. A write of TRAINS_PRESENT that leaves one train out (R20, R23). -/

namespace Sys2Proof.Machine

variable {a b c s t : State} {u : Train} {tag : Byte} {value : Half}

/-! ### The write -/

/-- The state in which the presence of the trains is judged: the request taken, and the value stored. -/
def State.trainsStored (s : State) (trains : Quad Bool) : State :=
  (s.replyBegins .sv).withLine { s.line with trainsPresent := trains }

/-- The answer to a write of TRAINS_PRESENT: the value as it was sent. -/
def trainsAnswer (value : Half) : Answer := ⟨.done, ⟨false, false, false, false, false⟩, halfBytes value⟩

/-- A write of TRAINS_PRESENT that passes its checks, and changes one train, judges that train. -/
theorem exec_setTrains {trains : Quad Bool} (hs : s.takesOn .sv) (hv : value.toNat < 16)
    (hmodes : ∀ st : Station, s.present st.train = true → (s.station st).mode ≠ .run)
    (hin : s.leavesOutSubject trains = false) (htrains : trainSetOf value.toNat = trains)
    (hothers : ∀ v, v ≠ u → trains.get v = s.line.trainsPresent.get v) (hsub : s.isSubject u = false) :
    exec (.setParameter .sv tag 0xFF#8 5#8 value) s =
      .next ((⟨(s.trainsStored trains).judgePresence s.line.trainsPresent u, trainsAnswer value⟩ : Decision).reply .sv tag
        Kind.setParameter.code) := by
  have hmode : s.paramModeOk (.line .trainsPresent) = true := by
    have hruns : s.anyInRun = false := by
      rw [← Bool.not_eq_true, State.anyInRun_iff]
      exact fun ⟨st, hpresent, hrun⟩ => hmodes st hpresent hrun
    exact congrArg not hruns
  have hbusy : s.paramBusy (.line .trainsPresent) value.toNat = false := by
    rw [State.paramBusy, htrains, hin, Bool.and_false]
  rw [exec_setParameter_taken (p := .line .trainsPresent) (v := value.toNat) hs (ParamSet.ofByte_line rfl) rfl
    (decide_eq_true hv) hmode hbusy rfl]
  have hstore : (s.replyBegins .sv).storeParam (.line .trainsPresent) value.toNat =
      (s.trainsStored trains).judgePresence s.line.trainsPresent u := by
    rw [← htrains] at hothers ⊢
    exact State.storeTrains_one (s := s.replyBegins .sv) hothers hsub
  have hanswer : (⟨.done, { ReplyFlags.none with clamped := value.toNat ≠ value.toNat }, f2 value.toNat⟩ : Answer) =
      trainsAnswer value := by
    simp [trainsAnswer, ReplyFlags.none, f2]
  rw [hstore, hanswer]

/-- The reply to a write that has kept the links. -/
theorem State.trainsStored_repliedBy {trains : Quad Bool} (h : Within u (s.trainsStored trains) b) :
    s.repliedBy ((⟨b, trainsAnswer value⟩ : Decision).reply .sv tag Kind.setParameter.code) .sv tag .setParameter
      (trainsAnswer value) := by
  obtain ⟨-, -, -, -, -, -, -, hlinks, -⟩ := h.work
  exact Decision.repliedBy (k := .setParameter) (d := ⟨b, trainsAnswer value⟩) hlinks

/-! ### A train left out -/

theorem State.trainsStored_absent (hp : s.present u = true) :
    (s.trainsStored (s.line.trainsPresent.set u false)).judgePresence s.line.trainsPresent u =
      (s.trainsStored (s.line.trainsPresent.set u false)).makeAbsent u := by
  have hbefore : s.line.trainsPresent.get u = true := hp
  have hafter : (s.trainsStored (s.line.trainsPresent.set u false)).present u = false := Quad.get_set_self ..
  unfold State.judgePresence
  rw [hbefore, hafter]

/-- A latch whose cause has ended is the one of R143. -/
theorem MadeAbsent.trip_latches (h : MadeAbsent u a b) :
    (b.supervisor u).reliefLatch =
      (if (a.supervisor u).reliefLatch = .setAcknowledged &&
        ((a.supervisor u).relief = .relieving || (a.supervisor u).relief = .clearing) then .clear
      else (a.supervisor u).reliefLatch) ∧
    (b.supervisor u).powerLatch =
      (if (a.supervisor u).powerLatch = .setAcknowledged && (a.supervisor u).tripCause then .clear
      else (a.supervisor u).powerLatch) := by
  rw [h.supervisor]
  exact ⟨rfl, rfl⟩

theorem MadeAbsent.trip_hold (h : MadeAbsent u a b) : (b.governor u).holds.trip =
    if (b.supervisor u).reliefLatch = (a.supervisor u).reliefLatch ∧ (b.supervisor u).powerLatch = (a.supervisor u).powerLatch
    then (a.governor u).holds.trip
    else decide ((b.supervisor u).reliefLatch ≠ .clear ∨ (b.supervisor u).powerLatch ≠ .clear) := by
  rw [h.trip, Supervisor.untripped]
  simp only [Bool.not_and, ne_eq, Bool.decide_or, decide_not]

theorem trainsPresentWrite_absent (hs : s.takesOn .sv) (hv : value.toNat < 16)
    (hmodes : ∀ st : Station, s.present st.train = true → (s.station st).mode ≠ .run)
    (hsubject : ∀ v, s.sequencer.subject = some v → (trainSetOf value.toNat).get v = true)
    (hp : s.present u = true) (htrains : trainSetOf value.toNat = s.line.trainsPresent.set u false) :
    ∃ b, MadeAbsent u (s.trainsStored (s.line.trainsPresent.set u false)) b ∧
      exec (.setParameter .sv tag 0xFF#8 5#8 value) s =
        .next ((⟨b, trainsAnswer value⟩ : Decision).reply .sv tag Kind.setParameter.code) := by
  rw [htrains] at hsubject
  have hsub : s.isSubject u = false := decide_eq_false fun h => by
    have hin := hsubject u h
    rw [Quad.get_set_self] at hin
    cases hin
  have hin : s.leavesOutSubject (s.line.trainsPresent.set u false) = false := by
    unfold State.leavesOutSubject
    split
    · rfl
    · next v hsome => rw [hsubject v hsome]; rfl
  have hexec := exec_setTrains (tag := tag) hs hv hmodes hin htrains
    (fun v hne => Quad.get_set_of_ne s.line.trainsPresent hne false) hsub
  rw [State.trainsStored_absent hp] at hexec
  exact ⟨_, State.makeAbsent_absent (Quad.get_set_self ..), hexec⟩

end Sys2Proof.Machine
end

section
/-! PROOFS. A train made present: its settings, and the levels of its inputs (R24, R52). -/

namespace Sys2Proof.Machine

variable {a b c s t : State} {u : Train}

/-! ### The relief switch of a train made present (R134) -/

/-- The level the relief switch has for the detector, where the detector takes it from there. -/
def State.switchActive (s : State) (u : Train) : Option Bool :=
  match (s.crusher u).reliefSource with
  | .analog => none
  | .switch => (s.inputs.reliefSwitch.get u).level.map fun level => level != (s.crusher u).switchInvert

/-- What the level of the relief switch does to a train whose Positioner is in SUSPENDED or FAULT. -/
structure SwitchTaken (u : Train) (a b : State) : Prop where
  rest : b = { a with
    crushers := b.crushers, positioners := b.positioners, governors := b.governors,
    supervisors := b.supervisors, conditions := b.conditions }
  station : (a.station (crusherOf u)).lastAccepting = false → b.station (crusherOf u) = a.station (crusherOf u)
  holds : ∀ c, c ≠ .trip → c ≠ .relief → (b.governor u).holds.has c = (a.governor u).holds.has c
  base : (b.governor u).base = (a.governor u).base
  state : (b.positioner u).state = (a.positioner u).state
  drive : (b.positioner u).drive = (a.positioner u).drive
  reasons : ∀ r, r ≠ .relief → (b.positioner u).reasons.has r = (a.positioner u).reasons.has r
  still : a.switchActive u = none ∨ a.switchActive u = some (a.supervisor u).detectorActive →
    b.conditions = a.conditions ∧ b.supervisor u = a.supervisor u
  onset : a.switchActive u = some true → (a.supervisor u).detectorActive = false →
    (b.supervisor u).relief = .relieving ∧ (b.governor u).holds.relief = true ∧ (b.positioner u).reasons.relief = true ∧
      b.conditions = if (b.supervisor u).reliefLatch = .clear then a.conditions.onset .relief (.crusher u) none a.stamp
        else (a.conditions.onset .repeatedRelief (.crusher u) none a.stamp).onset .relief (.crusher u) none a.stamp

theorem SwitchTaken.refl (h : a.switchActive u = some true → (a.supervisor u).detectorActive = true) : SwitchTaken u a a :=
  ⟨rfl, fun _ => rfl, fun _ _ _ => rfl, rfl, rfl, rfl, fun _ _ => rfl, fun _ => ⟨rfl, rfl⟩,
    fun hactive hno => absurd ((h hactive).symm.trans hno) (by decide)⟩

theorem ReliefStopped.holds (h : ReliefStopped u a b) {c : Hold} (hc : c ≠ .trip) (hr : c ≠ .relief) :
    (b.governor u).holds.has c = (a.governor u).holds.has c := by
  have hlast (g : Governor) : (g.hold .relief).holds.has c = g.holds.has c := by simp [(g.hold_keeps .relief).1, hr]
  by_cases ht : a.reliefTrips u
  · rw [(h.trips ht).2.1, hlast, Governor.floorTrim, ((a.governor u).hold_keeps .trip).1, decide_eq_false hc, Bool.false_or]
  · rw [(h.untripped ht).2.1, hlast]
    rfl

theorem ReliefStopped.base (h : ReliefStopped u a b) : (b.governor u).base = (a.governor u).base := by
  by_cases ht : a.reliefTrips u
  · rw [(h.trips ht).2.1, (Governor.hold_keeps _ .relief).2.1]
    exact ((a.governor u).hold_keeps .trip).2.1
  · rw [(h.untripped ht).2.1, (Governor.hold_keeps _ .relief).2.1]
    rfl

/-- A relief onset of a train whose Positioner is in SUSPENDED or FAULT (R135, R136). -/
theorem State.setDetector_taken (hsub : s.isSubject u = false) (hno : (s.supervisor u).detectorActive = false)
    (hstate : (s.positioner u).state = .suspended ∨ (s.positioner u).state = .fault) (hactive : s.switchActive u = some true) :
    SwitchTaken u s (s.setDetector u true) := by
  rw [State.setDetector_stops hno hsub]
  have hstops := s.reliefStopped_stops u
  generalize s.reliefStopped u = x at *
  obtain ⟨-, hrelief, hhold, hreason⟩ := hstops.relieves
  have hpositioner : x.positioner u = { s.positioner u with reasons := (s.positioner u).reasons.put .relief true } :=
    hstops.positioner.trans (Positioner.barred_settled hstate)
  refine
    { rest := by rw [hstops.rest]; rfl
      station := fun h => ?_
      holds := fun c hc hr => hstops.holds hc hr
      base := hstops.base
      state := (congrArg Positioner.state hpositioner :)
      drive := (congrArg Positioner.drive hpositioner :)
      reasons := fun r hr => ?_
      still := fun h => ?_
      onset := fun _ _ => ⟨hrelief, hhold, hreason, ?_⟩ }
  · refine hstops.station.trans ?_
    rw [← h]
  · refine (congrArg (fun p : Positioner => p.reasons.has r) hpositioner).trans ?_
    exact (Reasons.has_put _ .relief r true).trans (if_neg hr)
  · rw [hactive, hno] at h
    simp at h
  · have hstamp : x.stamp = s.stamp := by rw [hstops.rest]; rfl
    show x.conditions.onset .relief (.crusher u) none x.stamp = if (x.supervisor u).reliefLatch = .clear then _ else _
    rw [hstamp]
    by_cases ht : s.reliefTrips u
    · rw [if_neg (by rw [(hstops.trips ht).1]; decide), (hstops.trips ht).2.2]
    · rw [if_pos (hstops.untripped ht).1, (hstops.untripped ht).2.2]

theorem State.takeLevel_reliefSwitch (hp : s.present u = true) (hsub : s.isSubject u = false)
    (hstate : (s.positioner u).state = .suspended ∨ (s.positioner u).state = .fault) :
    SwitchTaken u s (s.takeLevel (.reliefSwitch u)) := by
  have htake : s.takeLevel (.reliefSwitch u) = match s.switchActive u with
      | none => s
      | some active => s.setDetector u active := by
    unfold State.takeLevel State.switchActive
    cases hlevel : (s.inputs.reliefSwitch.get u).level with
    | none =>
      rw [show (s.inputs.digital (.reliefSwitch u)).level = none from hlevel]
      cases (s.crusher u).reliefSource <;> rfl
    | some level =>
      rw [show (s.inputs.digital (.reliefSwitch u)).level = some level from hlevel]
      show s.deliverChange (.reliefSwitch u) level = _
      rw [State.deliverChange, if_pos hp, State.reliefSwitchChanged]
      cases (s.crusher u).reliefSource with
      | analog => rfl
      | switch => exact State.judgeSwitch_level hlevel
  rw [htake]
  cases hactive : s.switchActive u with
  | none => exact .refl (by rw [hactive]; nofun)
  | some active =>
    by_cases hsame : (s.supervisor u).detectorActive = active
    · show SwitchTaken u s (s.setDetector u active)
      rw [State.setDetector_same hsame]
      exact .refl fun h => hsame.trans (Option.some.inj (hactive.symm.trans h))
    · cases active with
      | true => exact State.setDetector_taken hsub (by simpa using hsame) hstate hactive
      | false =>
        show SwitchTaken u s (s.setDetector u false)
        have hrest : s.setDetector u false = { s with supervisors := (s.setDetector u false).supervisors } := by
          rw [State.setDetector, if_neg hsame]
          dsimp only
          rw [if_neg Bool.false_ne_true, State.reliefEnd]
          split <;> rfl
        rw [hrest]
        refine ⟨rfl, fun _ => rfl, fun _ _ _ => rfl, rfl, rfl, rfl, fun _ _ => rfl, fun h => ?_, fun h => ?_⟩
        · rw [hactive] at h
          simp at h
          exact absurd h hsame
        · rw [hactive] at h
          cases h

/-! ### The running contact (R52) -/

theorem State.takeLevel_running (hp : s.present u = true) (hsub : s.isSubject u = false) :
    s.takeLevel (.running u) = match (s.inputs.running.get u).level with
      | none => s
      | some running => s.modGovernor u fun g => if running then g.release .crusherStopped else g.hold .crusherStopped := by
  unfold State.takeLevel
  cases hlevel : (s.inputs.running.get u).level with
  | none => rw [show (s.inputs.digital (.running u)).level = none from hlevel]
  | some level =>
    rw [show (s.inputs.digital (.running u)).level = some level from hlevel]
    exact State.runningChanged_eq hp (.inr hsub)

/-- What the level of the running contact does to the feeder of a train made present. -/
structure RunningTaken (u : Train) (a b : State) : Prop where
  rest : b = { a with governors := b.governors }
  holds : ∀ c, c ≠ .crusherStopped → (b.governor u).holds.has c = (a.governor u).holds.has c
  base : (b.governor u).base = (a.governor u).base
  stopped : (b.governor u).holds.crusherStopped = match (a.inputs.running.get u).level with
    | none => (a.governor u).holds.crusherStopped
    | some running => !running

theorem State.takeLevel_running_taken (hp : s.present u = true) (hsub : s.isSubject u = false) :
    RunningTaken u s (s.takeLevel (.running u)) := by
  rw [State.takeLevel_running hp hsub]
  cases hlevel : (s.inputs.running.get u).level with
  | none => exact ⟨rfl, fun _ _ => rfl, rfl, by rw [hlevel]⟩
  | some running =>
    have hgovernor := s.governor_modGovernor u fun g => if running then g.release .crusherStopped else g.hold .crusherStopped
    refine ⟨rfl, fun c hc => ?_, ?_, ?_⟩
    · refine (congrArg (fun g : Governor => g.holds.has c) hgovernor).trans ?_
      cases running with
      | true => simpa [hc] using ((s.governor u).release_keeps .crusherStopped).1 c
      | false => simpa [hc] using ((s.governor u).hold_keeps .crusherStopped).1 c
    · refine (congrArg Governor.base hgovernor).trans ?_
      cases running with
      | true => exact ((s.governor u).release_keeps .crusherStopped).2.1
      | false => exact ((s.governor u).hold_keeps .crusherStopped).2.1
    · rw [hlevel]
      refine (congrArg (fun g : Governor => g.holds.crusherStopped) hgovernor).trans ?_
      cases running with
      | true => exact Governor.release_has _ .crusherStopped
      | false => exact Governor.hold_has _ .crusherStopped

/-! ### The settings (R24, R6) -/

theorem Governor.setBase_keeps (g : Governor) (x : Nat) : (∀ c, (g.setBase x).holds.has c = g.holds.has c) ∧ (g.setBase x).base = x := by
  obtain ⟨hholds, hbase, -⟩ := g.rejudged_keeps { g with base := x }
  exact ⟨fun c => congrArg (Holds.has · c) hholds, hbase⟩

/-- A train's START settings, with no last-applied record, and its position to be read for the first time. -/
def State.startsSet (s : State) (u : Train) : State :=
  let fed := s.writeStanding (feederOf u) (Standing.start 0)
  let set := fed.writeStanding (crusherOf u) (Standing.start (fed.crusher u).gapMax)
  ((set.modStation (feederOf u) fun r => { r with lastApplied := none }).modStation (crusherOf u) fun r =>
    { r with lastApplied := none }).modGap u fun g =>
      { g with validity := .notValid, recovery := none, gap := none, faultStanding := false, firstReadingDue := true }

structure StartsSet (u : Train) (a b : State) : Prop where
  rest : b = { a with feeders := b.feeders, crushers := b.crushers, governors := b.governors, gaps := b.gaps }
  feeder : b.station (feederOf u) = { a.station (feederOf u) with standing := .start 0, lastApplied := none }
  crusher : b.station (crusherOf u) =
    { a.station (crusherOf u) with standing := .start (a.crusher u).gapMax, lastApplied := none }
  gap : b.gap u = { a.gap u with
    validity := .notValid, recovery := none, gap := none, faultStanding := false, firstReadingDue := true }
  holds : ∀ c, (b.governor u).holds.has c = (a.governor u).holds.has c
  base : (a.governor u).base = (a.station (feederOf u)).standing.target → (b.governor u).base = 0

theorem State.startsSet_set (hstate : (s.positioner u).state = .suspended ∨ (s.positioner u).state = .fault) :
    StartsSet u s (s.startsSet u) := by
  have hfed : ∃ x, s.writeStanding (feederOf u) (Standing.start 0) = x ∧
      x = { s with feeders := x.feeders, governors := x.governors } ∧
      x.station (feederOf u) = { s.station (feederOf u) with standing := .start 0 } ∧
      (∀ c, (x.governor u).holds.has c = (s.governor u).holds.has c) ∧
      ((s.governor u).base = (s.station (feederOf u)).standing.target → (x.governor u).base = 0) := by
    refine ⟨_, rfl, ?_⟩
    unfold State.writeStanding State.writeStandingWith
    dsimp only
    split
    · next hsame => exact ⟨rfl, State.station_modStation .., fun _ => rfl, fun h => h.trans hsame.symm⟩
    · have hgovernor : ((s.modStation (feederOf u) fun r => { r with standing := Standing.start 0 }).modGovernor u fun g =>
          g.setBase 0).governor u = (s.governor u).setBase 0 := State.governor_modGovernor ..
      obtain ⟨hholds, hbase⟩ := (s.governor u).setBase_keeps 0
      exact ⟨rfl, State.station_modStation s (feederOf u) fun r => { r with standing := .start 0 }, fun c =>
        (congrArg (fun g : Governor => g.holds.has c) hgovernor).trans (hholds c), fun _ =>
          (congrArg Governor.base hgovernor).trans hbase⟩
  obtain ⟨x, hx, hrest, hfeeder, hholds, hbase⟩ := hfed
  rw [State.startsSet, hx]
  have hxpositioner : x.positioner u = s.positioner u := by rw [hrest]; rfl
  have hxparams : x.crusher u = s.crusher u := by rw [hrest]; rfl
  have hstation : x.station (crusherOf u) = s.station (crusherOf u) := by rw [hrest]; rfl
  have hgap : x.gap u = s.gap u := by rw [hrest]; rfl
  rw [State.writeStanding_still (by rw [hxpositioner]; rcases hstate with h | h <;> simp [h])
    (by rw [hxpositioner]; rcases hstate with h | h <;> simp [h]) (by rw [hxpositioner]; rcases hstate with h | h <;> simp [h]),
    hxparams]
  refine ⟨by rw [hrest]; rfl, ?_, ?_, ?_, hholds, hbase⟩
  · have hread := (x.modStation (crusherOf u) fun r => { r with standing := .start (s.crusher u).gapMax }).station_modStation
      (feederOf u) fun r => { r with lastApplied := none }
    refine Eq.trans ?_ (hread.trans ?_)
    · rfl
    · exact congrArg (fun r : StationRecord => { r with lastApplied := none }) hfeeder
  · have hread : (((x.modStation (crusherOf u) fun r => { r with standing := .start (s.crusher u).gapMax }).modStation
        (feederOf u) fun r => { r with lastApplied := none }).modStation (crusherOf u) fun r =>
          { r with lastApplied := none }).station (crusherOf u) = { x.station (crusherOf u) with
            standing := .start (s.crusher u).gapMax, lastApplied := none } := by
      rw [State.station_modStation, State.station_modStation_of_ne _ (by simp [feederOf, crusherOf]), State.station_modStation]
    exact hread.trans (by rw [hstation])
  · refine (State.gap_modGap ..).trans ?_
    rw [← hgap]
    rfl

end Sys2Proof.Machine
end

section
/-! PROOFS. A train made present, as a whole (R24), and the write of TRAINS_PRESENT. -/

namespace Sys2Proof.Machine

variable {a b c s t : State} {u : Train} {tag : Byte} {value : Half}

/-- Both stations of a train in MAINTENANCE (R24). -/
def State.presentModes (s : State) (u : Train) : State :=
  (s.enterMode (feederOf u) .maintenance).enterMode (crusherOf u) .maintenance

/-- ZERO_UNSET where the zero is not valid (R24; log 16). -/
def ConditionList.unset (l : ConditionList) (valid : Bool) (u : Train) (stamp : Stamp) : ConditionList :=
  if valid then l else l.onset .zeroUnset (.crusher u) none stamp

/-- The report of a zero that is not valid. -/
def State.unsetReported (s : State) (u : Train) : State :=
  if (s.zero u).valid then s else s.onset .zeroUnset (.crusher u) none

theorem State.unsetReported_eq (s : State) (u : Train) :
    s.unsetReported u = s.modConditions fun l => l.unset (s.zero u).valid u s.stamp := by
  unfold State.unsetReported ConditionList.unset
  cases (s.zero u).valid <;> rfl

theorem State.makePresent_eq (s : State) (u : Train) :
    s.makePresent u =
      ((((s.presentModes u).startsSet u).takeLevel (.running u)).takeLevel (.reliefSwitch u)).unsetReported u := rfl

/-- A train out of service that takes MAINTENANCE, its Positioner in SUSPENDED or FAULT. -/
structure PresentModes (u : Train) (a b : State) : Prop where
  within : Within u a b
  stations : ∀ st, st.train = u → (b.station st).mode = .maintenance ∧ (b.station st).lastAccepting = false
  feeder : (b.station (feederOf u)).standing = (a.station (feederOf u)).standing
  gap : b.gap u = a.gap u
  holds : ∀ c, c ≠ .mode → c ≠ .gapMove → c ≠ .relief → (b.governor u).holds.has c = (a.governor u).holds.has c
  held : (b.governor u).holds.mode = true
  base : (b.governor u).base = (a.governor u).base
  state : (b.positioner u).state = (a.positioner u).state
  drive : (b.positioner u).drive = (a.positioner u).drive
  position : (b.positioner u).reasons.position = (a.positioner u).reasons.position
  barred : (b.positioner u).reasons.mode = true
  supervisor : b.supervisor u = a.supervisor u
  conditions : b.conditions = a.conditions

theorem State.presentModes_modes (hout : ∀ st : Station, st.train = u → (s.station st).mode = .outOfService)
    (hstate : (s.positioner u).state = .suspended ∨ (s.positioner u).state = .fault) :
    PresentModes u s (s.presentModes u) := by
  have hf := s.enterMode_out (feederOf u) (m := .maintenance) (by decide)
  rw [State.presentModes]
  generalize s.enterMode (feederOf u) .maintenance = x at *
  have hc := x.enterMode_out (crusherOf u) (m := .maintenance) (by decide)
  generalize x.enterMode (crusherOf u) .maintenance = y at *
  have hfeeder : y.station (feederOf u) = x.station (feederOf u) := hc.partner
  have hcrusher : x.station (crusherOf u) = s.station (crusherOf u) := hf.partner
  have hfmode : (s.station (feederOf u)).mode ≠ .maintenance := by rw [hout (feederOf u) rfl]; decide
  have hcmode : (x.station (crusherOf u)).mode ≠ .maintenance := by rw [hcrusher, hout (crusherOf u) rfl]; decide
  obtain ⟨hfstate, hfdrive, hfsupervisor, hfconditions⟩ := hf.settled hstate
  have hxstate : (x.positioner u).state = .suspended ∨ (x.positioner u).state = .fault := hstate.imp hfstate.trans hfstate.trans
  obtain ⟨hcstate, hcdrive, hcsupervisor, hcconditions⟩ := hc.settled hxstate
  refine
    { within := hf.within.trans hc.within
      stations := fun st hst => ?_
      feeder := (congrArg StationRecord.standing hfeeder).trans hf.standing
      gap := hc.gap.trans hf.gap
      holds := fun c h1 h2 h3 => (hc.holds c h1 h2 h3).trans (hf.holds c h1 h2 h3)
      held := hc.held hcmode
      base := hc.base.trans hf.base
      state := hcstate.trans hfstate
      drive := hcdrive.trans hfdrive
      position := (hc.reasons .position (by decide)).trans (hf.reasons .position (by decide))
      barred := hc.barred rfl hcmode
      supervisor := hcsupervisor.trans hfsupervisor
      conditions := hcconditions.trans hfconditions }
  obtain ⟨v, r⟩ := st
  obtain rfl : v = u := hst
  cases r with
  | feeder =>
    have hread : y.station ⟨v, .feeder⟩ = x.station ⟨v, .feeder⟩ := hfeeder
    rw [hread]
    exact ⟨hf.mode, hf.judged hfmode⟩
  | crusher => exact ⟨hc.mode, hc.judged hcmode⟩

/-! ### The whole train -/

/-- What becomes of the records of a train that is made present, its Positioner in SUSPENDED or FAULT. -/
structure MadePresent (u : Train) (a b : State) : Prop where
  within : Within u a b
  feeder : b.station (feederOf u) = ⟨.maintenance, .start 0, none, false⟩
  crusher : b.station (crusherOf u) = ⟨.maintenance, .start (a.crusher u).gapMax, none, false⟩
  gap : b.gap u = { a.gap u with
    validity := .notValid, recovery := none, gap := none, faultStanding := false, firstReadingDue := true }
  held : (b.governor u).holds.mode = true
  base : (a.governor u).base = (a.station (feederOf u)).standing.target → (b.governor u).base = 0
  state : (b.positioner u).state = (a.positioner u).state
  drive : (b.positioner u).drive = (a.positioner u).drive
  barred : (b.positioner u).reasons.mode = true
  position : (b.positioner u).reasons.position = (a.positioner u).reasons.position
  stopped : (b.governor u).holds.crusherStopped = match (a.inputs.running.get u).level with
    | none => (a.governor u).holds.crusherStopped
    | some running => !running
  still : a.switchActive u = none ∨ a.switchActive u = some (a.supervisor u).detectorActive →
    b.conditions = a.conditions.unset (a.zero u).valid u a.stamp ∧ b.supervisor u = a.supervisor u
  onset : a.switchActive u = some true → (a.supervisor u).detectorActive = false →
    (b.supervisor u).relief = .relieving ∧ (b.governor u).holds.relief = true ∧ (b.positioner u).reasons.relief = true ∧
      b.conditions = (if (b.supervisor u).reliefLatch = .clear then a.conditions.onset .relief (.crusher u) none a.stamp
        else (a.conditions.onset .repeatedRelief (.crusher u) none a.stamp).onset .relief (.crusher u) none
          a.stamp).unset (a.zero u).valid u a.stamp

theorem StationRecord.started {r : StationRecord} (hm : r.mode = .maintenance) (hno : r.lastAccepting = false) (q : Standing) :
    { r with standing := q, lastApplied := none } = (⟨.maintenance, q, none, false⟩ : StationRecord) := by
  rw [← hm, ← hno]

theorem State.makePresent_present (hp : s.present u = true) (hsub : s.isSubject u = false)
    (hout : ∀ st : Station, st.train = u → (s.station st).mode = .outOfService)
    (hstate : (s.positioner u).state = .suspended ∨ (s.positioner u).state = .fault) :
    MadePresent u s (s.makePresent u) := by
  have hwhole := State.makePresent_within hsub
  have hmodes := State.presentModes_modes hout hstate
  rw [State.makePresent_eq] at hwhole ⊢
  generalize s.presentModes u = y at *
  have hset := State.startsSet_set (s := y) (u := u) (by rw [hmodes.state]; exact hstate)
  generalize y.startsSet u = x at *
  have hxpositioner : x.positioner u = y.positioner u := by rw [hset.rest]; rfl
  have hxline : x.line = s.line := by rw [hset.rest]; exact hmodes.within.line
  have hxinputs : x.inputs = s.inputs := by rw [hset.rest]; exact hmodes.within.inputs
  have hxcrusher : x.crusher u = s.crusher u := by rw [hset.rest]; exact hmodes.within.crusher u
  have hxstamp : x.stamp = s.stamp := by rw [hset.rest]; exact hmodes.within.stamp
  have hxsubject : x.isSubject u = false := by rw [hset.rest]; exact hmodes.within.isSubject.trans hsub
  have hxzero : x.zero u = s.zero u := by
    rw [hset.rest]
    exact congrArg (Quad.get · u) hmodes.within.zeros
  have hxsupervisor : x.supervisor u = s.supervisor u := by rw [hset.rest]; exact hmodes.supervisor
  have hxconditions : x.conditions = s.conditions := by rw [hset.rest]; exact hmodes.conditions
  have hrunning := State.takeLevel_running_taken (s := x) (u := u) (by rw [State.present, hxline]; exact hp) hxsubject
  generalize x.takeLevel (.running u) = z at *
  have hzpositioner : z.positioner u = y.positioner u := by rw [hrunning.rest]; exact hxpositioner
  have hzline : z.line = s.line := by rw [hrunning.rest]; exact hxline
  have hzsupervisor : z.supervisor u = s.supervisor u := by rw [hrunning.rest]; exact hxsupervisor
  have hzconditions : z.conditions = s.conditions := by rw [hrunning.rest]; exact hxconditions
  have hzstamp : z.stamp = s.stamp := by rw [hrunning.rest]; exact hxstamp
  have hzzero : z.zero u = s.zero u := by rw [hrunning.rest]; exact hxzero
  have hzstation (st : Station) : z.station st = x.station st := by rw [hrunning.rest]; rfl
  have hzactive : z.switchActive u = s.switchActive u := by
    rw [hrunning.rest]
    unfold State.switchActive
    rw [← hxinputs, ← hxcrusher]
    rfl
  have hswitch := State.takeLevel_reliefSwitch (s := z) (u := u) (by rw [State.present, hzline]; exact hp)
    (by rw [hrunning.rest]; exact hxsubject) (by rw [hzpositioner, hmodes.state]; exact hstate)
  generalize z.takeLevel (.reliefSwitch u) = l at *
  have hlzero : l.zero u = s.zero u := by rw [hswitch.rest]; exact hzzero
  have hlstamp : l.stamp = s.stamp := by rw [hswitch.rest]; exact hzstamp
  have hlfeeder : l.station (feederOf u) = z.station (feederOf u) := by rw [hswitch.rest]; rfl
  have hlgap : l.gap u = x.gap u := by rw [hswitch.rest, hrunning.rest]; rfl
  rw [State.unsetReported_eq, hlzero, hlstamp] at hwhole ⊢
  obtain ⟨hfmode, hfaccepting⟩ := hmodes.stations (feederOf u) rfl
  obtain ⟨hcmode, hcaccepting⟩ := hmodes.stations (crusherOf u) rfl
  have hholds (c : Hold) (h1 : c ≠ .trip) (h2 : c ≠ .relief) (h3 : c ≠ .crusherStopped) :
      (l.governor u).holds.has c = (y.governor u).holds.has c :=
    (hswitch.holds c h1 h2).trans ((hrunning.holds c h3).trans (hset.holds c))
  have hreasons (r : Reason) (hr : r ≠ .relief) : (l.positioner u).reasons.has r = (y.positioner u).reasons.has r :=
    (hswitch.reasons r hr).trans (by rw [hzpositioner])
  have hstill := hswitch.still
  have honset := hswitch.onset
  rw [hzactive, hzsupervisor, hzconditions] at hstill honset
  rw [hzstamp] at honset
  refine
    { within := hwhole
      feeder := ?_
      crusher := ?_
      gap := ?_
      held := (hholds .mode (by decide) (by decide) (by decide)).trans hmodes.held
      base := fun h => ?_
      state := hswitch.state.trans (by rw [hzpositioner, hmodes.state])
      drive := hswitch.drive.trans (by rw [hzpositioner, hmodes.drive])
      barred := (hreasons .mode (by decide)).trans hmodes.barred
      position := (hreasons .position (by decide)).trans hmodes.position
      stopped := ?_
      still := fun h => ?_
      onset := fun h hno => ?_ }
  · refine (hlfeeder.trans ((hzstation _).trans hset.feeder)).trans ?_
    exact StationRecord.started hfmode hfaccepting _
  · have hxaccepting : (z.station (crusherOf u)).lastAccepting = false := by rw [hzstation, hset.crusher]; exact hcaccepting
    refine ((hswitch.station hxaccepting).trans ((hzstation _).trans hset.crusher)).trans ?_
    rw [hmodes.within.crusher]
    exact StationRecord.started hcmode hcaccepting _
  · refine (hlgap.trans hset.gap).trans ?_
    rw [hmodes.gap]
  · refine (hswitch.base.trans hrunning.base).trans (hset.base ?_)
    rw [hmodes.base, hmodes.feeder, h]
  · refine (hswitch.holds .crusherStopped (by decide) (by decide)).trans (hrunning.stopped.trans ?_)
    have hkept : (x.governor u).holds.crusherStopped = (s.governor u).holds.crusherStopped :=
      (hset.holds .crusherStopped).trans (hmodes.holds .crusherStopped (by decide) (by decide) (by decide))
    rw [hxinputs, hkept] <;> rfl
  · obtain ⟨hconditions, hsupervisor⟩ := hstill h
    exact ⟨congrArg (ConditionList.unset · (s.zero u).valid u s.stamp) hconditions, hsupervisor⟩
  · obtain ⟨hrelief, hhold, hreason, hconditions⟩ := honset h hno
    exact ⟨hrelief, hhold, hreason, congrArg (ConditionList.unset · (s.zero u).valid u s.stamp) hconditions⟩

/-! ### The write of TRAINS_PRESENT -/

theorem State.trainsStored_present (hp : s.present u = false) :
    (s.trainsStored (s.line.trainsPresent.set u true)).judgePresence s.line.trainsPresent u =
      (s.trainsStored (s.line.trainsPresent.set u true)).makePresent u := by
  have hbefore : s.line.trainsPresent.get u = false := hp
  have hafter : (s.trainsStored (s.line.trainsPresent.set u true)).present u = true := Quad.get_set_self ..
  unfold State.judgePresence
  rw [hbefore, hafter]

theorem trainsPresentWrite_present (hs : s.takesOn .sv) (hv : value.toNat < 16)
    (hmodes : ∀ st : Station, s.present st.train = true → (s.station st).mode ≠ .run)
    (hsubject : ∀ v, s.sequencer.subject = some v → s.present v = true)
    (hp : s.present u = false) (htrains : trainSetOf value.toNat = s.line.trainsPresent.set u true)
    (hout : ∀ st : Station, st.train = u → (s.station st).mode = .outOfService)
    (hstate : (s.positioner u).state = .suspended ∨ (s.positioner u).state = .fault) :
    ∃ b, MadePresent u (s.trainsStored (s.line.trainsPresent.set u true)) b ∧
      exec (.setParameter .sv tag 0xFF#8 5#8 value) s =
        .next ((⟨b, trainsAnswer value⟩ : Decision).reply .sv tag Kind.setParameter.code) := by
  have hsub : s.isSubject u = false := decide_eq_false fun h => by
    have hpresent := hsubject u h
    rw [hp] at hpresent
    cases hpresent
  have hin : s.leavesOutSubject (s.line.trainsPresent.set u true) = false := by
    unfold State.leavesOutSubject
    split
    · rfl
    · next v hsome =>
      have hvu : v ≠ u := fun h => by
        have hpresent := hsubject v hsome
        rw [h, hp] at hpresent
        cases hpresent
      rw [Quad.get_set_of_ne _ hvu]
      exact congrArg not (hsubject v hsome)
  have hexec := exec_setTrains (tag := tag) hs hv hmodes hin htrains
    (fun v hne => Quad.get_set_of_ne s.line.trainsPresent hne true) hsub
  rw [State.trainsStored_present hp] at hexec
  exact ⟨_, State.makePresent_present (s := s.trainsStored _) (Quad.get_set_self ..) hsub hout hstate, hexec⟩

/-- Settles O56: the one train whose presence the write changes is made absent, or made present. -/
theorem trainsPresentWriteTakesEffect : Obligations.TrainsPresentWriteTakesEffect := by
  refine ⟨fun tag value u s hs hv hmodes hsubject hp htrains => ?_, fun tag value u s hs hv hmodes hsubject hp htrains hout hsusp => ?_⟩
  · obtain ⟨b, h, hexec⟩ := trainsPresentWrite_absent (tag := tag) hs hv hmodes hsubject hp htrains
    obtain ⟨hrelief, hpower⟩ := h.trip_latches
    obtain ⟨-, -, htime, hline, hcrushers, hfeeders, hinputs, -⟩ := h.within.work
    have hpresent (v : Train) : b.present v = (s.line.trainsPresent.set u false).get v := h.within.present v
    have hgap := h.gap
    have hsupervisor := h.supervisor
    refine ⟨_, hexec, State.trainsStored_repliedBy h.within, h.within.others, (hpresent u).trans (Quad.get_set_self ..),
      fun v hne => (hpresent v).trans (Quad.get_set_of_ne _ hne _), fun st hst => ?_, h.slots, congrArg _ hgap, congrArg _ hgap,
      congrArg _ hgap, (congrArg GapMeasurement.wear hgap :), (congrArg GapMeasurement.tenths hgap :), h.within.zeros, h.position, fun hm => ?_, h.relief,
      congrArg _ hsupervisor, congrArg _ hsupervisor, congrArg _ hsupervisor, congrArg _ hsupervisor, h.level, h.overload,
      h.reliefHold, hcrushers, hfeeders, h.within.store, htime, hinputs, ⟨hrelief, hpower, h.trip_hold, h.noRelief, h.noOverload,
      fun e he hname hset hcause => ?_, fun e he hname hset hcause => h.inactive .powerTrip hset hcause e he hname⟩, h.noFault, h.noUnset,
      h.noHigh, h.noLow, h.fault⟩
    · obtain ⟨hmode, hstanding⟩ := h.stations st hst
      refine ⟨hmode, hstanding, State.accepting_of_mode ?_⟩
      exact fun hrun => absurd (hmode.symm.trans hrun) (by decide)
    · exact h.mode (fun hno => absurd (hm.symm.trans hno) (by decide))
    · exact h.inactive .repeatedRelief hset (show (s.supervisor u).causeActive .repeatedRelief = true by
        simpa [Supervisor.causeActive] using hcause) e he hname
  · obtain ⟨b, h, hexec⟩ := trainsPresentWrite_present (tag := tag) hs hv hmodes hsubject hp htrains hout hsusp
    obtain ⟨-, -, htime, -, hcrushers, hfeeders, hinputs, -⟩ := h.within.work
    have hpresent (v : Train) : b.present v = (s.line.trainsPresent.set u true).get v := h.within.present v
    exact ⟨_, hexec, State.trainsStored_repliedBy h.within, h.within.others, (hpresent u).trans (Quad.get_set_self ..),
      fun v hne => (hpresent v).trans (Quad.get_set_of_ne _ hne _), h.feeder, h.crusher, h.gap, h.within.zeros, hcrushers,
      hfeeders, h.within.store, htime, hinputs, h.within.sequencer, h.held, fun hbases => h.base (hbases u), h.state, h.drive,
      h.barred, h.position, h.stopped, h.still, h.onset⟩

end Sys2Proof.Machine
end
